-- ==== Sys2Proof/Word.lean ====
section
/-!
DEFINITION. The word types of the QX4: bytes and the register widths the manual uses (spec/00_scope.md R9).
-/
namespace Sys2Proof

/-- One byte of a packet, a register image or memory. -/
abbrev Byte := BitVec 8

/-- A string of bytes in ascending address order (R9: little-endian). -/
abbrev Bytes := List (BitVec 8)

/-- A 32-bit register. -/
abbrev Word := BitVec 32

/-- A 64-bit register. -/
abbrev Word64 := BitVec 64

end Sys2Proof
end

