-- ==== Sys2Proof/Syntax.lean ====
section
/-!
DEFINITION. The commands of the QX4 as a block: one constructor of `Instr` for each row of spec/opcode_table.json,
with the operands that the rule of the row names and, where the step reads something from outside the device
(host memory, a sensor, a far link end, the outcome of a training or of a code), that input as an operand.
-/
namespace Sys2Proof

/-- One of the three engines of a core's sequencer (spec/06_drafts.md R175). -/
inductive Engine where
  | array | vector | move
deriving DecidableEq, Repr, Inhabited

/-- The issuers of Table 02-4 (spec/02_addresses_ordering_checks.md R52). -/
inductive Issuer where
  | engine (core : Nat) (e : Engine)
  | bobbins (channel : Nat)
  | regionCtl (region : Nat)
  | pageService (region : Nat)
  | management
  | command (packet : Nat)
  | bar2
  | weftRx (link vc : Nat)
  | chiplet
  | reduction (coll : Nat)
deriving DecidableEq, Repr, Inhabited

/-- A knot as an operation names it: of this device, local to a core's sequencer, or of another device (R98, R175). -/
inductive KnotRef where
  | device (n : Nat)
  | localTo (core n : Nat)
  | remote (dev n : Nat)
deriving DecidableEq, Repr, Inhabited

/-- What the codes of a store find when a check block is read (R72, R73, R200, R253). The check matrices are not
published (R197), so the finding is an input of the step: nothing, a corrected bit (that recurs on the re-read or
does not), an uncorrectable word, an uncorrectable metadata word, or bits of the block that changed unseen by the
ECC (which the check value then meets). `inFlight` are bits that change on the way, unseen by the code of a link: of the
copy that reaches an exit (R74), or of the bytes that reach their home (R70). -/
inductive Finding where
  | clean
  | corrected (word bit syndrome : Nat) (recurs : Bool)
  | uncorrectable (word syndrome : Nat)
  | metaUncorrectable (syndrome : Nat)
  | damaged (bits : List Nat)
  | inFlight (bits : List Nat)
deriving DecidableEq, Repr, Inhabited

/-- Findings by check-block number (device address divided by 256), each entry one word's; a block that is not listed is
clean. -/
abbrev Findings := List (Nat × Finding)

/-- What the host returns to the device's reads in one step: the bytes, or a failed read at a bus address (R324). -/
inductive HostData where
  | bytes (b : Bytes)
  | failed (addr : Nat)
deriving DecidableEq, Repr, Inhabited

/-- A register as a host access names it: a BAR0 offset, a BAR4 offset, a control-space device address or an offset of
configuration space. -/
inductive RegRef where
  | bar0 (offset : Nat)
  | bar4 (offset : Nat)
  | ctl (addr : Nat)
  | config (offset : Nat)
deriving DecidableEq, Repr, Inhabited

/-- The scopes of Table 17-7 (spec/17_errors_and_resets.md R507), in the order of DETAIL's SCOPE field (R499). -/
inductive Scope where
  | core | block | region | warm | cold | mLayer | cDie
deriving DecidableEq, Repr, Inhabited

/-- Why a reset was ordered: DETAIL's CAUSE field (R499). -/
inductive ResetCause where
  | command | containment | rescue | pcie | fwActivate | deviceFatal | watchdog
deriving DecidableEq, Repr, Inhabited

/-- The straps sampled when PWROK rises (spec/18_package_and_board.md R524). -/
structure Straps where
  bootSrc : BitVec 2
  refclkMode : Bool
  i3cAddr : BitVec 2
deriving DecidableEq, Repr, Inhabited

/-- What a die answers in bring-up phase 2 (R22, R409, R412, R413): its straps, whether its CAP came in time, its
capability bitmap, revision and table version, and the modules that trained at 32 GT/s. -/
structure DieAnswer where
  responds : Bool
  dieType : BitVec 2
  pos : BitVec 2
  stepMajor : BitVec 4
  stepMinor : BitVec 4
  capSent : Bool
  caps : BitVec 256
  revision : BitVec 16
  tableVersion : BitVec 16
  modulesTrained : BitVec 16
deriving DecidableEq, Repr, Inhabited

/-- What phase 3 finds at one HBM4 stack (R246): it trained at 8.0 Gb/s, only at 6.4 Gb/s, or at neither. -/
inductive HbmTraining where
  | full | slow | out
deriving DecidableEq, Repr, Inhabited

/-- The identity a far link end sends (spec/13_weft_links.md R378). -/
structure WeftIdentity where
  device : Nat
  unnumbered : Bool
  link : Nat
  manager : Bool
  generation : Nat
deriving DecidableEq, Repr, Inhabited

/-- The outcome of training one weft link: the lanes both ends passed and the far end's identity (R378, R379). -/
structure WeftTraining where
  lanes : BitVec 8
  identity : WeftIdentity
deriving DecidableEq, Repr, Inhabited

/-- A 256-byte weft flit after the code, with the outcome of its CRC-32 computed by the receiver (R375). -/
abbrev Flit := Bytes

/-- The readings that enter step 1 of a power sample without TELEM (R426, R429): H's 16 sensors, inlet and outlet,
as temperature codes, the HBM4 stacks' readout and threshold in °C (none: no readout), and H's other power in mW. -/
structure HubReadings where
  hub : List (BitVec 16)
  inlet : BitVec 16
  outlet : BitVec 16
  hbmStacks : List (Option (Int × Int))
  nonRegionMilliwatt : Nat
deriving DecidableEq, Repr, Inhabited

/-- A C-die's TELEM record (Table 15-3), its fields in order: the 64 C-die codes, 64 M-layer codes, VDD_CORE mV and
mA, VDD_DRAM mA, VPP mA, the two stack rails mW, SerDes mW, and per region the five activity counts. The AVSBus
reading's age is given by whether it was taken at least 150 µs after the last setpoint write (R443). -/
structure TelemRecord where
  seq : Nat
  counter : Nat
  cdie : List (BitVec 16)
  mlayer : List (BitVec 16)
  coreMillivolt : Nat
  coreMilliamp : Nat
  dramMilliamp : Nat
  vppMilliamp : Nat
  hbmMilliwatt : List Nat
  serdesMilliwatt : Nat
  activity : List (List Nat)
  afterSetpoint : Bool
deriving DecidableEq, Repr, Inhabited

/-- An Eweum message header (Table 14-5) without its KIND, with the blocks that follow it and their POISON and RESTARTED flags,
and the end that sends it: H, or on a side link the odd POS. -/
structure EwMessage where
  fromHub : Bool
  tag : Nat
  addr : Nat
  blocks : Nat
  status : Nat
  data : Bytes
  poison : List Bool
  restarted : List Bool := []
deriving DecidableEq, Repr, Inhabited

/-- The five knot operations of Table 03-5, as a KNOT_OP message or a remote operation carries one. -/
inductive KnotOp where
  | arrive (count : Nat) (lagging : Bool)
  | wait (target : Nat)
  | set (value : Nat)
  | add (delta : Int)
  | query
deriving DecidableEq, Repr, Inhabited

/-- A control message of Eweum VC 2 (Table 14-4): an arithmetic divider step, a layer's band, a stack's throttle
step or a region's rung settings. -/
inductive EwControl where
  | clockStep (step : Nat)
  | band (layer band : Nat)
  | throttle (port step : Nat)
  | rung (region rung : Nat)
  | clockStop
deriving DecidableEq, Repr, Inhabited

/-- Which scope a RESET_REQ names (Table 14-9). -/
inductive EwScope where
  | cDie
  | mLayer (n : Nat)
  | region (q : Nat)
  | partner
  | other (code : Nat)
deriving DecidableEq, Repr, Inhabited

/-- A DOE request (R325): discovery, or the attestation object with nonce and mask. -/
inductive DoeRequest where
  | discovery (index : Nat)
  | attestation (nonce : Bytes) (mask : BitVec 32)
deriving DecidableEq, Repr, Inhabited

/-- What a write-mode or READ_ONLY generator run found (R208, R261): failures counted, first failing address and
syndrome or information, and the banks in which a failure lay. -/
structure TgResult where
  errors : Nat
  firstAddr : Nat
  firstInfo : Nat
  banks : List Nat
deriving DecidableEq, Repr, Inhabited

/-- Where re-weave moves one item (R491): a frame to another frame, a slot to other blocks, or nowhere. -/
inductive ReweaveItem where
  | start (pos layer : Nat)
  | frame (region index : Nat) (finds : Findings)
  | slot (slot : Nat) (blocks : List Nat) (finds : Findings)
  | mark (items : Nat)
  | finish
deriving DecidableEq, Repr, Inhabited

/-- The commands of the block, one constructor for each row of spec/opcode_table.json. `p` names a packet in flight
(the identifier PACKET_FETCH or PACKET gave it), `m` a rescue mailbox (0 at BAR0, 1 behind I3C), `core` a logical
core, `ch` a near channel (core × 8 + layer), `pc` a pseudo-channel (stack × 64 + pseudo-channel). -/
inductive Instr where
  -- host packets (spec/12_command_reference.md)
  | modelLoad (p : Nat) (host : HostData) (finds : Findings)
  | modelPlace (p : Nat) (host : HostData) (finds : Findings) (blocks : List Nat)
  | modelEvict (p : Nat)
  | modelQuery (p : Nat)
  | seqOpen (p : Nat)
  | seqPrefill (p : Nat)
  | seqStep (p : Nat)
  | seqFork (p : Nat)
  | seqPark (p : Nat)
  | seqResume (p : Nat)
  | seqClose (p : Nat)
  | seqQuery (p : Nat)
  | pagePin (p : Nat)
  | pageUnpin (p : Nat)
  | pageDrop (p : Nat)
  | pageStats (p : Nat)
  | memRead (p : Nat) (finds : Findings)
  | memWrite (p : Nat) (host : HostData) (finds : Findings)
  | memFill (p : Nat) (finds : Findings)
  | memCopy (p : Nat) (host : HostData) (finds : Findings)
  | knotSet (p : Nat)
  | knotAdd (p : Nat)
  | knotWait (p : Nat)
  | knotWaitTimeout (p : Nat)
  | knotQuery (p : Nat)
  | collDefine (p : Nat)
  | collStart (p : Nat)
  | checkRun (p : Nat) (host : HostData) (finds : Findings)
  | telemRead (p : Nat)
  | telemStream (p : Nat)
  | telemStreamPeriod
  | powerCapSet (p : Nat)
  | powerQuery (p : Nat)
  | thermalStop (p : Nat)
  | licenceInstall (p : Nat) (host : HostData)
  | fwStage (p : Nat) (host : HostData)
  | fwActivate (p : Nat)
  | attest (p : Nat)
  | topologySet (p : Nat) (host : HostData)
  | roleSet (p : Nat)
  | reset (p : Nat)
  | abort (p : Nat)
  | errlogRead (p : Nat)
  | fenceUnit (p : Nat)
  | trafficGen (p : Nat)
  | linkTest (p : Nat) (errors : Nat) (lanesFailing : BitVec 8)
  -- the rescue class
  | rscSnapshot (m : Nat)
  | rscErrlogRead (m : Nat)
  | rscTelemRead (m : Nat)
  | rscRegionReset (m : Nat)
  | rscWarmReset (m : Nat)
  | rscLinkDisable (m : Nat)
  | rscThermalStop (m : Nat)
  | rescueGo (m : Nat)
  -- rings and BARs (spec/11_host_interface.md, spec/17_errors_and_resets.md)
  | sqTail (q : Nat) (value : Word)
  | cqHead (q : Nat) (value : Word)
  | packetFetch (q : Nat) (host : HostData)
  | replyWrite (p : Nat)
  | cqCoalesceTimer (q : Nat)
  | sqEnable (q : Nat) (value : Word)
  | sqDisable (q : Nat)
  | cqEnable (q : Nat) (value : Word)
  | cqDisable (q : Nat)
  | registerWrite (reg : RegRef) (size : Nat) (value : Word64)
  | rcRegisterRead (reg : RegRef) (size : Nat := 4)
  | controlApertureAccess (offset size : Nat) (write : Option Word64)
  | bar2Read (offset length : Nat) (finds : Findings)
  | bar2Write (offset : Nat) (bytes : Bytes) (finds : Findings)
  | hubErrHead (value : Word)
  | hubTlmHead (value : Word)
  | chkStart (n : Nat) (value : Word)
  | chkCtrlWrite (n : Nat) (value : Word)
  | chkDataWrite (n offset : Nat) (bytes : Bytes)
  | chkResultRead (n : Nat) (high : Bool)
  | chkOwnerWrite (n : Nat) (value : Word)
  | tgStart (ch : Nat) (value : Word)
  | tgStop (ch : Nat)
  | tgRunEnd (ch : Nat) (result : TgResult) (finds : Findings := [])
  | farTgStart (pc : Nat) (value : Word)
  | farTgStop (pc : Nat)
  | farTgRunEnd (pc : Nat) (result : TgResult) (finds : Findings := [])
  | bootHostGo (image : HostData)
  | i3cPrivateWrite (bytes : Bytes)
  | i3cPrivateRead (count : Nat)
  | entdaa (address : BitVec 7)
  | setdasa (static dynamic : BitVec 7)
  | rstdaa
  | enec (events : Byte)
  | disec (events : Byte)
  | getpid
  | getbcr
  | getdcr
  | getstatus
  | doeRequest (r : DoeRequest)
  | perst
  | pcieHotReset
  | functionLevelReset
  | d3hotEntry (d3hot : Bool)
  | d0Restore
  | pcieLinkTrained (speed width : Nat)
  | pcieReadFailed (p addr status : Nat)
  | pwrokRise (straps : Straps)
  | pwrokFall
  | refclkLoss
  -- bring-up, containment and resets (spec/16_bring_up.md, spec/17_errors_and_resets.md)
  | bringUpPhase1
  | bringUpPhase2 (dies : List DieAnswer) (sides : List (BitVec 4)) (hubReadings : HubReadings)
  | bringUpPhase3 (ladders : List (BitVec 8)) (hbmStacks : List HbmTraining) (failedBanks : List Nat)
      (failedPcs : List Nat) (failedTsvChannels : List Nat) (reweaveClean : Bool)
  | bringUpPhase4 (links : List (Option WeftTraining))
  | bringUpPhase5 (failedCores : List Nat)
  | licenceVerification
  | bringupHoldEnd
  | watchdogExpiry
  | coreSelfFence (core : Nat)
  | blockHeartbeatMiss (block : Nat)
  | regionHeartbeatMiss (region : Nat)
  | deviceFatalResetTimer
  | coreReset (core : Nat) (cause : ResetCause)
  | blockReset (block : Nat) (cause : ResetCause)
  | regionReset (region : Nat) (cause : ResetCause)
  | mLayerReset (pos layer : Nat)
  | cDieReset (pos : Nat)
  | deviceWarmReset (cause : ResetCause)
  | deviceColdReset (cause : ResetCause)
  | resetBoundMiss (scope : Scope) (unit : Nat)
  | errorVectorTimer
  | capacityReportUpdate
  | darnAppend
  -- memory, refresh and scrub (spec/02, 07, 09)
  | memoryRead (issuer : Issuer) (addr length : Nat) (finds : Findings)
  | memoryWrite (issuer : Issuer) (addr : Nat) (bytes : Bytes) (restarted : Bool) (finds : Findings)
  | farCorrectionWriteback (pc : Nat)
  | wbReweight (port : Nat)
  | refreshDue (ch bank : Nat) (postpone : Bool := false)
  | scrubRead (ch bank row : Nat) (finds : Findings)
  -- power and thermal (spec/15_power_and_thermal.md, spec/07, 09)
  | powerSample (r : HubReadings)
  | bandFall (pos layer : Nat)
  | throttleFall (stack : Nat)
  | stackReadoutMissing (stack : Nat)
  | telemMissHold (pos : Nat)
  | telemLost (pos : Nat)
  | sensorNoReading (sensor : Nat)
  | sensorFaultDecision (a b : Nat)
  | sensorSuspectClear (sensor : Nat)
  | sensorSuspectFaulty (sensor : Nat)
  | inletHot
  | rungRise (region : Nat)
  | clockStepDown
  | clockStepUp
  | stepUpVoltageConfirmed
  | stepUpAbandon
  | orderlyStop
  | clockStop
  | cDieTrip (pos : Nat)
  | mLayerTrip (pos layer : Nat)
  | hubTrip
  -- sequencer, array and vector unit (spec/04, 05, 06)
  | programStart (core : Nat)
  | weaveSwitch (slot : Nat)
  | descriptorDispatch (core : Nat) (finds : Findings := [])
  | descriptorIssue (core : Nat) (e : Engine)
  | descriptorComplete (core : Nat) (e : Engine) (index : Nat)
  | programAbort (core : Nat)
  | arrayMm (core : Nat) (finds : Findings) (badTableEntry : Option (Bool × Nat))
  | arrayDrain (core : Nat)
  | drainColumnWrite (core column : Nat) (frozen apart : Nat := 0)
  | coreStoreReadReturn (core link lateBeats : Nat) (correctedWord : Option (Nat × Nat × Nat)) (apart : Nat := 0)
  | fma (core : Nat) (finds : Findings)
  | vecAdd (core : Nat) (finds : Findings)
  | sub (core : Nat) (finds : Findings)
  | vecMul (core : Nat) (finds : Findings)
  | min (core : Nat) (finds : Findings)
  | vecMax (core : Nat) (finds : Findings)
  | exp (core : Nat) (finds : Findings)
  | rcp (core : Nat) (finds : Findings)
  | rsqrt (core : Nat) (finds : Findings)
  | silu (core : Nat) (finds : Findings)
  | gelu (core : Nat) (finds : Findings)
  | reduceSum (core : Nat) (finds : Findings)
  | reduceMax (core : Nat) (finds : Findings)
  | softmax (core : Nat) (finds : Findings)
  | rmsnorm (core : Nat) (finds : Findings)
  | layernorm (core : Nat) (finds : Findings)
  | convert (core : Nat) (finds : Findings)
  | split (core : Nat) (finds : Findings)
  | topk (core : Nat) (finds : Findings)
  | move (core : Nat) (finds : Findings)
  | attnGather (core : Nat) (finds : Findings)
  | bobbinSeq (core : Nat)
  | swatchScore (core : Nat) (finds : Findings)
  | knotArrive (core : Nat)
  | descKnotWait (core : Nat)
  | loop (core : Nat) (finds : Findings := [])
  | halt (core : Nat) (finds : Findings := [])
  -- bobbins (spec/08_bobbins.md)
  | admissionGrant (region : Nat) (finds : Findings)
  | processorModeExit (ch : Nat) (finds : Findings := [])
  | rmsnBarrierRelease (ch : Nat)
  | nop (ch slot : Nat)
  | endRun (ch slot : Nat)
  | uopLoop (ch slot : Nat)
  | setp (ch slot : Nat)
  | ldv (ch slot : Nat) (finds : Findings)
  | clr (ch slot : Nat)
  | mac (ch slot : Nat) (finds : Findings) (steps : Nat := 0)
  | macw (ch slot : Nat) (finds : Findings) (steps : Nat := 0)
  | scl (ch slot : Nat) (finds : Findings)
  | uopAdd (ch slot : Nat) (finds : Findings)
  | mul (ch slot : Nat) (finds : Findings)
  | max (ch slot : Nat) (finds : Findings)
  | wb16 (ch slot : Nat)
  | wb32 (ch slot : Nat)
  | expt (ch slot : Nat)
  | rsq (ch slot : Nat)
  | sumsq (ch slot : Nat) (finds : Findings) (steps : Nat := 0)
  | eadd (ch slot : Nat) (finds : Findings) (steps : Nat := 0)
  | emul (ch slot : Nat) (finds : Findings) (steps : Nat := 0)
  | rmsn (ch slot : Nat) (finds : Findings) (steps : Nat := 0)
  -- the knot store and the reduction engine (spec/03_warp_beam_and_knots.md)
  | arrive (issuer : Issuer) (knot : KnotRef) (count : Nat) (lagging : Bool)
  | wait (issuer : Issuer) (knot : KnotRef) (target : Nat)
  | waitRetry (issuer : Issuer) (knot : Nat)
  | set (issuer : Issuer) (knot : KnotRef) (value : Nat)
  | add (issuer : Issuer) (knot : KnotRef) (delta : Int)
  | query (issuer : Issuer) (knot : KnotRef)
  | collReduce (coll : Nat) (order : List Nat) (finds : Findings)
  | collPeerReduce (coll peer : Nat) (finds : Findings)
  -- step-batches, page services and re-weave (spec/10_sequences_and_kv.md, spec/16_bring_up.md)
  | stepBatchBuild (slot : Nat) (host : HostData) (finds : Findings)
  | stepBatchStart (slot : Nat)
  | stepBatchCommit (slot : Nat) (finds : Findings)
  | gatherPin (seq layer hgroup page : Nat)
  | gatherUnpin (region frame : Nat)
  | pageWrite (seq layer hgroup page offset : Nat) (bytes : Bytes)
  | pageRelease (seq layer hgroup page : Nat)
  | rootEntryRequest (region seq layer hgroup : Nat)
  | frameLossWalk (region frame : Nat)
  | poisonPageDrop (region frame : Nat)
  | reweaveItem (item : ReweaveItem)
  -- weft links and managers (spec/13_weft_links.md)
  | weftFrame (link : Nat) (codewords : List (List (BitVec 10)))
  | weftDataFlit (link : Nat) (flit : Flit)
  | weftAckTimer (link : Nat)
  | weftResendTimeout (link : Nat)
  | linkRetrain (link : Nat) (lanes : BitVec 8)
  | identityFlit (link : Nat) (identity : WeftIdentity)
  | packet (link : Nat)
  | reply (link : Nat)
  | write (link : Nat)
  | wack (link : Nat)
  | notice (link : Nat)
  | replyAck (link : Nat)
  | transitForward (link : Nat)
  | bcastTimeout (index child : Nat)
  | wackTimeout (token : Nat)
  | remoteReplyTimeout (pktNum : Nat)
  | orderedGapTimeout
  | replyResendTimer (pktNum : Nat)
  | liveNoticeTimer
  | liveMissingTimeout (worker : Nat)
  | vcStallTimeout (link vc : Nat)
  -- Eweum, sideband and the chiplet site (spec/14_die_to_die.md)
  | ewDataFlit (port module : Nat) (atHub : Bool) (flit : Flit) (badLane : Option Nat)
  | ewCtrlFlit (port module : Nat) (atHub : Bool) (flit : Flit)
  | ewAckTimer (port module : Nat) (atHub : Bool)
  | ewResendTimeout (port module : Nat) (atHub : Bool)
  | ewRead (port : Nat) (m : EwMessage) (finds : Findings)
  | ewWrite (port : Nat) (m : EwMessage) (finds : Findings)
  | ewCompletion (port : Nat) (m : EwMessage)
  | ewKnotOp (port : Nat) (m : EwMessage) (op : KnotOp)
  | ewKnotWake (port : Nat) (m : EwMessage)
  | ewControl (port : Nat) (c : EwControl)
  | ewTransit (port : Nat) (fromHub : Bool) (flit : Flit)
  | telem (pos : Nat) (r : TelemRecord)
  | telemMissTimer (d : Nat)
  | strapsRead (d : Nat) (a : DieAnswer)
  | resetReq (d : Nat) (scope : EwScope)
  | resetDone (d : Nat) (scope : EwScope) (step : Nat)
  | repairReq (port module : Nat) (towardHub : Bool) (lane : Nat) (retrained : Bool)
  | repairDone (port module : Nat) (failed : Bool)
  | holdOut (d : Nat)
  | partnerSilentTimeout
  | farEndLinkTraining (link : Nat) (t : WeftTraining)
  | rescueReplyBusy (m step : Nat)
deriving DecidableEq, Repr

end Sys2Proof
end

