-- ==== Sys2Proof/Config.lean ====
section
/-!
DEFINITION. What an implementation fixes and the free values: constants without a body, so no proof can see a value.
Each docstring names the rule that leaves the value open or says where it is fused.
-/
namespace Sys2Proof.Config

/-- Free bits drawn with the counter `State.free` (undefined outputs, entropy; log 11). -/
opaque freeBits (w n : Nat) : BitVec w

/-- The 128-bit device identity in fuses (spec/16_bring_up.md R478). -/
opaque deviceId : BitVec 128

/-- The subsystem vendor and device IDs, from fuses (Table 11-1). -/
opaque subsystemId : BitVec 32

/-- The fused trim of a VDD_CORE setpoint of the C-die with the given POS, in mV before its limits (R442). -/
opaque trimMillivolt (pos : Nat) : Int

/-- The fused heat-capacity and conductance factors before their limits (R432). -/
opaque capFactor : Rat
opaque condFactor : Rat

/-- The coefficient table of leakage power, in W, by VDD_CORE in mV and hot-spot temperature (R430: no figures given). -/
opaque leakage (millivolt : Nat) (temp : Rat) : Rat

/-- Whether a value that a register or record shows in units is rounded up from an exact value between two (R449, R458:
no rounding is stated). -/
opaque roundUp (x : Rat) : Bool

/-- SHA-256 (R341, R469, R471, R480), a function of the bytes. -/
opaque sha256 (b : Bytes) : Bytes

/-- Whether an SLH-DSA-SHA2-192s signature verifies (FIPS 205; R163, R471, R474): key, signed bytes, signature. -/
opaque slhVerify (key signed signature : Bytes) : Bool

/-- The SLH-DSA-SHA2-128f signature of an attestation report (R479). -/
opaque slhSign (signed : Bytes) : Bytes

/-- The digests in the boot ROM of the firmware and licence public keys (R471, R474), and of the boot ROM (R480). -/
opaque fwKeyDigest (index : Nat) : Bytes
opaque licKeyDigest (index : Nat) : Bytes
opaque bootRomDigest : Bytes

/-- The vector unit's and the bobbins' functions before the accuracy bound is applied (R134, R230, R241): a result
is the value here when it lies within the bound. -/
opaque vecExp (x : Word) : Word
opaque vecRcp (x : Word) : Word
opaque vecRsqrt (x : Word) : Word
opaque vecSilu (x : Word) : Word
opaque vecGelu (x : Word) : Word
opaque bobExp (x : Word) : Word
opaque bobRsq (x : Word) : Word
opaque bobRmsn (sum : Word) (n banks : Nat) (eps : BitVec 16) : Word

/-- Whether underflow's tininess is judged after rounding; IEEE 754 leaves the choice and the manual is silent
(spec/04 Table 04-10). -/
opaque tinyAfter : Bool

/-- The sticky flags that SOFTMAX, RMSNORM and LAYERNORM raise for a row, where the manual states none (R134, R135). -/
opaque rowFlags (op : Nat) (row : List Word) : BitVec 5

/-- SOFTMAX, RMSNORM and LAYERNORM of a row, element by index, before the formula bounds the result: no internal rounding is
stated (R134). -/
opaque softmax (row : List Word) (i : Nat) : Word
opaque rmsnorm (row gain : List Word) (eps : BitVec 16) (i : Nat) : Word
opaque layernorm (row gain bias : List Word) (eps : BitVec 16) (i : Nat) : Word

/-- How many units in the last place a result of SOFTMAX, RMSNORM or LAYERNORM may lie from its formula's value: the manual
states no accuracy for them (Table 04-7). -/
opaque rowUlps (op : Nat) : Nat

/-- The I3C target's provisioned identifier, its characteristics and its GETSTATUS value (R526 names the commands, not the
bytes). -/
opaque i3cPid : BitVec 48
opaque i3cBcr : Byte
opaque i3cDcr : Byte
opaque i3cStatus : BitVec 16

/-- The digest of the revision table that Pygrim uses for a die (R480: its contents are Pygrim's alone). -/
opaque revisionTableDigest (d : Nat) : Bytes

/-- The highest revision-table version that the running Pygrim carries for a die type and revision other than B1
(R413, R470: Pygrim alone interprets the tables); 0 when it carries none. -/
opaque tableVersion (dieType revision : Nat) : Nat

/-- The boundary (low 4 bits) and the spare position of a TSV repair that R195 adds, where neither is stated. -/
opaque tsvRepair (core bit : Nat) : BitVec 7

/-- The DOE discovery response for an index (PCIe base specification; R325). -/
opaque doeDiscovery (index : Nat) : Bytes

/-- The payload of a CTRL identity flit for a device number, the unnumbered indication, a link number, the manager role and
a GENERATION (spec/13 R378: the fields are named, their places are not). -/
opaque identityPayload (device : Nat) (unnumbered : Bool) (link : Nat) (manager : Bool) (generation : Nat) : Bytes

/-- The hash of R408, not stated: which of the modules in service a key of device-address bits [39:11], or a weft DEST, takes. -/
opaque moduleHash (key : Nat) : Nat

/-- The payload of an Eweum CTRL flit that returns credits, and the credits that a payload returns on a virtual channel
(Table 14-3: the layout is not stated). -/
opaque ewCreditPayload (vc count : Nat) : Bytes

/-- The body of a control message of Eweum: its kind, the unit and the setting (R408: not stated; log 121). -/
opaque ewControlPayload (kind unit setting : Nat) : Bytes
opaque ewCredits (payload : Bytes) (vc : Nat) : Nat

end Sys2Proof.Config
end

