-- ==== Sys2Proof/Machine/State.lean ====
section
/-!
DEFINITION. The state of the QX4 as plain data. Each field's docstring names the rule or table of spec/ that gives it;
the default value of a field is its value right after reset (INVENTORY.md, '## State'). Sparse tables list only
entries that were written; an unlisted entry reads as the `default` of its type, which is the reset value.
-/
namespace Sys2Proof.Machine

/-- A sparse table with keys strictly rising; an unlisted key reads as `default`. -/
abbrev Table (α : Type) := List (Nat × α)

/-- Faults of the model: none. Every command has an effect that the manual gives, or a value that it leaves free. -/
inductive Fault where
deriving DecidableEq, Repr

/-- Refusals of the model. -/
inductive Refusal where
  /-- The command has no meaning in this model yet; raised by exec's refused arms only; safe. -/
  | notModelled (mnemonic : String)
deriving DecidableEq, Repr

/-! ### Memory -/

/-- A check block's tag as it is kept (spec/02 R67, R68): the stored value (the CRC-32C, complemented when RESTARTED
is 1), the RESTARTED flag last stored (R73) and POISON. The default is the tag of a block of zeros made with
RESTARTED 1 (R69, zero fill). -/
structure Tag where
  stored : Word := 0x478D4E6F
  restarted : Bool := true
  poison : Bool := false
deriving DecidableEq, Repr, Inhabited

/-- Device memory: the bytes that are not zero, by 40-bit device address, and the tags that are not the zero
block's, by check-block number (address divided by 256). -/
structure Memory where
  cells : List Host.Cell := []
  tags : Table Tag := []
deriving DecidableEq, Repr, Inhabited

/-! ### Package pins and the PCIe function -/

/-- Board pins and straps (spec/18). -/
structure Pins where
  pwrok : Bool := false
  refclkLost : Bool := false
  straps : Straps := { bootSrc := 0, refclkMode := false, i3cAddr := 0 }
deriving DecidableEq, Repr, Inhabited

/-- What the device puts on the PCIe link, in order (spec/11): data of a read completion (with the poisoned
indication), a posted memory write (with its Relaxed Ordering attribute, R324), an MSI-X message, a DOE response. `reply` stands
only among what waits for D0 (R305): the reply of the packet with that number. -/
inductive PcieTx where
  | completion (data : Bytes) (poisoned : Bool)
  | memWrite (addr : Nat) (data : Bytes) (poisoned : Bool) (relaxed : Bool := false)
  | msix (vector : Nat)
  | doe (data : Bytes)
  | reply (packet : Nat)
deriving DecidableEq, Repr, Inhabited

/-- The PCIe function and its registers (spec/11). Of configuration space, `busMaster`, `d3hot`, `msixEnable` and `msixMaskAll`
hold Bus Master Enable, the power state, MSI-X Enable and Function Mask; `config` holds the other writable words that software
changed, by offset (log 120). -/
structure Pcie where
  ready : Bool := false
  phase : BitVec 3 := 0
  topology : Bool := false
  rescueOnly : Bool := false
  warm : Bool := false
  resetCount : BitVec 16 := 0
  degradedShown : Bool := false
  ctlWindow : BitVec 21 := 0x1E0000
  linkUp : Bool := false
  speed : Nat := 0
  width : Nat := 0
  d3hot : Bool := false
  busMaster : Bool := false
  bootHostAddr : Word64 := 0
  bootHostDone : Bool := false
  bootHostFail : Bool := false
  bootHostReason : BitVec 4 := 0
  msixEnable : Bool := false
  msixMaskAll : Bool := false
  config : Table (Option Word) := []
  msixEntry : Table (BitVec 96) := []
  msixUnmasked : List Nat := []
  msixPending : List Nat := []
  doeHeld : Option DoeRequest := none
  tx : List PcieTx := []
  held : List PcieTx := []
deriving DecidableEq, Repr, Inhabited

/-! ### Rings and packets -/

/-- Where a packet came from (R320, R326, R368, R396, R398). `bcast i` is the broadcast wait with index i, `neighbour` a
LINK_LOCAL message of a link's far end. -/
inductive Source where
  | ring (q : Nat)
  | manager (device pktNum : Nat) (ordered : Bool)
  | bcast (index : Nat)
  | neighbour (link num : Nat)
  | mailbox (m : Nat)
deriving DecidableEq, Repr, Inhabited

/-- A command's answer: STATUS and the 16 bytes of RESULT (Table 11-10). -/
structure Answer where
  status : Nat
  result : Bytes
deriving DecidableEq, Repr, Inhabited

/-- A packet in flight: its header fields (Table 11-9), parameter blocks, source and, once it has completed, answer.
`started` says its command has begun and waits for its completion point (R336), `away` that it runs on other devices
(R393), `follows` names the packet whose reply must be written before its own (R337). -/
structure Packet where
  id : Nat
  src : Source
  opcode : Nat
  fence : Bool := false
  irq : Bool := false
  tag : Nat := 0
  context : Nat := 0
  args : Bytes := []
  params : Bytes := []
  sqHead : Nat := 0
  cq : Nat := 0
  started : Bool := false
  away : Bool := false
  follows : Option Nat := none
  lag : Bool := false
  answer : Option Answer := none
deriving DecidableEq, Repr, Inhabited

/-- A submission ring's registers (Tables 11-6, 11-8, 13-9). -/
structure Sq where
  base : Word64 := 0
  enable : Bool := false
  loc : Bool := false
  cfgErr : Bool := false
  sizeLog2 : BitVec 5 := 7
  weight : BitVec 4 := 0
  cq : BitVec 6 := 0
  head : BitVec 16 := 0
  tail : BitVec 16 := 0
  target : BitVec 21 := 0
  served : Nat := 0
  short : Bool := false
deriving DecidableEq, Repr, Inhabited

/-- A completion ring's registers (Tables 11-7, 11-8): `head` is the freed index, `reserved` the entries reserved at
fetch, `unread` the replies written and not released, `unsignalled` the replies written since the last message (R319). -/
structure Cq where
  base : Word64 := 0
  enable : Bool := false
  loc : Bool := false
  cfgErr : Bool := false
  sizeLog2 : BitVec 5 := 4
  vector : BitVec 7 := 4
  irqEn : Bool := false
  head : BitVec 16 := 0
  tail : BitVec 16 := 0
  phase : Bool := true
  reserved : Nat := 0
  unread : Nat := 0
  unsignalled : Nat := 0
  coalesce : Word := 0x00001001
deriving DecidableEq, Repr, Inhabited

/-! ### Knots, collectives, check units -/

/-- A knot's stored bits (Table 03-4); WAIT_COUNT and MIN_TARGET are views of the waiter table. -/
structure Knot where
  value : BitVec 48 := 0
  lagging : Bool := false
  saturated : Bool := false
deriving DecidableEq, Repr, Inhabited

/-- A registered or refused WAIT (R96). `slot` tells a sequencer's descriptor, `tag` a partner die's request.
`laggingSeen` collects the lagging indication of the counted ARRIVEs (R260). -/
structure Waiter where
  issuer : Issuer
  knot : Nat
  target : Nat
  tag : Nat := 0
  laggingSeen : Bool := false
deriving DecidableEq, Repr, Inhabited

/-- A wake that the knot store sent (R96). -/
structure Wake where
  issuer : Issuer
  knot : Nat
  value : Nat
  tag : Nat := 0
  lagging : Bool := false
deriving DecidableEq, Repr, Inhabited

/-- The definition of a collective (Table 12-10, R354): contributor offsets, and per peer its device, peer knot and
peer slot offset. -/
structure CollDef where
  type : Nat := 0
  opMax : Bool := false
  fmt : Nat := 0
  tree : Bool := false
  elements : Nat := 0
  resultOffset : Nat := 0
  contribKnot : Nat := 0
  resultKnot : Nat := 0
  rank : Nat := 0
  root : Nat := 0
  contributors : List Nat := []
  peers : List (Nat × Nat × Nat) := []
deriving DecidableEq, Repr, Inhabited

/-- One run of a collective (R102): the command, the contribution target, each peer knot's target, whether the local
reduction is done, the peers reduced in, the OVERFLOW, LAGGING and poison indications, and whether a check failed (R73,
R74). -/
structure CollRun where
  packet : Nat
  contribTarget : Nat
  peerTargets : List Nat
  reduced : Bool := false
  peersDone : List Nat := []
  overflow : Bool := false
  lagging : Bool := false
  poisoned : Bool := false
  failed : Bool := false
deriving DecidableEq, Repr, Inhabited

/-- A collective: undefined, or a definition with the run that is under way. -/
structure Coll where
  def? : Option CollDef := none
  run : Option CollRun := none
deriving DecidableEq, Repr, Inhabited

/-- A check unit (Tables 03-8 to 03-10). The FIFO holds entries of 1 to 4 bytes that are not yet processed; `command` is the
CHECK_RUN that holds a hub unit (R108). -/
structure ChkUnit where
  poly : BitVec 2 := 0
  preset : Bool := false
  reflect : Bool := false
  xorout : Bool := false
  started : Bool := false
  cfgErr : Bool := false
  fifo : List Bytes := []
  remainder : Nat := 0
  byteCount : BitVec 24 := 0
  owner : BitVec 16 := 0
  command : Option Nat := none
deriving DecidableEq, Repr, Inhabited

/-! ### Cores -/

/-- States of a sequencer (Table 06-18), in the codes of CORE_SEQ_STATUS. -/
inductive SeqrState where
  | idle | running | draining | faulted | aborting
deriving DecidableEq, Repr, Inhabited

/-- Progress of a descriptor in its engine slot: placed by the dispatcher, issued, executed. -/
inductive SlotState where
  | placed | issued | executed
deriving DecidableEq, Repr, Inhabited

/-- A descriptor in an engine's slot: its index, its 64 bytes as one number (bit 0 of byte 0 lowest), the operand
addresses A, B, C that the dispatcher computed, the wait target, whether its wait is registered (`waiting`) or was
satisfied (`met`), the channels of a bobbin run not yet released (`chans`) the blocks its runs wrote (`wrote`, R236) and
the swatch frames it holds pinned (`pinned`, R296). -/
structure EngSlot where
  index : Nat
  desc : BitVec 512
  addrA : Nat := 0
  addrB : Nat := 0
  addrC : Nat := 0
  target : Nat := 0
  state : SlotState := .placed
  waiting : Bool := false
  met : Bool := false
  row : Nat := 0
  chans : List Nat := []
  wrote : List Nat := []
  pinned : List Nat := []
  poisoned : Bool := false
deriving DecidableEq, Repr, Inhabited

/-- A drain FIFO that holds a whole column and waits for its grant (R119): the accumulator's 16 values and what the
ARRAY_DRAIN of that column names. -/
structure DrainColumn where
  values : List Word
  addr : Nat
  fmt : Nat
  sat : Bool
  poisoned : Bool
deriving DecidableEq, Repr, Inhabited

/-- The elastic links of an array (R123, R127): the entries in the edge buffers of its 16 row and 16 column links, and by row
and column the values that each cell holds of its row and of its column input. A column value passed to a cell below row 0
stands first in the pipeline stage, so that cell's elastic register holds one value less. Empty lists: an idle array. -/
structure Elastic where
  rowEdge : List Nat := []
  colEdge : List Nat := []
  rowReg : List (List Nat) := []
  colReg : List (List Nat) := []
deriving DecidableEq, Repr, Inhabited

/-- The stalls of an array that have not settled (R128): the elastic links before them, the late reads (row link 0 to 15 or
column link 16 to 31, beat of the request, beat of the return), the frozen columns (column, first beat, beat of the grant),
the beat at which the latest ended, and the beats counted so far (log 7). -/
structure Stalls where
  base : Elastic
  late : List (Nat × Int × Int) := []
  frozen : List (Nat × Int × Int) := []
  last : Int := 0
  dry : Nat := 0
  hold : Nat := 0
  freeze : Nat := 0
deriving DecidableEq, Repr, Inhabited

/-- A row of the row table (Table 10-8). -/
structure RowEntry where
  seq : Nat := 0xFFF
  recompute : Bool := false
  retrieval : Bool := false
  newTokens : Nat := 0
  length : Nat := 0
deriving DecidableEq, Repr, Inhabited

/-- The row table of a step-batch (Table 10-8). -/
structure RowTable where
  path : Bool := false
  bucket : Nat := 0
  padTokens : Nat := 0
  rows : List RowEntry := []
deriving DecidableEq, Repr, Inhabited

/-- The accumulators ACC0 or ACC1 of one core: the 256 values in row-major order (none: all zero) and whether a
poisoned operand reached them; `complex` says that the last product was of a COMPLEX pass (R131). -/
structure Accumulator where
  values : List Word := []
  integer : Bool := false
  complex : Bool := false
  poisoned : Bool := false
deriving DecidableEq, Repr, Inhabited

/-- An append record of a row and pair (R293): the device address of append position 0 of plane 0, the token stride
and the plane stride in bytes. -/
structure AppendRec where
  row : Nat
  layer : Nat
  hgroup : Nat
  addr : Nat
  stride : Int
  plane : Int
deriving DecidableEq, Repr, Inhabited

/-- A program that a core's queue area holds (R186): its model slot, its first entry, its length and its ENTRY. The
descriptors themselves lie in the core store. -/
structure HeldProgram where
  slot : Nat
  base : Nat
  count : Nat
  entry : Nat
deriving DecidableEq, Repr, Inhabited

/-- A core (spec/04, 05, 06). `queue` lists the programs held, least recently started first (R186); `program` is the
one that runs or ran last. `spare` is the spare physical core it is bound to, none for its own primary (R487);
`selfFenceAt` the local counter at each self-fence (R503). -/
structure Core where
  absent : Bool := false
  spare : Option Nat := none
  fenced : Bool := false
  selfFenced : Bool := false
  selfFenceAt : List Nat := []
  poisonReads : Word := 0
  inReset : Bool := false
  acc0 : Accumulator := {}
  acc1 : Accumulator := {}
  drains : Table DrainColumn := []
  elastic : Elastic := {}
  stalls : Option Stalls := none
  arrInvalid : Bool := false
  arrOverflow : Bool := false
  arrWrap : Bool := false
  vecIv : Bool := false
  vecDz : Bool := false
  vecOf : Bool := false
  vecUf : Bool := false
  vecNx : Bool := false
  stallDry : Word := 0
  stallHold : Word := 0
  stallFreeze : Word := 0
  warpFmt : BitVec 4 := 0
  weftFmt : BitVec 4 := 0
  warpValid : Bool := false
  weftValid : Bool := false
  seqr : SeqrState := .idle
  pc : Nat := 0
  arraySlots : List EngSlot := []
  vecSlots : List EngSlot := []
  moveSlots : List EngSlot := []
  localKnots : Table Knot := []
  localWaits : List (Engine × Nat × Nat) := []
  xreg : Table (BitVec 40) := []
  trip : Table (BitVec 16) := []
  epoch : BitVec 48 := 0
  faultIndex : BitVec 9 := 0
  faultCause : BitVec 7 := 0
  faultStatus : BitVec 16 := 0
  haltPending : Option (BitVec 512) := none
  halted : Bool := false
  queue : List HeldProgram := []
  program : Option HeldProgram := none
  rowTable : Option RowTable := none
  rowBase : Nat := 0
  appends : List AppendRec := []
deriving DecidableEq, Repr, Inhabited

/-! ### Near channels and bobbins -/

/-- Progress of a bank in a bobbin run (R223, R241). -/
inductive BankState where
  | ready | active | atBarrier | ended
deriving DecidableEq, Repr, Inhabited

/-- A bobbin's compute format (Table 08-5, CLR). -/
inductive CFmt where
  | bf16 | fp16 | int16
deriving DecidableEq, Repr, Inhabited

/-- One bank's bobbin in a run (Table 08-1): 512 vector-chunk elements, 32 accumulators and their type, compute
format, pointers, loop counters, the micro-operation it handles next with the steps of it that have run (R224), the column
words it wrote in the run, and what each block that it wrote in part held before, with its tag (R234). -/
structure Bobbin where
  state : BankState := .ready
  v : List (BitVec 16) := []
  acc : List Word := []
  typeI : Bool := false
  cfmt : CFmt := .bf16
  p0 : Nat := 0
  p1 : Nat := 0
  p2 : Nat := 0
  lc0 : Nat := 0
  lc1 : Nat := 0
  upc : Nat := 0
  written : List Nat := []
  olds : Table (Bytes × Tag) := []
  done : Nat := 0
  returned : Nat := 0
  released : Bool := false
deriving DecidableEq, Repr, Inhabited

/-- What started a bobbin run: a BOBBIN_SEQ, or a SWATCH_SCORE whose frames lie in the channel (R296). `exiting` says that
every bank has executed END. For a score, `frames` lists each bank's swatch frames and `outs` the candidates' frame, page of
the frame's 64, and device address of the score. -/
structure BobRun where
  core : Nat
  slotIndex : Nat
  score : Bool := false
  bankMask : BitVec 16 := 0
  uops : List Word64 := []
  banks : Table Bobbin := []
  slot0 : Option Nat := none
  slot1 : Option Nat := none
  retAddr : Option Nat := none
  retS1 : Int := 0
  retS2 : Int := 0
  poisoned : Bool := false
  compat : Bool := false
  exiting : Bool := false
  frames : Table (List Nat) := []
  outs : List (Nat × Nat × Nat) := []
deriving DecidableEq, Repr, Inhabited

/-- What a generator's run was started with (R208): the register fields at its START. -/
structure TgRun where
  mode : Nat := 0
  readOnly : Bool := false
  bankMask : Nat := 0
  first : Nat := 0
  last : Nat := 0
  param : Word := 0
deriving DecidableEq, Repr, Inhabited

/-- A traffic generator's registers (Tables 07-9 to 07-11, 09-5 to 09-7) and its run; `stopping` says that STOP was
written. -/
structure TrafficGen where
  mode : BitVec 3 := 0
  readOnly : Bool := false
  bankMask : BitVec 16 := 0
  running : Bool := false
  stopping : Bool := false
  done : Bool := false
  fail : Bool := false
  refused : Bool := false
  errors : BitVec 16 := 0
  first : Nat := 0
  last : Nat := 0
  param : Word := 0
  failAddr : Word := 0
  failInfo : Word := 0
  cur : TgRun := {}
  packet : Option Nat := none
deriving DecidableEq, Repr, Inhabited

/-- An access in a channel queue (R189, R208, R216, R259): its issuer, address and length, for a write its bytes and the
writer's RESTARTED flag, and what the codes will find when it is served. -/
structure Queued where
  issuer : Issuer
  addr : Nat
  length : Nat
  write : Option (Bytes × Bool) := none
  finds : Findings := []
deriving DecidableEq, Repr, Inhabited

/-- An M-layer of a stack (R39, R205, R206): self-refresh, a reset of it or of its C-die, and in self-refresh the band that
it takes from its own sensors. -/
structure MLayer where
  selfRefresh : Bool := false
  inReset : Bool := false
  ownBand : Nat := 0
deriving DecidableEq, Repr, Inhabited

/-- A near channel: its controller and its bobbins' run (spec/07, 08). `uncorrRows` keeps, per bank, the rows of
uncorrectable errors with the local counter at each (R210); `corrLog` the bank, the port bit position and the counter
of each corrected error (R195, R210). -/
structure Chan where
  band : BitVec 2 := 0
  relaxed : Bool := false
  bankOut : BitVec 16 := 0
  bankOutAt : List (Nat × Nat) := []
  chOut : Bool := false
  eccCorr : Word := 0
  eccUncorr : Word := 0
  poisonReads : Word := 0
  tg : TrafficGen := {}
  refreshOwed : Table Nat := []
  refreshes : Table Nat := []
  uncorrRows : Table (List (Nat × Nat)) := []
  corrLog : List (Nat × Nat × Nat) := []
  tsvBits : List Nat := []
  queue : List Queued := []
  waitAdmit : List (Nat × Nat) := []
  run : Option BobRun := none
  bobInvalid : Bool := false
  bobOverflow : Bool := false
  bobWrap : Bool := false
  faultBank : BitVec 4 := 0
  faultUop : BitVec 5 := 0
  faultCause : BitVec 7 := 0
  faultStatus : BitVec 16 := 0
  bobSteps : Word := 0
  bobRefAtStep : Word := 0
deriving DecidableEq, Repr, Inhabited

/-! ### Regions, far memory -/

/-- The ten nodes of a region's thermal model in the order D, L0 to L3, S, L4 to L7 (R431), in °C. -/
abbrev Nodes := List Rat

/-- A region (spec/08, 15, 16, 17). -/
structure Region where
  enabled : Bool := false
  outOfService : Bool := false
  darnOut : Bool := false
  inReset : Bool := false
  homeN : Nat := 0
  windowOut : Bool := false
  admitLevel : BitVec 3 := 4
  admitQueue : List Nat := []
  active : Nat := 0
  rung : Nat := 8
  belowCount : Nat := 0
  budget : Nat := 0
  power : Rat := 0
  rth : Rat := 3 / 10
  capTh : Nat := 0
  rthWarned : Bool := false
  rthHigh : Bool := false
  nodes : Nodes := []
  forecast : Nodes := []
  checked : Nodes := []
  pool : List (Nat × Nat) := []
  ptArea : List (Nat × Nat) := []
  psDrops : Nat := 0
  psRecomputed : Nat := 0
  activity : List Nat := []
deriving DecidableEq, Repr, Inhabited

/-- A home pseudo-channel (Tables 09-4 to 09-7). -/
structure FarPc where
  out : Bool := false
  selfRefresh : Bool := false
  inReset : Bool := false
  hole : Bool := false
  position : Nat := 0
  eccCorr : Word := 0
  eccUncorr : Word := 0
  poisonReads : Word := 0
  tg : TrafficGen := {}
  uncorrRows : List (Nat × Nat) := []
  writebacks : List Nat := []
  queue : List Queued := []
deriving DecidableEq, Repr, Inhabited

/-- An HBM4 stack (FAR_STACK_STATUS, R258, R259). -/
structure Stack where
  temp : BitVec 8 := 0
  threshold : BitVec 8 := 0
  step : Nat := 0
  rate6g4 : Bool := false
  out : Bool := false
  below : Nat := 0
  missing : Nat := 0
  held : Bool := false
deriving DecidableEq, Repr, Inhabited

/-! ### Dies and die-to-die ports -/

/-- HUB_DIE_STRAPSd (Table 01-4) and HUB_EW_ registers of die d (Tables 14-11, 14-12). -/
structure Die where
  dieType : BitVec 2 := 3
  pos : BitVec 2 := 0
  posMatch : Bool := false
  heldOut : Bool := false
  ladderOk : BitVec 8 := 0
  hbmPresent : BitVec 2 := 0
  stepMinor : BitVec 4 := 0
  stepMajor : BitVec 4 := 0
  holdCause : BitVec 3 := 0
  agreed : BitVec 256 := 0
  revision : BitVec 16 := 0
  tableVersion : BitVec 16 := 0
  telemMissedHub : Word := 0
  telemMissedDie : Word := 0
  misses : Nat := 0
  telem : Option TelemRecord := none
  telemSeq : Nat := 0
  inReset : Bool := false
  clocksStopped : Bool := false
  setpoint : Nat := 800
  clockStep : Nat := 0
deriving DecidableEq, Repr, Inhabited

/-- The link layer of one Eweum module at one end (R406, R407, R417): sequence numbers, the replay buffer (SEQ, the key of the
hash of R408, the virtual channel with +4 for FIRST and +8 for LAST, the payload), the flits that wait, credits per virtual
channel, parity errors (lane and the local counter), repeated resends from one SEQ, redundant lanes in use in the receive
direction, and the flits put on the module. -/
structure EwModule where
  nextSeq : Nat := 0
  expected : Nat := 0
  got : Bool := false
  nakSent : Bool := false
  replay : List (Nat × Nat × Nat × Bytes) := []
  queued : List (Nat × Nat × Bytes) := []
  credits : List Nat := [64, 64, 16, 32]
  sinceAck : Nat := 0
  parity : List (Nat × Nat) := []
  resendSeq : Nat := 0
  resends : Nat := 0
  spares : Nat := 0
  sent : List Bytes := []
deriving DecidableEq, Repr, Inhabited

/-- A repair that a quiesce carries out (R418): its module, direction (true: towards H or the lower POS), lane, and whether
the lane has moved onto a redundant lane. -/
structure EwRepair where
  module : Nat
  towardHub : Bool
  lane : Nat
  moved : Bool
deriving DecidableEq, Repr, Inhabited

/-- A die-to-die port: 0 to 3 hub ports, 4 and 5 side links, 6 chiplet (Table 16-13): its modules in service, the
quiesce and the counters of its C-die ends (`crcFail2`, `replays2`: the end of the odd POS of a side link). `links` holds
module m at key 2 × m, and at 2 × m + 1 its end at H or at the odd POS. -/
structure EwPort where
  state : BitVec 2 := 0
  quiesced : Bool := false
  modulesOut : BitVec 16 := 0
  modules : Nat := 0
  crcFail : Word := 0
  replays : Word := 0
  crcFail2 : Word := 0
  replays2 : Word := 0
  repairing : List EwRepair := []
  links : Table EwModule := []
deriving DecidableEq, Repr, Inhabited

/-! ### Models, sequences, pages, batches -/

/-- A section that MODEL_LOAD keeps (R341): its index in the table, its type, its data (empty for WEIGHTS and
CONSTANTS) and, for a signed draft, the digest of a WEIGHTS or CONSTANTS section. -/
structure KeptSection where
  index : Nat
  type : Nat
  data : Bytes := []
  digest : Option Bytes := none
deriving DecidableEq, Repr, Inhabited

/-- A tile as MODEL_PLACE put it: kind, stored format, core, layer, bank, first absolute row and rows (near), or far offset. -/
structure PlacedTile where
  kind : Nat
  fmt : Nat := 0
  core : Nat := 0
  layer : Nat := 0
  bank : Nat := 0
  row : Nat := 0
  rows : Nat := 0
  farOffset : Nat := 0
  length : Nat := 0
deriving DecidableEq, Repr, Inhabited

/-- States of a model slot (Table 12-5). -/
inductive SlotPhase where
  | empty | loaded | placed | reload | busy
deriving DecidableEq, Repr, Inhabited

/-- A model slot (R168, R169, R187, R340, R341). `far`, `keptAt` (what MODEL_LOAD keeps) and `staging` are (device
address, length). -/
structure ModelSlot where
  phase : SlotPhase := .empty
  header : Bytes := []
  table : Bytes := []
  kept : List KeptSection := []
  weave : List Nat := []
  rowBase : Nat := 0
  far : Nat × Nat := (0, 0)
  keptAt : Nat × Nat := (0, 0)
  staging : Nat × Nat := (0, 0)
  knotBase : Nat := 0
  tiles : List PlacedTile := []
  programs : List (List (BitVec 512)) := []
  epoch : Nat := 0
  origins : Nat := 0
  evicting : Bool := false
  knotsToClear : Bool := false
deriving DecidableEq, Repr, Inhabited

/-- States of a sequence (Table 10-2). -/
inductive SeqPhase where
  | free | opened | batched | parked | closing
deriving DecidableEq, Repr, Inhabited

/-- A pending SEQ_STEP or SEQ_PREFILL: its packet, the single token or the buffer of a prefill, tokens in all and
tokens committed, its order among ready rows, and the worst that its batches consumed (R75). -/
structure PendingCmd where
  packet : Nat
  prefill : Bool
  token : Nat := 0
  total : Nat := 1
  done : Nat := 0
  order : Nat := 0
  status : Nat := 0
deriving DecidableEq, Repr, Inhabited

/-- A sequence (Table 10-1), with its pending command and the close or fork that waits for its batch. -/
structure Seq where
  phase : SeqPhase := .free
  privileged : Bool := false
  modelSlot : Nat := 0
  length : Nat := 0
  maxLength : Nat := 0
  priority : Nat := 0
  bucket : Nat := 0
  homeRegion : Nat := 0
  retrieval : Bool := false
  recomputeDue : Bool := false
  parkedNoPage : Bool := false
  parkedHost : Bool := false
  lost : Bool := false
  ptRoot : Nat := 0
  tokenLog : Nat := 0
  parent : Nat := 0
  forkPoint : Nat := 0
  lastBatch : Nat := 0
  reservedFrames : Nat := 0
  steps : Nat := 0
  pending : Option PendingCmd := none
  closers : List Nat := []
  parkAfter : Bool := false
  parkOrder : Nat := 0
  parkRegion : Nat := 0
  reservations : Table Nat := []
  recomputed : List (Nat × Nat) := []
deriving DecidableEq, Repr, Inhabited

/-- States of a PTE (Table 10-4). -/
inductive PteState where
  | noPage | present | absent | recomputing
deriving DecidableEq, Repr, Inhabited

/-- A page-table entry (Table 10-4); a swatch leaf's entries have the same layout (R271). -/
structure Pte where
  state : PteState := .noPage
  fn : Nat := 0
  drops : Nat := 0
  pins : Nat := 0
deriving DecidableEq, Repr, Inhabited

/-- A frame-table entry (Table 10-5). -/
structure Frame where
  kind : Nat := 0
  full : Bool := false
  recomputing : Bool := false
  gpins : Nat := 0
  refcount : Nat := 0
  holds : Nat := 0
  priority : Nat := 0
  lastUse : Nat := 0
  owner : Nat := 0
  layer : Nat := 0
  hgroup : Nat := 0
  page : Nat := 0
  modelSlot : Nat := 0
  swatches : List Nat := []
  allocated : Bool := false
deriving DecidableEq, Repr, Inhabited

/-- A row of a step-batch (R286, R288): what the row table says of it, the tokens it carries, the command it steps,
the pages its build allocated (PTE keys), and whether an ABORT struck it. -/
structure BatchRow where
  entry : RowEntry
  tokens : List Nat := []
  packet : Option Nat := none
  newPages : List Nat := []
  newSwatches : List Nat := []
  struck : Option Nat := none
deriving DecidableEq, Repr, Inhabited

/-- A step-batch of one model (R286 to R289): built, or running. `status` is the worst of what its descriptors consumed, a
poisoned block or one whose check failed (R73, R75). -/
structure Batch where
  slot : Nat
  serial : Nat
  path : Bool
  bucket : Nat
  padTokens : Nat
  rows : List BatchRow
  running : Bool := false
  failed : Option Nat := none
  status : Nat := 0
deriving DecidableEq, Repr, Inhabited

/-! ### Power, thermal, errors, capacity, rescue, boot -/

/-- A temperature sensor, numbered as UNIT_KIND 10 (R499): its reading in units of 0.125 °C (none: no conversion),
its readings at the last four samples, newest first, and its marks (R434 to R438); `marked` says that a first marking as
suspect was recorded. -/
structure Sensor where
  reading : Option Int := none
  history : List (Option Int) := []
  faulty : Bool := false
  suspect : Bool := false
  marked : Bool := false
  missing : Nat := 0
  suspectFor : Nat := 0
  clearFor : Nat := 0
deriving DecidableEq, Repr, Inhabited

/-- The power manager (spec/15). `disagree` counts the samples for which two sensors (a × 1024 + b) have disagreed (R435),
`stepWait` the samples until the next step change may come (R444). -/
structure Power where
  step : Nat := 0
  stepTarget : Option Nat := none
  oldSetpoints : List Nat := []
  capSet : Option Nat := none
  capPending : List Nat := []
  packagePower : Rat := 0
  nonRegion : Rat := 0
  overCount : Nat := 0
  underCount : Nat := 0
  stepWait : Nat := 0
  upSamples : Nat := 0
  inletHot : Nat := 0
  tIn : Rat := 0
  tOut : Rat := 0
  disagree : Table Nat := []
  streamMask : Word := 0
  streamPeriod : Nat := 0
  telemSeq : Nat := 0
deriving DecidableEq, Repr, Inhabited

/-- THM_STATUS (Table 15-13), with the commands that wait for a stop, whether the stop wrote the sequences' state (R297)
and whether CLOCK_STOP was ordered (R452). -/
structure Thermal where
  stop : Nat := 0
  cause : Nat := 0
  tripCdie : BitVec 4 := 0
  tripMlayer : BitVec 4 := 0
  tripHub : Bool := false
  hold : Bool := false
  bands : Table Nat := []
  bandBelow : Table Nat := []
  waiting : List Nat := []
  savedState : Bool := false
  clockOrdered : Bool := false
deriving DecidableEq, Repr, Inhabited

/-- One source of records (R63, R497): its next sequence number, and the corrected records and suppressions of the
window of its die's counter. -/
structure RecSource where
  next : Word := 0
  window : Nat := 0
  inWindow : Nat := 0
  suppressed : Nat := 0
deriving DecidableEq, Repr, Inhabited

/-- Error and telemetry rings and the management core's log (spec/17). -/
structure Errors where
  tail : Word := 0
  head : Word := 0
  dropped : Word := 0
  irq : Word := 0x00001001
  logNext : Word := 0
  log : List (Nat × Bytes) := []
  tlmTail : Word := 0
  tlmHead : Word := 0
  tlmDropped : Word := 0
  sources : Table RecSource := []
  unsignalled : Nat := 0
  ringUp : Bool := false
  fatalCount : Nat := 0
  fatalPending : Bool := false
  early : List Bytes := []
deriving DecidableEq, Repr, Inhabited

/-- The capacity report's changing parts (Table 17-10): GENERATION, CAUSES, the list, LIST_LOST, the degraded
states that the report shows (`standing`) and those that await their update (R513), and the offsets 0x20 to 0x320 as the last update wrote them. -/
structure Capacity where
  generation : Word := 0
  causes : Word64 := 0
  list : List Word64 := []
  lost : Nat := 0
  standing : List (Nat × Option Word64) := []
  pendingSet : List (Nat × Option Word64) := []
  pendingClear : List (Nat × Option Word64) := []
  summary : Bytes := []
  valid : Bool := false
deriving DecidableEq, Repr, Inhabited

/-- A rescue mailbox (Tables 12-14 to 12-16). -/
structure Mailbox where
  request : Bytes := []
  reply : Bytes := []
  data : Bytes := []
  busy : Bool := false
  done : Bool := false
  refused : Bool := false
deriving DecidableEq, Repr, Inhabited

/-- The I3C target (R370, R526). -/
structure I3c where
  dynamic : Option (BitVec 7) := none
  events : Byte := 0
  offset : Nat := 0
  ibis : List Byte := []
  out : List Bytes := []
deriving DecidableEq, Repr, Inhabited

/-- The fields of a licence that apply (Table 16-8, R476). -/
structure Licence where
  raw : Bytes := []
  serial : Nat := 0
  regions : BitVec 16 := 0
  weftLinks : BitVec 16 := 0
  manager : Bool := false
  rilavanik : Bool := false
  chiplet : Bool := false
  privSlots : Nat := 0
  maxPower : Nat := 600
deriving DecidableEq, Repr, Inhabited

/-- The boot flash (Table 16-2) and the fuses that change (R467, R471, R475). -/
structure Flash where
  active : Nat := 0
  try? : Option Nat := none
  pending : Option Nat := none
  fallback : Bool := false
  image0 : Bytes := []
  image1 : Bytes := []
  staged : Bool := false
  licActive : Bytes := []
  licPending : Option Bytes := none
  darnFuse : List Word64 := []
  darn : List Word64 := []
  darnValid : Bool := true
  darnSeq : Nat := 0
  topology : Option Bytes := none
  manager : Bool := false
  ownManager : Option Nat := none
  chain : Bytes := []
  fwCounter : Nat := 0
  licCounter : Nat := 0
  fwRevoked : List Nat := []
  licRevoked : List Nat := []
deriving DecidableEq, Repr, Inhabited

/-- A reset ordered and not complete: its cause, H's counter at the order, and the command or mailbox that its completion
answers; `done` says that it has been carried out and waits for another reset of its units (R42, R363, R371, R499). -/
structure ResetOrder where
  scope : Scope
  unit : Nat
  cause : ResetCause := .command
  start : Nat := 0
  packet : Option Nat := none
  mailbox : Option Nat := none
  done : Bool := false
deriving DecidableEq, Repr, Inhabited

/-- Bring-up (spec/16): the flash slot and image that run, the device reset that led to it, whether memory has been kept
without a break, the licence that verified and the one phase 1 read, darn-map entries to append, the re-weave that runs
(POS, layer, items), and H's counter at each region that R512 took out. -/
structure Boot where
  slot : Nat := 0
  image : Bytes := []
  hostBoot : Bool := false
  order : Option ResetOrder := none
  memoryKept : Bool := false
  licence : Option Licence := none
  licenceRead : Option Licence := none
  appendQueue : List Word64 := []
  reweave : Option (Nat × Nat × Nat) := none
  regionsLost : List Nat := []
deriving DecidableEq, Repr, Inhabited

/-! ### Weft links -/

/-- A weft message (Table 13-6): header fields, the 128 kind-specific bits and the body. -/
structure Msg where
  dest : Nat := 0
  src : Nat := 0
  kind : Nat := 0
  hops : Nat := 0
  linkLocal : Bool := false
  relay : Bool := false
  final : Nat := 0
  spec : BitVec 128 := 0
  body : Bytes := []
  vc : Nat := 0
deriving DecidableEq, Repr, Inhabited

/-- A weft link's registers (Tables 13-15, 13-16) and link layer (R376, R377). `got` says that a DATA flit has been
received in order since link-up, `queued` holds the flits that wait for credits or replay room (virtual channel, +4
for FIRST, +8 for LAST, and the 242 payload bytes), `sent` the flits put on the link, `retrainAt` the C-die's counter at
each retraining of the last second (R380). -/
structure WeftLink where
  state : BitVec 2 := 0
  width : BitVec 2 := 0
  degraded : Bool := false
  disabled : Bool := false
  stall : Bool := false
  test : Bool := false
  lanes : BitVec 8 := 0
  remote : Option WeftIdentity := none
  fecCorr : Word := 0
  fecUncorr : Word := 0
  crcFail : Word := 0
  replays : Word := 0
  retrains : BitVec 8 := 0
  retrainAt : List Nat := []
  fell : Bool := false
  nextSeq : Nat := 0
  expected : Nat := 0
  got : Bool := false
  nakSent : Bool := false
  sinceAck : Nat := 0
  replay : List (Nat × Bytes) := []
  credits : List Nat := [0, 0, 0, 0]
  queued : List (Nat × Bytes) := []
  rxPart : Table Bytes := []
  rxMsgs : List Msg := []
  sent : List Bytes := []
  resendSeq : Nat := 0
  resends : Nat := 0
deriving DecidableEq, Repr, Inhabited

/-- A device that this manager tracks as a worker, or forwards packets to (R392 to R394, R397): whether it is tracked and
whether its LIVE notices arrive, the next ordered packet's number, and the packets not yet replied with their numbers. -/
structure Worker where
  device : Nat
  tracked : Bool := false
  live : Bool := false
  next : Nat := 0
  unreplied : List (Nat × Nat) := []
deriving DecidableEq, Repr, Inhabited

/-- A broadcast packet whose subtree has not answered (R396). -/
structure BcastWait where
  index : Nat
  num : Nat := 0
  tag : Nat := 0
  origin : Option Nat
  children : List Nat
  selfDone : Bool
  ok : Nat := 0
  fail : Nat := 0
  firstFail : Nat := 0
  firstStatus : Nat := 0
deriving DecidableEq, Repr, Inhabited

/-- A WRITE sent and not acknowledged (R384): its token and the issuer that sent it. -/
structure WriteOut where
  token : Nat
  issuer : Issuer
  device : Nat
deriving DecidableEq, Repr, Inhabited

/-- A knot operation on another device (R98, R384): sent (with its packet number) or waiting for WACKs. -/
structure RemoteOp where
  num : Nat
  issuer : Issuer
  device : Nat
  knot : Nat
  op : KnotOp
  tag : Nat := 0
  sent : Bool := false
deriving DecidableEq, Repr, Inhabited

/-- The device's part in the weft network (R387 to R398). -/
structure Weft where
  links : Table WeftLink := []
  table : Option Bytes := none
  manager : Bool := false
  ownManager : Option Nat := none
  workers : List Worker := []
  expectNum : Nat := 0
  early : List (Nat × Msg) := []
  kept : List (Nat × Msg × Nat) := []
  writes : List WriteOut := []
  nextToken : Nat := 0
  remoteOps : List RemoteOp := []
  nextNum : Nat := 0
  bcasts : List BcastWait := []
  nextBcast : Nat := 0
  noticeNum : Word := 0
  discrepancies : List Nat := []
deriving DecidableEq, Repr, Inhabited

/-- What the last MEMORY_READ delivered to its issuer (R54): status, data and the POISON flag. -/
structure Delivered where
  status : Nat := 0
  data : Bytes := []
  poison : Bool := false
deriving DecidableEq, Repr, Inhabited

/-! ### The whole block -/

/-- The state of the QX4. `pending` is the queue of waiting commands, first in first out; `free` is the model's own
counter of free values drawn. -/
structure State where
  pending : List Instr := []
  free : Nat := 0
  pins : Pins := {}
  pcie : Pcie := {}
  sqs : Table Sq := []
  cqs : Table Cq := []
  packets : List Packet := []
  nextPacket : Nat := 0
  mem : Memory := {}
  delivered : Delivered := {}
  knots : Table Knot := []
  waiters : List Waiter := []
  refusedWaits : List Waiter := []
  wakes : List Wake := []
  throttled : List Issuer := []
  colls : Table Coll := []
  chk : Table ChkUnit := []
  wbPoisonReads : Word := 0
  wbWeights : Table Nat := [(8, 1), (9, 16)]
  staging : List (Nat × Nat) := []
  cores : Table Core := []
  chans : Table Chan := []
  layers : Table MLayer := []
  regions : Table Region := []
  pcs : Table FarPc := []
  hbmStacks : Table Stack := []
  dies : Table Die := []
  ports : Table EwPort := []
  slots : Table ModelSlot := []
  seqs : Table Seq := []
  ptes : Table Pte := []
  dirs : Table Nat := []
  leaves : Table Nat := []
  frames : Table Frame := []
  batches : List Batch := []
  nextSerial : Nat := 0
  nextOrder : Nat := 0
  sensors : Table Sensor := []
  power : Power := {}
  thermal : Thermal := {}
  errors : Errors := {}
  capacity : Capacity := {}
  counters : Table (BitVec 48) := []
  mailboxes : Table Mailbox := []
  rescueOrder : List Nat := []
  i3c : I3c := {}
  flash : Flash := {}
  boot : Boot := {}
  resets : List ResetOrder := []
  weft : Weft := {}
deriving DecidableEq, Repr

/-- The machine right after reset: every field at the value the spec gives, or at the value that the assumption log
names (INVENTORY.md, '## State'). -/
def State.reset : State := {}

end Sys2Proof.Machine
end

