-- ==== Sys2Proof/Machine/Bits.lean ====
section
/-!
DEFINITION. Helpers of the whole model: sparse tables, little-endian fields (spec/00_scope.md R9), CRC-32C and the
other CRCs of Table 03-7 (spec/03_warp_beam_and_knots.md), saturating counters.
-/
namespace Sys2Proof.Machine

/-- The entry of a sparse table; an unlisted key reads as the reset value. -/
def tget {α : Type} [Inhabited α] : Table α → Nat → α
  | [], _ => default
  | (k, v) :: t, i => if k = i then v else tget t i

/-- A sparse table with entry `i` dropped. -/
def terase {α : Type} : Table α → Nat → Table α
  | [], _ => []
  | (k, v) :: t, i => if k = i then terase t i else (k, v) :: terase t i

/-- Insert at the sorted place, replacing an entry of the same key. -/
def tinsert {α : Type} : Table α → Nat → α → Table α
  | [], i, a => [(i, a)]
  | (k, v) :: t, i, a =>
    if i < k then (i, a) :: (k, v) :: t
    else if i = k then (i, a) :: t
    else (k, v) :: tinsert t i a

/-- Write an entry of a sparse table; writing the reset value removes the entry. -/
def tset {α : Type} [Inhabited α] [DecidableEq α] (t : Table α) (i : Nat) (a : α) : Table α :=
  if a = default then terase t i else tinsert t i a

/-- Change one entry of a sparse table. -/
def tmod {α : Type} [Inhabited α] [DecidableEq α] (t : Table α) (i : Nat) (f : α → α) : Table α :=
  tset t i (f (tget t i))

/-- Change every entry whose key is listed. -/
def tmodAll {α : Type} [Inhabited α] [DecidableEq α] (t : Table α) (is : List Nat) (f : Nat → α → α) : Table α :=
  is.foldl (fun t i => tmod t i (f i)) t

/-- Change the entries of keys `lo` to `lo + n - 1`. -/
def tmodRange {α : Type} [Inhabited α] [DecidableEq α] (t : Table α) (lo n : Nat) (f : α → α) : Table α :=
  let mid := (List.range n).filterMap (fun i =>
    let v := f (tget t (lo + i))
    if v = default then none else some (lo + i, v))
  t.filter (fun e => decide (e.1 < lo)) ++ mid ++ t.filter (fun e => decide (lo + n ≤ e.1))

/-- The numbers `a`, `a + 1`, ..., `n` of them. -/
def rangeFrom (a n : Nat) : List Nat := (List.range n).map (a + ·)

/-- The number that the bytes spell, first byte lowest (R9). -/
def leNat : Bytes → Nat
  | [] => 0
  | b :: t => b.toNat + 256 * leNat t

/-- `n` bytes of a number, first byte lowest (R9). -/
def toBytes : Nat → Nat → Bytes
  | 0, _ => []
  | n + 1, v => BitVec.ofNat 8 v :: toBytes n (v / 256)

/-- The field of `n` bytes at an offset, as a number; bytes past the end read 0. -/
def fieldAt (b : Bytes) (offset n : Nat) : Nat := leNat ((b.drop offset).take n)

/-- Bits [hi:lo] of a number. -/
def bitsOf (v hi lo : Nat) : Nat := v / 2 ^ lo % 2 ^ (hi + 1 - lo)

/-- Bit i of a number. -/
def bitOf (v i : Nat) : Bool := v / 2 ^ i % 2 == 1

/-- 1 for true. -/
def b2n (b : Bool) : Nat := if b then 1 else 0

/-- A number of `w` bits read as two's complement. -/
def signed (w v : Nat) : Int := if v < 2 ^ (w - 1) then (v : Int) else (v : Int) - 2 ^ w

/-- An integer wrapped to `w` bits. -/
def wrapTo (w : Nat) (i : Int) : Nat := (i % (2 ^ w : Int)).toNat

/-- Replace the bytes from `offset` on; the string keeps its length. -/
def overlay (old : Bytes) (offset : Nat) (new : Bytes) : Bytes :=
  (old.take offset ++ new ++ old.drop (offset + new.length)).take old.length

/-- Pad with zero bytes to `n`, or cut to `n`. -/
def padTo (n : Nat) (b : Bytes) : Bytes := (b ++ List.replicate (n - b.length) 0).take n

/-- Set or clear bit i of a 64-bit image. -/
def putBit (v : Word64) (i : Nat) (b : Bool) : Word64 :=
  if b then v ||| BitVec.ofNat 64 (2 ^ i) else v &&& ~~~ BitVec.ofNat 64 (2 ^ i)

/-- Add to a 32-bit counter that stops at its largest value. -/
def satAdd (c : Word) (n : Nat) : Word := BitVec.ofNat 32 (Nat.min (c.toNat + n) 0xFFFFFFFF)

/-- One bit step of a reflected CRC with the reflected polynomial `poly`. -/
def crcStepR (poly c : Nat) : Nat := if c % 2 = 1 then Nat.xor (c / 2) poly else c / 2

/-- Iterate a step. -/
def iterate {α : Type} (f : α → α) : Nat → α → α
  | 0, a => a
  | n + 1, a => iterate f n (f a)

/-- One byte into a reflected CRC. -/
def crcByteR (poly c : Nat) (b : Byte) : Nat := iterate (crcStepR poly) 8 (Nat.xor c b.toNat)

/-- One bit step of a CRC that is not reflected, of width `w`. -/
def crcStepN (w poly c : Nat) : Nat :=
  let d := c * 2 % 2 ^ w
  if c / 2 ^ (w - 1) % 2 = 1 then Nat.xor d poly else d

/-- One byte into a CRC that is not reflected, of width `w` at least 8. -/
def crcByteN (w poly c : Nat) (b : Byte) : Nat :=
  iterate (crcStepN w poly) 8 (Nat.xor c (b.toNat * 2 ^ (w - 8)))

/-- CRC-32C with the parameters of R66: reflected, initial value and final XOR all ones. -/
def crc32c (b : Bytes) : Nat := Nat.xor (b.foldl (crcByteR 0x82F63B78) 0xFFFFFFFF) 0xFFFFFFFF

/-- CRC-32 (Table 03-7) with preset, reflection and XOROUT all 1, used by the weft flits (R375). -/
def crc32 (b : Bytes) : Nat := Nat.xor (b.foldl (crcByteR 0xEDB88320) 0xFFFFFFFF) 0xFFFFFFFF

/-- CRC-8 of the link-control word (Table 13-3): polynomial 0x07, initial value 0. -/
def crc8 (b : Bytes) : Nat := b.foldl (crcByteN 8 0x07) 0

/-- The `w` bits of a number in reverse order. -/
def reflect : Nat → Nat → Nat
  | 0, _ => 0
  | w + 1, v => (v % 2) * 2 ^ w + reflect w (v / 2)

/-- The first element that satisfies a test. -/
def firstThat {α : Type} (p : α → Bool) : List α → Option α
  | [] => none
  | a :: t => if p a then some a else firstThat p t

/-- Replace the first element that satisfies a test. -/
def modFirst {α : Type} (p : α → Bool) (f : α → α) : List α → List α
  | [] => []
  | a :: t => if p a then f a :: t else a :: modFirst p f t

/-- Sum of a list of numbers. -/
def sumOf (l : List Nat) : Nat := l.foldl (· + ·) 0

/-- Insert a number in ascending order by a key. -/
def insertBy {α : Type} (le : α → α → Bool) (a : α) : List α → List α
  | [] => [a]
  | b :: t => if le a b then a :: b :: t else b :: insertBy le a t

/-- Stable insertion sort. -/
def sortBy {α : Type} (le : α → α → Bool) : List α → List α
  | [] => []
  | a :: t => insertBy le a (sortBy le t)

/-- Division rounded up. -/
def ceilDiv (a b : Nat) : Nat := (a + b - 1) / b

/-- A string of bytes cut into pieces of n bytes, at most `fuel` of them. -/
def chunks : Nat → Nat → Bytes → List Bytes
  | 0, _, _ => []
  | fuel + 1, n, b => if b.isEmpty then [] else b.take n :: chunks fuel n (b.drop n)

/-- The lowest multiple of `align` at or after `lo` where `len` fits below `hi` between the sorted allocations. -/
def firstFit (align len lo hi : Nat) : List (Nat × Nat) → Option Nat
  | [] => let a := ceilDiv lo align * align; if a + len ≤ hi then some a else none
  | (s, n) :: t =>
    let a := ceilDiv lo align * align
    if a + len ≤ s then some a else firstFit align len (Nat.max lo (s + n)) hi t

/-- Add an allocation in order of its start. -/
def allocInsert (l : List (Nat × Nat)) (s n : Nat) : List (Nat × Nat) :=
  insertBy (fun a b => a.1 ≤ b.1) (s, n) l

/-- Whether bytes are all 0. -/
def allZero (b : Bytes) : Bool := b.all (· == 0)

/-- Drop the allocation that starts at `s`. -/
def allocErase (l : List (Nat × Nat)) (s : Nat) : List (Nat × Nat) := l.filter (fun e => e.1 != s)

end Sys2Proof.Machine
end

