-- ==== Sys2Proof/Machine/Flags.lean ====
section
/-!
DEFINITION. Number formats and their flags (spec/05_number_formats.md): the ten encodings, exact values, rounding to
nearest even or stochastically, overflow, and the sticky flags that each operation raises. A finite value is
(−1)^neg × mag × 2^exp; all arithmetic is exact on such values and rounds once.
-/
namespace Sys2Proof.Machine

/-- The value of a code: a NaN, an infinity or a finite number (R143). -/
inductive Val where
  | nan (signalling : Bool)
  | inf (neg : Bool)
  | fin (neg : Bool) (mag : Nat) (exp : Int)
deriving DecidableEq, Repr

/-- Exceptions of an operation, in the order of CORE_VEC_FLAGS (Table 04-10). -/
structure Exc where
  iv : Bool := false
  dz : Bool := false
  overflow : Bool := false
  uf : Bool := false
  nx : Bool := false
deriving DecidableEq, Repr, Inhabited

/-- Both sets of exceptions. -/
def excOr (a b : Exc) : Exc :=
  { iv := a.iv || b.iv, dz := a.dz || b.dz, overflow := a.overflow || b.overflow, uf := a.uf || b.uf, nx := a.nx || b.nx }

/-- A floating-point format: exponent and mantissa bits, bias, whether it has infinities and NaNs as IEEE 754 has
them, the largest finite code, the code of its default NaN (Table 05-2, R144). -/
structure FloatFmt where
  eb : Nat
  mb : Nat
  bias : Nat
  ieee : Bool
  maxCode : Nat
  nanCode : Option Nat
deriving DecidableEq, Repr

def fmtFp32 : FloatFmt := { eb := 8, mb := 23, bias := 127, ieee := true, maxCode := 0x7F7FFFFF, nanCode := some 0x7FC00000 }
def fmtBf16 : FloatFmt := { eb := 8, mb := 7, bias := 127, ieee := true, maxCode := 0x7F7F, nanCode := some 0x7FC0 }
def fmtFp16 : FloatFmt := { eb := 5, mb := 10, bias := 15, ieee := true, maxCode := 0x7BFF, nanCode := some 0x7E00 }
def fmtE4m3 : FloatFmt := { eb := 4, mb := 3, bias := 7, ieee := false, maxCode := 0x7E, nanCode := some 0x7F }
def fmtE5m2 : FloatFmt := { eb := 5, mb := 2, bias := 15, ieee := true, maxCode := 0x7B, nanCode := some 0x7F }
def fmtE3m2 : FloatFmt := { eb := 3, mb := 2, bias := 3, ieee := false, maxCode := 0x1F, nanCode := none }
def fmtE2m3 : FloatFmt := { eb := 2, mb := 3, bias := 1, ieee := false, maxCode := 0x1F, nanCode := none }
def fmtE2m1 : FloatFmt := { eb := 2, mb := 1, bias := 1, ieee := false, maxCode := 0x7, nanCode := none }

/-- The floating-point format of a format code (Table 05-1). -/
def floatFmt (code : Nat) : Option FloatFmt :=
  match code with
  | 0 => some fmtFp32
  | 1 => some fmtBf16
  | 2 => some fmtFp16
  | 3 => some fmtE4m3
  | 4 => some fmtE5m2
  | 5 => some fmtE3m2
  | 6 => some fmtE2m3
  | 7 => some fmtE2m1
  | _ => none

/-- The width in bits of an integer format's value (Table 05-1). -/
def intBits (code : Nat) : Option Nat :=
  match code with
  | 8 => some 8
  | 9 => some 4
  | 10 => some 16
  | 11 => some 32
  | _ => none

/-- Bits an element takes in memory (Table 05-1). -/
def elemBits (code : Nat) : Nat :=
  match code with
  | 0 => 32
  | 1 => 16
  | 2 => 16
  | 3 => 8
  | 4 => 8
  | 5 => 8
  | 6 => 8
  | 7 => 4
  | 8 => 8
  | 9 => 4
  | 10 => 16
  | 11 => 32
  | _ => 8

/-- A narrow format: one that the feeders decode through a table (R142). -/
def narrowFmt (code : Nat) : Bool := code == 3 || code == 4 || code == 5 || code == 6 || code == 7 || code == 9

/-- The value of a floating-point code (R143). -/
def decodeFloat (f : FloatFmt) (c : Nat) : Val :=
  let m := c % 2 ^ f.mb
  let e := c / 2 ^ f.mb % 2 ^ f.eb
  let neg := c / 2 ^ (f.mb + f.eb) % 2 == 1
  if f.ieee && e == 2 ^ f.eb - 1 then
    if m = 0 then .inf neg else .nan (decide (m < 2 ^ (f.mb - 1)))
  else if f.nanCode = some (c % 2 ^ (f.mb + f.eb)) then .nan false
  else if e = 0 then .fin neg m (1 - (f.bias : Int) - f.mb)
  else .fin neg (m + 2 ^ f.mb) ((e : Int) - f.bias - f.mb)

/-- The value of an element's code in a format; FP6 ignores bits [7:6] (R145). -/
def decodeElem (fmt c : Nat) : Val :=
  match floatFmt fmt with
  | some f => decodeFloat f (c % 2 ^ (1 + f.eb + f.mb))
  | none =>
    let w := (intBits fmt).getD 32
    let i := signed w (c % 2 ^ w)
    .fin (decide (i < 0)) i.natAbs 0

/-- The sign bit of a code in a format. -/
def signBit (f : FloatFmt) (neg : Bool) : Nat := if neg then 2 ^ (f.mb + f.eb) else 0

/-- The exponent of the leading bit of mag × 2^exp, for mag ≠ 0. -/
def leadExp (mag : Nat) (exp : Int) : Int := (Nat.log2 mag : Int) + exp

/-- The exponent of the least significant bit of the target around mag × 2^exp (R149). -/
def lsbExp (f : FloatFmt) (mag : Nat) (exp : Int) : Int :=
  let emin : Int := 1 - (f.bias : Int)
  (if leadExp mag exp < emin then emin else leadExp mag exp) - f.mb

/-- mag × 2^exp in units of 2^q, rounded to nearest even, and whether it was inexact. -/
def roundNearest (mag : Nat) (exp q : Int) : Nat × Bool :=
  if q ≤ exp then (mag * 2 ^ (exp - q).toNat, false)
  else
    let d := 2 ^ (q - exp).toNat
    let n := mag / d
    let r := mag % d
    (if d < 2 * r ∨ (2 * r = d ∧ n % 2 = 1) then n + 1 else n, decide (r ≠ 0))

/-- mag × 2^exp in units of 2^q, rounded stochastically with the draw `r` (R150), and whether it was inexact. -/
def roundStochastic (mag : Nat) (exp q : Int) (r : Nat) : Nat × Bool :=
  if q ≤ exp then (mag * 2 ^ (exp - q).toNat, false)
  else
    let d := 2 ^ (q - exp).toNat
    let n := mag / d
    let rest := mag % d
    let frac := rest * 65536 / d
    (if rest ≠ 0 ∧ 65536 ≤ frac + r then n + 1 else n, decide (rest ≠ 0))

/-- Nearest even, or stochastic with a 16-bit draw. -/
inductive Rounding where
  | nearest
  | stochastic (draw : Nat)
deriving DecidableEq, Repr

def roundBy (mode : Rounding) (mag : Nat) (exp q : Int) : Nat × Bool :=
  match mode with
  | .nearest => roundNearest mag exp q
  | .stochastic r => roundStochastic mag exp q r

/-- The result of overflow (Table 05-3): the largest finite, an infinity, or E4M3's default NaN; FP6 and FP4 always
saturate. -/
def overflowCode (f : FloatFmt) (neg sat : Bool) : Nat :=
  match sat, f.ieee, f.nanCode with
  | true, _, _ => signBit f neg + f.maxCode
  | false, true, _ => signBit f neg + (2 ^ f.eb - 1) * 2 ^ f.mb
  | false, false, some n => n
  | false, false, none => signBit f neg + f.maxCode

/-- A finite value rounded into a format, with its exceptions (R149, R151). Whether tininess is judged before or after
rounding is open (Config.tinyAfter). -/
def encodeFinite (f : FloatFmt) (mode : Rounding) (sat neg : Bool) (mag : Nat) (exp : Int) : Nat × Exc :=
  if mag = 0 then (signBit f neg, {})
  else
    let emin : Int := 1 - (f.bias : Int)
    let q := lsbExp f mag exp
    let r := roundBy mode mag exp q
    let base := if leadExp mag exp < emin then 0 else (leadExp mag exp - emin).toNat
    let code := base * 2 ^ f.mb + r.1
    if f.maxCode < code then (overflowCode f neg sat, { overflow := true, nx := true })
    else
      let tiny := if Config.tinyAfter then decide (code < 2 ^ f.mb) else decide (leadExp mag exp < emin)
      (signBit f neg + code, { nx := r.2, uf := r.2 && (tiny || decide (code = 0)) })

/-- A value converted to a floating-point format (Table 05-3). -/
def encodeFloat (f : FloatFmt) (mode : Rounding) (sat : Bool) (v : Val) : Nat × Exc :=
  match v with
  | .nan _ => (f.nanCode.getD 0, {})
  | .inf neg =>
    if f.ieee then
      (if sat then signBit f neg + f.maxCode else signBit f neg + (2 ^ f.eb - 1) * 2 ^ f.mb, {})
    else (overflowCode f neg sat, { overflow := true })
  | .fin neg mag exp => encodeFinite f mode sat neg mag exp

/-- A value converted to a two's-complement format of `w` bits: nearest even, clamped; a NaN gives 0 and IV. A nonzero value
that rounds to zero sets NX alone (DESIGN CHOICE, log 112). -/
def encodeInt (w : Nat) (v : Val) : Nat × Exc :=
  let hi : Int := 2 ^ (w - 1) - 1
  let lo : Int := -(2 ^ (w - 1))
  match v with
  | .nan _ => (0, { iv := true })
  | .inf neg => (wrapTo w (if neg then lo else hi), { overflow := true })
  | .fin neg mag exp =>
    let r := roundNearest mag exp 0
    let i : Int := if neg then -(r.1 : Int) else r.1
    if hi < i then (wrapTo w hi, { overflow := true })
    else if i < lo then (wrapTo w lo, { overflow := true })
    else (wrapTo w i, { nx := r.2 })

/-- A value converted to any element format. -/
def encodeElem (fmt : Nat) (mode : Rounding) (sat : Bool) (v : Val) : Nat × Exc :=
  match floatFmt fmt with
  | some f => encodeFloat f mode sat v
  | none => encodeInt ((intBits fmt).getD 32) v

/-! ### Exact arithmetic -/

/-- The signed mantissa of a finite value at exponent `q`, at most its own. -/
def mantAt (neg : Bool) (mag : Nat) (exp q : Int) : Int :=
  let m : Int := (mag : Int) * 2 ^ (exp - q).toNat
  if neg then -m else m

/-- The sum of two values; a zero sum is −0 only when both are negative zeros (IEEE 754, nearest even). -/
def addVal (a b : Val) : Val × Bool :=
  match a, b with
  | .nan x, .nan y => (.nan false, x || y)
  | .nan x, _ => (.nan false, x)
  | _, .nan y => (.nan false, y)
  | .inf x, .inf y => if x = y then (.inf x, false) else (.nan false, true)
  | .inf x, _ => (.inf x, false)
  | _, .inf y => (.inf y, false)
  | .fin na ma ea, .fin nb mb eb =>
    let q := if ea < eb then ea else eb
    let m := mantAt na ma ea q + mantAt nb mb eb q
    if m = 0 then (.fin (na && nb && ma == 0 && mb == 0) 0 q, false)
    else (.fin (decide (m < 0)) m.natAbs q, false)

/-- The product of two values; infinity times zero is invalid. -/
def mulVal (a b : Val) : Val × Bool :=
  match a, b with
  | .nan x, .nan y => (.nan false, x || y)
  | .nan x, _ => (.nan false, x)
  | _, .nan y => (.nan false, y)
  | .inf x, .inf y => (.inf (xor x y), false)
  | .inf x, .fin y m _ => if m = 0 then (.nan false, true) else (.inf (xor x y), false)
  | .fin y m _, .inf x => if m = 0 then (.nan false, true) else (.inf (xor x y), false)
  | .fin na ma ea, .fin nb mb eb => (.fin (xor na nb) (ma * mb) (ea + eb), false)

/-- The value with its sign changed. -/
def negVal : Val → Val
  | .nan x => .nan x
  | .inf n => .inf (!n)
  | .fin n m e => .fin (!n) m e

/-- The value times 2^k. -/
def scaleVal (v : Val) (k : Int) : Val :=
  match v with
  | .fin n m e => .fin n m (e + k)
  | w => w

def isNan : Val → Bool
  | .nan _ => true
  | _ => false

def isInf : Val → Bool
  | .inf _ => true
  | _ => false

/-- Whether a value is ±0. -/
def isZero : Val → Bool
  | .fin _ m _ => m == 0
  | _ => false

/-- a < b with −0 < +0 (R90, Table 04-7); NaN compares with nothing. -/
def ltVal (a b : Val) : Bool :=
  match a, b with
  | .nan _, _ => false
  | _, .nan _ => false
  | .inf x, .inf y => x && !y
  | .inf x, .fin _ _ _ => x
  | .fin _ _ _, .inf y => !y
  | .fin na ma ea, .fin nb mb eb =>
    let q := if ea < eb then ea else eb
    let x := mantAt na ma ea q
    let y := mantAt nb mb eb q
    decide (x < y) || (decide (x = 0) && decide (y = 0) && na && !nb)

/-! ### FP32 operations of IEEE 754 with round to nearest even -/

/-- The value of an FP32 word. -/
def valOf (w : Word) : Val := decodeFloat fmtFp32 w.toNat

/-- A value rounded to FP32, nearest even, overflowing to an infinity. -/
def toFp32 (v : Val) : Word × Exc :=
  let r := encodeFloat fmtFp32 .nearest false v
  (BitVec.ofNat 32 r.1, r.2)

/-- The default NaN of FP32 (R144). -/
def defaultNan : Word := 0x7FC00000

def fp32Add (a b : Word) : Word × Exc :=
  let r := addVal (valOf a) (valOf b)
  let e := toFp32 r.1
  (e.1, excOr e.2 { iv := r.2 })

def fp32Mul (a b : Word) : Word × Exc :=
  let r := mulVal (valOf a) (valOf b)
  let e := toFp32 r.1
  (e.1, excOr e.2 { iv := r.2 })

def fp32Neg (a : Word) : Word := a ^^^ 0x80000000

/-- a × b + c with one rounding. -/
def fp32Fma (a b c : Word) : Word × Exc :=
  let p := mulVal (valOf a) (valOf b)
  let r := addVal p.1 (valOf c)
  let e := toFp32 r.1
  (e.1, excOr e.2 { iv := p.2 || r.2 })

/-- Whether a word is a signalling NaN. -/
def isSnan (w : Word) : Bool :=
  match valOf w with
  | .nan x => x
  | _ => false

/-- The larger (or smaller) operand; NaN when either is NaN; −0 < +0. -/
def fp32Max (a b : Word) : Word × Exc :=
  if isNan (valOf a) || isNan (valOf b) then (defaultNan, { iv := isSnan a || isSnan b })
  else (if ltVal (valOf a) (valOf b) then b else a, {})

def fp32Min (a b : Word) : Word × Exc :=
  if isNan (valOf a) || isNan (valOf b) then (defaultNan, { iv := isSnan a || isSnan b })
  else (if ltVal (valOf b) (valOf a) then b else a, {})

/-! ### Bounded-accuracy functions (Table 04-7, R134): fixed point with 192 fraction bits -/

/-- Fraction bits of the fixed-point working precision. -/
def fxBits : Nat := 192

/-- The natural logarithm of 2 with 192 fraction bits. -/
def fxLn2 : Nat := 4350955369971217654477563090224794165364344896676135745069

/-- The constant √(2/π) with 192 fraction bits. -/
def fxSqrt2OverPi : Nat := 5008402561253905729789098622498677126536126712276965002673

/-- e^r for 0 ≤ r < 1 in fixed point: the Taylor series with 64 terms, by Horner's rule. -/
def fxExpSeries (r : Int) : Nat → Int → Int
  | 0, acc => acc
  | k + 1, acc => fxExpSeries r k (2 ^ fxBits + acc * r / ((k + 1 : Nat) * 2 ^ fxBits))

/-- e^x for a fixed-point x, as a fixed-point mantissa and a power of two. -/
def fxExp (x : Int) : Int × Int :=
  let k := x / (fxLn2 : Int)
  let r := x - k * fxLn2
  (fxExpSeries r 64 (2 ^ fxBits), k)

/-- A finite value in fixed point (bits below 2^−192 dropped). -/
def toFx (neg : Bool) (mag : Nat) (exp : Int) : Int :=
  let e := exp + fxBits
  let m : Int := if 0 ≤ e then (mag : Int) * 2 ^ e.toNat else (mag : Int) / 2 ^ (-e).toNat
  if neg then -m else m

/-- The exact (to 2^−128 and better, relative) value of e^x as a finite value, for |x| < 1,024. -/
def expVal (neg : Bool) (mag : Nat) (exp : Int) : Val :=
  let r := fxExp (toFx neg mag exp)
  .fin false r.1.natAbs (r.2 - fxBits)

/-- x / (1 + e^(−y)) with y in fixed point: the sigmoid form of SiLU and of the tanh form of GELU. -/
def sigmoidVal (neg : Bool) (mag : Nat) (exp : Int) (y : Int) : Val :=
  let r := fxExp (-y)
  let den : Int := if 0 ≤ r.2 then 2 ^ fxBits + r.1 * 2 ^ r.2.toNat else 2 ^ fxBits + r.1 / 2 ^ (-r.2).toNat
  .fin neg ((mag : Int) * 2 ^ (12 * fxBits) / den).natAbs (exp - 11 * fxBits)

/-- Whether a candidate lies within `k` units in the last place of a true finite value (its own format FP32). -/
def withinUlps (k : Nat) (cand : Word) (v : Val) : Bool :=
  match v, valOf cand with
  | .fin n m e, .fin nc mc ec =>
    if m = 0 then mc == 0
    else
      let q := lsbExp fmtFp32 m e
      let lo := if e < ec then e else ec
      let lo := if lo < q then lo else q
      let d := (mantAt n m e lo - mantAt nc mc ec lo).natAbs
      decide (d ≤ k * 2 ^ (q - lo).toNat)
  | _, _ => false

/-- A result known only within `k` ulp of the true value: the free candidate when it lies within the bound, else the
correctly rounded value (log 13). An overflow of the true value gives the IEEE default result. -/
def boundedResult (k : Nat) (cand : Word) (v : Val) : Word × Exc :=
  let r := toFp32 v
  if r.2.overflow then r
  else if withinUlps k cand v then (cand, r.2) else r

/-- e^x within `k` ulp; a result below the smallest subnormal gives +0 with UF. -/
def expWithin (k : Nat) (cand x : Word) : Word × Exc :=
  match valOf x with
  | .nan sg => (defaultNan, { iv := sg })
  | .inf true => (0, {})
  | .inf false => (0x7F800000, {})
  | .fin neg mag exp =>
    if 10 ≤ leadExp mag exp ∧ mag ≠ 0 then
      if neg then (0, { uf := true, nx := true }) else toFp32 (.fin false 1 400)
    else
      match expVal neg mag exp with
      | .fin sg m e =>
        if leadExp m e < -149 then (0, { uf := true, nx := true })
        else boundedResult k cand (.fin sg m e)
      | v => toFp32 v

/-- EXP: within 2 ulp. -/
def vecExp (x : Word) : Word × Exc := expWithin 2 (Config.vecExp x) x

/-- RCP: 1 / x within `k` ulp; ±0 gives ±∞ and sets DZ. -/
def vecRcp (k : Nat) (x : Word) : Word × Exc :=
  match valOf x with
  | .nan sg => (defaultNan, { iv := sg })
  | .inf neg => (if neg then 0x80000000 else 0, {})
  | .fin neg mag exp =>
    if mag = 0 then (if neg then 0xFF800000 else 0x7F800000, { dz := true })
    else
      boundedResult k (Config.vecRcp x) (.fin neg (2 ^ 320 / mag) (-320 - exp))

/-- 1 / √x within `k` ulp; +0 gives +∞ and sets DZ; x < 0 gives NaN and sets IV (Table 04-7). A −0 gives −∞ with
DZ, as IEEE 754 gives its reciprocal square root. -/
def rsqrtWithin (k : Nat) (cand x : Word) : Word × Exc :=
  match valOf x with
  | .nan sg => (defaultNan, { iv := sg })
  | .inf true => (defaultNan, { iv := true })
  | .inf false => (0, {})
  | .fin neg mag exp =>
    if mag = 0 then (if neg then 0xFF800000 else 0x7F800000, { dz := true })
    else if neg then (defaultNan, { iv := true })
    else
      let h := (exp - (exp % 2)) / 2
      let m := if exp % 2 = 0 then mag else 2 * mag
      boundedResult k cand (.fin false (Nat.sqrt (2 ^ 512 / m)) (-256 - h))

/-- RSQRT: within 1 ulp. -/
def vecRsqrt (x : Word) : Word × Exc := rsqrtWithin 1 (Config.vecRsqrt x) x

/-- SILU: x · sigmoid(x) within 4 ulp. -/
def vecSilu (x : Word) : Word × Exc :=
  match valOf x with
  | .nan sg => (defaultNan, { iv := sg })
  | .inf true => (0x80000000, {})
  | .inf false => (0x7F800000, {})
  | .fin neg mag exp =>
    if mag = 0 then (x, {})
    else if 10 ≤ leadExp mag exp then
      if neg then boundedResult 4 (Config.vecSilu x) (.fin true 1 (-400)) else boundedResult 4 (Config.vecSilu x) (valOf x)
    else boundedResult 4 (Config.vecSilu x) (sigmoidVal neg mag exp (toFx neg mag exp))

/-- GELU in its tanh form within 4 ulp: x · sigmoid(2√(2/π)(x + 0.044715 x³)). -/
def vecGelu (x : Word) : Word × Exc :=
  match valOf x with
  | .nan sg => (defaultNan, { iv := sg })
  | .inf true => (0x80000000, {})
  | .inf false => (0x7F800000, {})
  | .fin neg mag exp =>
    if mag = 0 then (x, {})
    else if 4 ≤ leadExp mag exp then
      if neg then boundedResult 4 (Config.vecGelu x) (.fin true 1 (-400)) else boundedResult 4 (Config.vecGelu x) (valOf x)
    else
      let f := toFx neg mag exp
      let cube := f * f * f / 2 ^ (2 * fxBits)
      let t := f + cube * 44715 / 1000000
      boundedResult 4 (Config.vecGelu x) (sigmoidVal neg mag exp (2 * t * fxSqrt2OverPi / 2 ^ fxBits))

end Sys2Proof.Machine
end

