-- ==== Sys2Proof/Machine/Ops.lean ====
section
/-!
DEFINITION. Named operations over the state: units by number, local counters, the capacity report's causes
(spec/17 R513), MSI-X (spec/11 R305, R311), packets and their answers, error records (spec/17 R494 to R502), memory
bytes, tags and check blocks (spec/02 R66 to R78), and the ECC of each store with what a finding entails
(spec/07 R195 to R200, R210; spec/09 R253 to R255; spec/04 R138; spec/03 R81).
-/
namespace Sys2Proof.Machine

/-! ### Status codes (Table 12-2) -/

abbrev stOk : Nat := 0x0000
abbrev stAlreadyDone : Nat := 0x0001
abbrev stAborted : Nat := 0x0010
abbrev stBusy : Nat := 0x0011
abbrev stInReset : Nat := 0x0012
abbrev stNoPage : Nat := 0x0013
abbrev stNoSpace : Nat := 0x0014
abbrev stThermal : Nat := 0x0015
abbrev stBadPacket : Nat := 0x0020
abbrev stBadAddress : Nat := 0x0021
abbrev stBadSignature : Nat := 0x0022
abbrev stWrongFamily : Nat := 0x0023
abbrev stNotLicensed : Nat := 0x0024
abbrev stMode : Nat := 0x0025
abbrev stState : Nat := 0x0026
abbrev stRollback : Nat := 0x0027
abbrev stCheckFail : Nat := 0x0030
abbrev stPoison : Nat := 0x0031
abbrev stHostDma : Nat := 0x0032
abbrev stDegraded : Nat := 0x0040
abbrev stTopology : Nat := 0x0041

/-! ### Units by number -/

def getCore (s : State) (c : Nat) : Core := tget s.cores c
def modCore (s : State) (c : Nat) (f : Core → Core) : State := { s with cores := tmod s.cores c f }
def getChan (s : State) (c : Nat) : Chan := tget s.chans c
def modChan (s : State) (c : Nat) (f : Chan → Chan) : State := { s with chans := tmod s.chans c f }
def getRegion (s : State) (r : Nat) : Region := tget s.regions r
def modRegion (s : State) (r : Nat) (f : Region → Region) : State := { s with regions := tmod s.regions r f }
def getPc (s : State) (n : Nat) : FarPc := tget s.pcs n
def modPc (s : State) (n : Nat) (f : FarPc → FarPc) : State := { s with pcs := tmod s.pcs n f }
def modStack (s : State) (n : Nat) (f : Stack → Stack) : State := { s with hbmStacks := tmod s.hbmStacks n f }
def modDie (s : State) (d : Nat) (f : Die → Die) : State := { s with dies := tmod s.dies d f }
def getPort (s : State) (p : Nat) : EwPort := tget s.ports p
def modPort (s : State) (p : Nat) (f : EwPort → EwPort) : State := { s with ports := tmod s.ports p f }
/-- The layer of a near channel (Table 01-9: one instance for each layer of each stack). -/
def layerKey (ch : Nat) : Nat := ch / 16384 * 8 + ch % 8
def layerOf (s : State) (ch : Nat) : MLayer := tget s.layers (layerKey ch)
def getSlot (s : State) (n : Nat) : ModelSlot := tget s.slots n
def modSlot (s : State) (n : Nat) (f : ModelSlot → ModelSlot) : State := { s with slots := tmod s.slots n f }
def getSeq (s : State) (n : Nat) : Seq := tget s.seqs n
def modSeq (s : State) (n : Nat) (f : Seq → Seq) : State := { s with seqs := tmod s.seqs n f }
def modSq (s : State) (q : Nat) (f : Sq → Sq) : State := { s with sqs := tmod s.sqs q f }
def modCq (s : State) (q : Nat) (f : Cq → Cq) : State := { s with cqs := tmod s.cqs q f }
def modLink (s : State) (l : Nat) (f : WeftLink → WeftLink) : State :=
  { s with weft := { s.weft with links := tmod s.weft.links l f } }

/-- The region of a core (R27): identifier bits [12:9]. -/
def regionOfCore (core : Nat) : Nat := core / 512

/-- The C-die of a core (R27): identifier bits [12:11]. -/
def dieOfCore (core : Nat) : Nat := core / 2048

/-- The local counter of a die: 0 to 3 for the C-dies, 4 for H (R64). -/
def counterOf (s : State) (die : Nat) : Nat := (tget s.counters die).toNat

/-- Counts since an earlier value of a 48-bit local counter. -/
def since (now stamp : Nat) : Nat := (now + 2 ^ 48 - stamp) % 2 ^ 48

/-- Counts of a local counter in a second: edges of the 100 MHz reference (R64). -/
def countsPerSecond : Nat := 100000000

/-- Whether H's clocks run: the trip of its comparator stops all but the configuration logic's (R455), and without the
reference none runs (R523). -/
def hubRuns (s : State) : Bool := !(tget s.dies 4).clocksStopped && !s.pins.refclkLost

/-- Take a fresh free value: the counter advances (log 11). -/
def drawFree (s : State) : State := { s with free := s.free + 1 }

/-! ### Degraded states (R513): raised and cleared here, shown by CAPACITY_REPORT_UPDATE -/

/-- A list entry of Table 17-12: KIND and ITEM. -/
def listEntry (kind item : Nat) : Word64 := BitVec.ofNat 64 (kind + item * 65536)

/-- A degraded state begins: its CAUSES bit, and its list entry where Table 17-12 gives one. -/
def degrade (s : State) (bit : Nat) (entry : Option Word64) : State :=
  { s with capacity := { s.capacity with
      pendingSet := s.capacity.pendingSet ++ [(bit, entry)]
      pendingClear := s.capacity.pendingClear.filter (fun e => e != (bit, entry)) } }

/-- A degraded state ends. -/
def undegrade (s : State) (bit : Nat) (entry : Option Word64) : State :=
  { s with capacity := { s.capacity with
      pendingClear := s.capacity.pendingClear ++ [(bit, entry)]
      pendingSet := s.capacity.pendingSet.filter (fun e => e != (bit, entry)) } }

/-! ### PCIe transmit -/

/-- Whether the device may send requests to the host (R305). -/
def hostOpen (s : State) : Bool := !s.pcie.d3hot && s.pcie.busMaster

/-- Send a posted request now, or hold it in order until D0 with Bus Master Enable (R305). -/
def sendHost (s : State) (t : PcieTx) : State :=
  if hostOpen s then { s with pcie := { s.pcie with tx := s.pcie.tx ++ [t] } }
  else { s with pcie := { s.pcie with held := s.pcie.held ++ [t] } }

/-- Whether a vector's message may be sent: MSI-X is enabled, and neither the function nor the vector is masked (R311). -/
def vectorOpen (s : State) (v : Nat) : Bool := s.pcie.msixEnable && !s.pcie.msixMaskAll && s.pcie.msixUnmasked.contains v

/-- Send an MSI-X vector, or set its pending bit while it is masked (R311). -/
def sendVector (s : State) (v : Nat) : State :=
  if vectorOpen s v then sendHost s (.msix v)
  else { s with pcie := { s.pcie with
      msixPending := if s.pcie.msixPending.contains v then s.pcie.msixPending else s.pcie.msixPending ++ [v] } }

/-- Data written to the host, in order and with Relaxed Ordering (R324); poisoned blocks leave poisoned (R76). -/
def hostWrite (s : State) (addr : Nat) (data : Bytes) (poisoned : Bool) : State :=
  if data.isEmpty then s else sendHost s (.memWrite addr data poisoned true)

/-- The data of a completed host read (R11, R306). -/
def hostRead (s : State) (data : Bytes) (poisoned : Bool := false) : State :=
  { s with pcie := { s.pcie with tx := s.pcie.tx ++ [.completion data poisoned] } }

/-! ### Packets in flight -/

/-- The packet in flight with an identifier. -/
def getPacket (s : State) (p : Nat) : Option Packet := firstThat (fun k => k.id == p) s.packets

/-- Change a packet in flight. -/
def modPacket (s : State) (p : Nat) (f : Packet → Packet) : State :=
  { s with packets := modFirst (fun k => k.id == p) f s.packets }

/-- A command reaches its answer: STATUS and RESULT, padded to 16 bytes (R322). The first answer stands (R337). -/
def finish (s : State) (p status : Nat) (result : Bytes) : State :=
  modPacket s p (fun k => match k.answer with
    | none => { k with answer := some { status := status, result := padTo 16 result } }
    | some _ => k)

/-- RESULT in the failure layout (Table 12-1): DETAIL, UNDEFINED, PROGRESS. -/
def failResult (detail undef progress : Nat) : Bytes := toBytes 4 detail ++ toBytes 4 undef ++ toBytes 8 progress

/-- A command fails with a status in the failure layout (R328). -/
def fail (s : State) (p status : Nat) (detail : Nat := 0) (undef : Nat := 0) (progress : Nat := 0) : State :=
  finish s p status (failResult detail undef progress)

/-- A command has begun and waits for its completion point (R336). -/
def markStarted (s : State) (p : Nat) : State := modPacket s p (fun k => { k with started := true })

/-! ### Model slots that lose a datum -/

/-- The data of the first kept section of a type (R341, Table 06-3). -/
def sectionData (sl : ModelSlot) (type : Nat) : Bytes :=
  match firstThat (fun k => k.type == type) sl.kept with
  | some k => k.data
  | none => []

/-- The role of weave core `w` in the kept ROLE_MAP (R162); 0xFF runs no program. -/
def roleOfWeaveCore (sl : ModelSlot) (w : Nat) : Nat := fieldAt (sectionData sl 2) (16 + w) 1

/-- The ordinal of a device block in a weave. -/
def ordinalOf : List Nat → Nat → Option Nat
  | [], _ => none
  | b :: t, x => if b = x then some 0 else (ordinalOf t x).map (· + 1)

/-- The role that a slot's weave gives a device core; none where the core is outside the weave or runs no program. -/
def roleOfCore (sl : ModelSlot) (core : Nat) : Option Nat :=
  match ordinalOf sl.weave (core / 64) with
  | none => none
  | some o => let r := roleOfWeaveCore sl (o * 64 + core % 64); if r = 0xFF then none else some r

/-- Whether the slot holds near tiles on a core. -/
def tileOnCore (sl : ModelSlot) (core : Nat) : Bool := sl.tiles.any (fun t => t.kind != 3 && t.core == core)

/-- The slot becomes RELOAD (R340): the report lists it, and pending steps of its sequences that are in no batch
return ST_STATE with the tokens committed in PROGRESS (R346). -/
def reloadSlot (s : State) (n : Nat) : State :=
  let sl := getSlot s n
  if sl.phase = .loaded ∨ sl.phase = .placed ∨ sl.phase = .busy then
    let s1 := degrade (modSlot s n (fun x => { x with phase := .reload })) 23 (some (listEntry 0x0D n))
    (List.range 4096).foldl (fun t q =>
      let e := getSeq t q
      if e.phase != .free && e.modelSlot == n && e.phase != .batched then
        match e.pending with
        | none => t
        | some c => modSeq (fail t c.packet stState 0 0 c.done) q (fun x => { x with pending := none })
      else t) s1
  else s

/-- Every slot that satisfies a test becomes RELOAD. -/
def reloadSlots (s : State) (p : ModelSlot → Bool) : State :=
  s.slots.foldl (fun t e => if p e.2 then reloadSlot t e.1 else t) s

/-! ### Memory bytes -/

/-- The byte that a sorted list of cells gives an address; an unlisted address holds 0. -/
def cellByte : List Host.Cell → Nat → Byte
  | [], _ => 0
  | (k, v) :: t, a => if k = a then v else cellByte t a

/-- Drop the cell of an address. -/
def cellErase : List Host.Cell → Nat → List Host.Cell
  | [], _ => []
  | (k, v) :: t, a => if k = a then cellErase t a else (k, v) :: cellErase t a

/-- Insert a cell at its place, replacing the one of the same address. -/
def cellInsert : List Host.Cell → Nat → Byte → List Host.Cell
  | [], a, b => [(a, b)]
  | (k, v) :: t, a, b =>
    if a < k then (a, b) :: (k, v) :: t
    else if a = k then (a, b) :: t
    else (k, v) :: cellInsert t a b

/-- Write one byte, keeping the canonical form. -/
def cellPut (l : List Host.Cell) (a : Nat) (b : Byte) : List Host.Cell :=
  if b = 0 then cellErase l a else cellInsert l a b

/-- Write bytes at ascending addresses. -/
def cellPutAll : List Host.Cell → Nat → Bytes → List Host.Cell
  | l, _, [] => l
  | l, a, b :: t => cellPutAll (cellPut l a b) (a + 1) t

/-- Addresses strictly rising, above a bound, and no zero byte listed. -/
def cellsWf : Nat → List Host.Cell → Bool
  | _, [] => true
  | lo, (k, v) :: t => decide (lo ≤ k) && decide (v ≠ 0) && cellsWf (k + 1) t

/-- Block numbers strictly rising, above a bound, and no tag of the zero block listed. -/
def tagsWf : Nat → Table Tag → Bool
  | _, [] => true
  | lo, (k, v) :: t => decide (lo ≤ k) && decide (v ≠ default) && tagsWf (k + 1) t

/-- Memory is in its one canonical form. -/
def Memory.wf (m : Memory) : Bool := cellsWf 0 m.cells && tagsWf 0 m.tags

/-- The byte at a device address. -/
def readByte (m : Memory) (a : Nat) : Byte := cellByte m.cells a

/-- `n` bytes from a device address on. -/
def readBytes (m : Memory) (a n : Nat) : Bytes := (List.range n).map (fun i => readByte m (a + i))

/-- Write bytes; tags stay. -/
def writeBytes (m : Memory) (a : Nat) (b : Bytes) : Memory := { m with cells := cellPutAll m.cells a b }

/-- Zero a range of `n` bytes and give its blocks the fresh tag of a zero block, RESTARTED 1 (R69: zero fill). -/
def zeroFill (m : Memory) (a n : Nat) : Memory :=
  { cells := m.cells.filter (fun c => decide (c.1 < a) || decide (a + n ≤ c.1))
    tags := m.tags.filter (fun t => decide (t.1 < a / 256) || decide ((a + n + 255) / 256 ≤ t.1)) }

/-- The tag of a check block. -/
def tagOf (m : Memory) (blk : Nat) : Tag := tget m.tags blk

/-- Set the tag of a check block. -/
def setTag (m : Memory) (blk : Nat) (t : Tag) : Memory := { m with tags := tset m.tags blk t }

/-- The stored value of a block's bytes with a RESTARTED flag (R68). -/
def storedValue (data : Bytes) (restarted : Bool) : Word :=
  BitVec.ofNat 32 (if restarted then 0xFFFFFFFF - crc32c data else crc32c data)

/-- What a stored value says of a block's bytes (R68): none when neither match, else the RESTARTED flag. -/
def checkStored (data : Bytes) (stored : Word) : Option Bool :=
  let c := crc32c data
  if stored.toNat = c then some false
  else if stored.toNat = 0xFFFFFFFF - c then some true
  else none

/-- Whether a check block lies in far memory (Table 02-1). -/
def isFar (blk : Nat) : Bool := decide (0x80000000 ≤ blk) && decide (blk < 0xE0000000)

/-- The stored value that marks a far block POISON (R252). -/
def farPoison (data : Bytes) : Word := BitVec.ofNat 32 (crc32c data) ^^^ 0x5A5A5A5A

/-- The tag that is kept with a block's bytes (Table 02-5): a far block's poison is its stored value (R252). -/
def makeTag (blk : Nat) (data : Bytes) (restarted poison : Bool) : Tag :=
  { stored := if poison && isFar blk then farPoison data else storedValue data restarted
    restarted := restarted, poison := poison }

/-- What a block's kept tag says of its bytes (R68, R199, R252): POISON and RESTARTED, or none where the check fails. A
poisoned near, Warp Beam or core-store block is not compared; RESTARTED is the flag last stored (log 102). -/
def checkTag (blk : Nat) (data : Bytes) (t : Tag) : Option (Bool × Bool) :=
  if isFar blk then
    if t.stored = farPoison data then some (true, t.restarted) else (checkStored data t.stored).map (fun r => (false, r))
  else if t.poison then some (true, t.restarted)
  else (checkStored data t.stored).map (fun r => (false, r))

/-! ### The sequence table as memory (R264) -/

/-- The device address of the sequence table: Warp Beam partition 4 (Table 03-2). -/
def seqTableBase : Nat := 0xE01EC00000

/-- The key of a page-table entry: sequence, layer, head group, whether a swatch leaf, page. -/
def pteKey (seq layer hgroup : Nat) (swatch : Bool) (page : Nat) : Nat :=
  (((seq * 256 + layer) * 256 + hgroup) * 2 + b2n swatch) * 1048576 + page

/-- The sequence of a page-table entry's key. -/
def pteSeq (key : Nat) : Nat := key / (1048576 * 2 * 256 * 256)

/-- Whether a key lies in a swatch leaf. -/
def pteSwatch (key : Nat) : Bool := key / 1048576 % 2 == 1

/-- The key of a frame-table entry by frame number (R272). -/
def frameKey (fn : Nat) : Nat :=
  if bitOf fn 25 then bitsOf fn 24 21 * 4194304 + 2097152 + bitsOf fn 20 0
  else bitsOf fn 24 21 * 4194304 + bitsOf fn 20 0

/-- The number of a sequence's KV pages that satisfy a test on the PTE. -/
def countPages (s : State) (seq : Nat) (p : Pte → Bool) : Nat :=
  (s.ptes.filter (fun e => pteSeq e.1 == seq && !pteSwatch e.1 && p e.2)).length

/-- Code of a sequence state (Table 10-2). -/
def seqPhaseCode : SeqPhase → Nat
  | .free => 0
  | .opened => 1
  | .batched => 2
  | .parked => 3
  | .closing => 4

/-- FLAGS of a sequence-table entry (Table 10-1). -/
def seqFlags (e : Seq) : Nat :=
  b2n e.retrieval + 2 * b2n e.recomputeDue + 4 * b2n e.parkedNoPage + 8 * b2n e.parkedHost + 16 * b2n e.lost

/-- The 256 bytes of a sequence-table entry (Table 10-1). -/
def seqEntryBytes (s : State) (n : Nat) : Bytes :=
  let e := getSeq s n
  padTo 256 (toBytes 1 (seqPhaseCode e.phase) ++ toBytes 1 (b2n e.privileged) ++ toBytes 2 e.modelSlot
    ++ toBytes 4 e.length ++ toBytes 4 e.maxLength ++ toBytes 1 e.priority ++ toBytes 1 e.bucket
    ++ toBytes 1 e.homeRegion ++ toBytes 1 (seqFlags e) ++ toBytes 8 e.ptRoot ++ toBytes 8 e.tokenLog
    ++ toBytes 2 e.parent ++ toBytes 2 0 ++ toBytes 4 e.forkPoint
    ++ toBytes 4 (countPages s n (fun t => t.state == .present || t.state == .recomputing))
    ++ toBytes 4 (countPages s n (fun t => t.state == .absent))
    ++ toBytes 4 (countPages s n (fun t => t.state == .present && decide (1 < (tget s.frames (frameKey t.fn)).refcount)))
    ++ toBytes 4 e.lastBatch ++ toBytes 4 e.reservedFrames ++ toBytes 4 e.steps)

/-- Whether a check block lies in the sequence table. -/
def inSeqTable (blk : Nat) : Bool := decide (seqTableBase / 256 ≤ blk) && decide (blk < seqTableBase / 256 + 4096)

/-- The 256 bytes of a check block as it is stored. -/
def blockBytes (s : State) (blk : Nat) : Bytes :=
  if inSeqTable blk then seqEntryBytes s (blk - seqTableBase / 256)
  else readBytes s.mem (blk * 256) 256

/-! ### Frames of the page services (R274, R278, R282) -/

/-- The region whose page service serves a frame. -/
def frameRegion (fn : Nat) : Nat := bitsOf fn 24 21

def frameOf (s : State) (fn : Nat) : Frame := tget s.frames (frameKey fn)
def modFrame (s : State) (fn : Nat) (f : Frame → Frame) : State := { s with frames := tmod s.frames (frameKey fn) f }

/-- A sequence leaves PARKED for want of a page; PARKED_HOST keeps it parked. -/
def unparkPage (e : Seq) : Seq :=
  { e with parkedNoPage := false, phase := if e.parkedHost then e.phase else .opened }

/-- A page service returns a frame to FREE: the oldest sequence parked there returns to OPEN (R282). -/
def unparkOldest (s : State) (region : Nat) : State :=
  let l := s.seqs.filter (fun e => e.2.phase == .parked && e.2.parkedNoPage && e.2.parkRegion == region)
  match sortBy (fun a b => decide (a.2.parkOrder ≤ b.2.parkOrder)) l with
  | [] => s
  | e :: _ => modSeq s e.1 unparkPage

/-- The frame is no longer allocated. -/
def eraseFrame (s : State) (fn : Nat) : State :=
  let s1 : State := { s with frames := terase s.frames (frameKey fn) }
  if bitOf fn 25 then
    modRegion s1 (frameRegion fn) (fun r => { r with pool := allocErase r.pool (bitsOf fn 20 0 * 16384) })
  else s1

/-- The frame returns to FREE. -/
def freeFrame (s : State) (fn : Nat) : State := unparkOldest (eraseFrame s fn) (frameRegion fn)

/-! ### Error records (R494 to R502) -/

/-- CLASS of a record (R495). -/
inductive RecClass where
  | corrected | contained | regionFatal | deviceFatal
deriving DecidableEq, Repr

/-- Code of a CLASS (Table 17-1). -/
def recClassCode : RecClass → Nat
  | .corrected => 0
  | .contained => 1
  | .regionFatal => 2
  | .deviceFatal => 3

/-- What a record says beside its source's counters: CODE, LEVEL, CLASS, SOURCE, ADDRESS, DETAIL, STATUS. -/
structure Rec where
  code : Nat
  level : Nat
  cls : RecClass
  kind : Nat
  unit : Nat
  addr : Nat := 0
  detail : Nat := 0
  status : Nat := 0
deriving DecidableEq, Repr

/-- The die whose local counter a source reads (R64, Table 17-2): 0 to 3 for C-dies, 4 for H. -/
def sourceDie (kind unit : Nat) : Nat :=
  match kind with
  | 0 => unit / 2048
  | 1 => unit / 16384
  | 2 => unit / 32
  | 3 => unit / 4
  | 4 => unit / 4
  | 5 => unit / 128
  | 6 => unit
  | _ => 4

/-- The key of a source's sequence numbers; a worker's records take the manager's own (Table 17-2, KIND 0xA). -/
def sourceKey (kind unit : Nat) : Nat := if kind = 0xA then 7 * 1048576 else kind * 1048576 + unit

/-- The 32 bytes of a record (Table 17-1). -/
def recBytes (r : Rec) (counter seq suppressed : Nat) : Bytes :=
  toBytes 2 r.code ++ toBytes 1 (r.level + 4 * recClassCode r.cls) ++ toBytes 3 (r.kind * 1048576 + r.unit)
    ++ toBytes 6 counter ++ toBytes 4 seq ++ toBytes 8 r.addr ++ toBytes 4 r.detail ++ toBytes 2 r.status
    ++ toBytes 2 (Nat.min suppressed 0xFFFF)

/-- Partition 5 of the Warp Beam: the error ring; partition 6: the telemetry ring (Table 03-2). -/
def errRingBase : Nat := 0xE01ED00000
def tlmRingBase : Nat := 0xE01EE00000

/-- Whether a block's bytes pass the check as they are stored. -/
def blockSound (m : Memory) (blk : Nat) : Bool := (checkTag blk (readBytes m (blk * 256) 256) (tagOf m blk)).isSome

/-- Bytes that a device unit composes and writes inside one check block: merged under R70 with RESTARTED 1 (R69); a part of
a block that is poisoned, or whose old bytes fail their check, leaves it poisoned (R73, R77). -/
def composeInBlock (m : Memory) (a : Nat) (b : Bytes) : Memory :=
  let blk := a / 256
  let new := overlay (readBytes m (blk * 256) 256) (a % 256) b
  let poison := decide (b.length < 256) && ((tagOf m blk).poison || !blockSound m blk)
  setTag (writeBytes m a b) blk (makeTag blk new true poison)

/-- Composed bytes over any number of blocks. -/
def composeBytes : Nat → Memory → Nat → Bytes → Memory
  | 0, m, _, _ => m
  | fuel + 1, m, a, b =>
    if b.isEmpty then m
    else
      let n := 256 - a % 256
      composeBytes fuel (composeInBlock m a (b.take n)) (a + n) (b.drop n)

/-- Composed bytes written by a device unit (R69, last row of Table 02-6). -/
def compose (m : Memory) (a : Nat) (b : Bytes) : Memory := composeBytes (b.length / 256 + 2) m a b

/-- A record goes to the ring unless it is full, with vector 1 under R502; before the ring exists it is kept for it. -/
def ringRecord (s : State) (cls : RecClass) (b : Bytes) : State :=
  let e := s.errors
  if !e.ringUp then { s with errors := { e with early := e.early ++ [b] } }
  else if (e.tail - e.head).toNat = 32768 then { s with errors := { e with dropped := satAdd e.dropped 1 } }
  else
    let s1 : State := { s with
      mem := compose s.mem (errRingBase + e.tail.toNat % 32768 * 32) b
      errors := { e with tail := e.tail + 1, unsignalled := e.unsignalled + 1 } }
    if cls ≠ .corrected ∨ Nat.max 1 (bitsOf e.irq.toNat 7 0) ≤ s1.errors.unsignalled then
      sendVector { s1 with errors := { s1.errors with unsignalled := 0 } } 1
    else s1

/-- A record enters the management core's log, which keeps the most recent 8,192 (R501). -/
def logRecord (s : State) (b : Bytes) : State :=
  let e := s.errors
  let l := e.log ++ [(e.logNext.toNat, b)]
  { s with errors := { e with log := l.drop (l.length - 8192), logNext := e.logNext + 1 } }

/-- Write an error record: suppression (R497), sequence number (R63), log and ring (R500, R501). -/
def recordOnce (s : State) (r : Rec) : State :=
  let key := sourceKey r.kind r.unit
  let src := tget s.errors.sources key
  let now := counterOf s (sourceDie r.kind r.unit)
  let w := now / 1000000
  let src := if src.window = w then src else { src with window := w, inWindow := 0 }
  if r.cls = .corrected ∧ 16 ≤ src.inWindow then
    { s with errors := { s.errors with
        sources := tset s.errors.sources key { src with suppressed := src.suppressed + 1 } } }
  else
    let b := recBytes r now src.next.toNat src.suppressed
    let src' : RecSource := { src with
      next := src.next + 1, suppressed := 0
      inWindow := if r.cls = .corrected then src.inWindow + 1 else src.inWindow }
    let s1 : State := { s with errors := { s.errors with
      sources := tset s.errors.sources key src', fatalCount := s.errors.fatalCount + b2n (r.cls == .deviceFatal) } }
    ringRecord (logRecord s1 b) r.cls b

/-- CHECK_FAIL of a block that a hub unit serves (R73, Table 17-4). -/
def wbCheckFail (s : State) (blk : Nat) : Rec :=
  { code := 0x0401, level := 3, cls := .contained, kind := 8, unit := 0, addr := blk * 256
    detail := b2n (tagOf s.mem blk).restarted, status := 0x0030 }

/-- Write an error record. The ring's block is merged under R70: where its old bytes fail their check, that is recorded
too. -/
def record (s : State) (r : Rec) : State :=
  let blk := (errRingBase + s.errors.tail.toNat % 32768 * 32) / 256
  let s1 := recordOnce s r
  if s.errors.ringUp && s1.errors.tail != s.errors.tail && !blockSound s.mem blk then recordOnce s1 (wbCheckFail s blk) else s1

/-- Bytes that a device unit composes into the Warp Beam or a window: R70's merge, with the record of each block that is
written in part and fails its check. -/
def composeAt (s : State) (a : Nat) (b : Bytes) : State :=
  let ends := [a / 256, (a + b.length - 1) / 256].eraseDups
  let bad := ends.filter (fun k => (decide (k * 256 < a) || decide (a + b.length < k * 256 + 256)) && !blockSound s.mem k)
  bad.foldl (fun t k => record t (wbCheckFail s k)) { s with mem := compose s.mem a b }

/-- ADDRESS naming a unit by UNIT_KIND (R499). -/
def unitAddr (kind unit : Nat) : Nat := kind * 2 ^ 60 + unit

/-- A record of the management core at device level (KIND 0x7). -/
def recordMgmt (s : State) (code : Nat) (cls : RecClass) (addr : Nat := 0) (detail : Nat := 0)
    (status : Nat := 0) : State :=
  record s { code := code, level := 3, cls := cls, kind := 7, unit := 0, addr := addr, detail := detail, status := status }

/-- A die-level record of a C-die (KIND 0x6, R495). -/
def recordDie (s : State) (pos code : Nat) (cls : RecClass) (addr : Nat := 0) (detail : Nat := 0)
    (status : Nat := 0) : State :=
  record s { code := code, level := 3, cls := cls, kind := 6, unit := pos, addr := addr, detail := detail, status := status }

/-- A record of the hub units (KIND 0x8). -/
def recordHub (s : State) (code : Nat) (cls : RecClass) (addr : Nat := 0) (detail : Nat := 0)
    (status : Nat := 0) : State :=
  record s { code := code, level := 3, cls := cls, kind := 8, unit := 0, addr := addr, detail := detail, status := status }

/-- A record of the PCIe endpoint (KIND 0x9). -/
def recordPcie (s : State) (code : Nat) (cls : RecClass) (addr : Nat := 0) (detail : Nat := 0)
    (status : Nat := 0) : State :=
  record s { code := code, level := 3, cls := cls, kind := 9, unit := 0, addr := addr, detail := detail, status := status }

/-- A record of a region controller (KIND 0x3) at region level. -/
def recordRegion (s : State) (region code : Nat) (cls : RecClass) (addr : Nat := 0) (detail : Nat := 0)
    (status : Nat := 0) : State :=
  record s { code := code, level := 2, cls := cls, kind := 3, unit := region, addr := addr, detail := detail, status := status }

/-- A record of a core (KIND 0x0) at core level. -/
def recordCore (s : State) (core code : Nat) (cls : RecClass) (addr : Nat := 0) (detail : Nat := 0)
    (status : Nat := 0) : State :=
  record s { code := code, level := 0, cls := cls, kind := 0, unit := core, addr := addr, detail := detail, status := status }

/-! ### Where a device address lies (Table 02-1, R48, R49, R247, R248) -/

/-- The store that a device address lies in. -/
inductive Place where
  | near (core layer bank row : Nat)
  | far (region offset : Nat)
  | warp (offset : Nat)
  | store (core offset : Nat)
  | knot (n : Nat)
  | control
  | partner
  | reserved
deriving DecidableEq, Repr

/-- Decode a device address (Table 02-1). -/
def placeOf (a : Nat) : Place :=
  if a < 0x8000000000 then
    .near (a / 0x4000000) (bitsOf a 25 23) (bitsOf a 22 19) (bitsOf a 18 10)
  else if a < 0xE000000000 then
    .far ((a - 0x8000000000) / 0x600000000) ((a - 0x8000000000) % 0x600000000)
  else if a < 0xE020000000 then .warp (a - 0xE000000000)
  else if a < 0xE100000000 then .reserved
  else if a < 0xE180000000 then .store ((a - 0xE100000000) / 0x40000) ((a - 0xE100000000) % 0x40000)
  else if a < 0xE200000000 then .reserved
  else if a < 0xE200100000 then .knot ((a - 0xE200000000) / 16)
  else if a < 0xF000000000 then .reserved
  else if a < 0xF500000000 then .control
  else if a < 0xF800000000 then .reserved
  else if a < 0xF900000000 then .partner
  else .reserved

/-- The device address of a region's window (R44). -/
def windowBase (region : Nat) : Nat := 0x8000000000 + region * 0x600000000

/-- The device address of a frame. -/
def frameAddr (fn : Nat) : Nat :=
  if bitOf fn 25 then windowBase (bitsOf fn 24 21) + bitsOf fn 20 0 * 16384 else bitsOf fn 24 0 * 16384

/-- The device address of a core's store (R44). -/
def storeBase (core : Nat) : Nat := 0xE100000000 + core * 0x40000

/-- The near channel of a core's layer (R362). -/
def chanOf (core layer : Nat) : Nat := core * 8 + layer

/-- The pseudo-channels of a region's home in nominal order (R247), by stack × 64 + pseudo-channel. -/
def nominalHome (region : Nat) : List Nat :=
  let p := region / 4
  let q := region % 4
  (List.range 32).map (fun k => (2 * p + k % 2) * 64 + 16 * q + k / 2)

/-- The pseudo-channels of a home at its positions: those in service at the last bring-up, in nominal order (R248). -/
def homePcs (s : State) (region : Nat) : List Nat := (nominalHome region).filter (fun n => !(getPc s n).out)

/-- The region that owns a pseudo-channel (R247). -/
def regionOfPc (pc : Nat) : Nat := pc / 128 * 4 + pc % 64 / 16

/-- The data bytes of a window: n × 756 MiB (R248). -/
def windowBytes (s : State) (region : Nat) : Nat := (getRegion s region).homeN * 756 * 1048576

/-- The pseudo-channel of a data offset of a window (R248). -/
def pcOf (s : State) (region offset : Nat) : Nat :=
  let n := (getRegion s region).homeN
  (homePcs s region).getD (offset / 2048 % n) 0

/-- The local address of a data offset on its pseudo-channel (R248). -/
def localOf (s : State) (region offset : Nat) : Nat :=
  let n := (getRegion s region).homeN
  offset / 2048 / n * 2048 + offset % 2048

/-- The device address of a local address at a position of a window: the inverse of R248. -/
def farAddr (s : State) (region position loc : Nat) : Nat :=
  windowBase region + (loc / 2048 * (getRegion s region).homeN + position) * 2048 + loc % 2048

/-- The source that serves a check block, as KIND and UNIT of Table 17-2. -/
def sourceOf (s : State) (a : Nat) : Nat × Nat :=
  match placeOf a with
  | .near core layer _ _ => (1, core * 8 + layer)
  | .far region offset => (5, pcOf s region offset)
  | .store core _ => (0, core)
  | _ => (8, 0)

/-- LEVEL of a record whose level is that of its source (R498). -/
def sourceLevel (kind : Nat) : Nat := if kind = 0 ∨ kind = 1 then 0 else if kind = 5 then 2 else 3

end Sys2Proof.Machine
end

