-- ==== Sys2Proof/Machine/Operands.lean ====
section
/-!
DEFINITION. Every operand form of the step descriptors (spec/06_drafts.md Tables 06-9 to 06-17): header and body
fields, operand addresses and the bytes each element takes, and the checks of R178 with the cause and status that
Table 06-19 gives each.
-/
namespace Sys2Proof.Machine

/-- A field of a descriptor, bits [hi:lo]. -/
def df (d : BitVec 512) (hi lo : Nat) : Nat := bitsOf d.toNat hi lo

/-- A one-bit field of a descriptor. -/
def db (d : BitVec 512) (i : Nat) : Bool := bitOf d.toNat i

def dOpcode (d : BitVec 512) : Nat := df d 7 0
def dWaitEn (d : BitVec 512) : Bool := db d 8
def dWaitLocal (d : BitVec 512) : Bool := db d 9
def dWaitEpoch (d : BitVec 512) : Bool := db d 10
def dWaitTripEn (d : BitVec 512) : Bool := db d 11
def dWaitTripSel (d : BitVec 512) : Nat := df d 13 12
def dSigEn (d : BitVec 512) : Bool := db d 14
def dSigLocal (d : BitVec 512) : Bool := db d 15
def dWaitKnot (d : BitVec 512) : Nat := df d 31 16
def dSigKnot (d : BitVec 512) : Nat := df d 47 32
def dWaitValue (d : BitVec 512) : Nat := df d 95 48
def dNext (d : BitVec 512) : Nat := df d 104 96
def dSubop (d : BitVec 512) : Nat := df d 111 105
def dOpx (d : BitVec 512) : Nat := df d 127 112

/-- A field of the body, counted from bit 0 of descriptor byte `byte`. -/
def bf (d : BitVec 512) (byte hi lo : Nat) : Nat := df d (8 * byte + hi) (8 * byte + lo)

/-- A one-bit field of the body. -/
def bb (d : BitVec 512) (byte i : Nat) : Bool := db d (8 * byte + i)

/-- An operand: device address of element (0,0,0), format, extents and strides in bytes (Tables 06-10, 06-11). -/
structure Opd where
  addr : Nat
  fmt : Nat
  scaled : Bool
  self : Bool
  bcast : Bool
  xen : Bool
  xsel : Nat
  e0 : Nat
  e1 : Nat
  e2 : Nat
  s0 : Int
  s1 : Int
  s2 : Int
  store : Bool
deriving DecidableEq, Repr

/-- The 20-byte operand descriptor at a byte of the descriptor (Table 06-10). -/
def opd20 (d : BitVec 512) (b : Nat) : Opd :=
  { addr := bf d b 39 0, fmt := bf d b 43 40, scaled := bb d b 44, self := bb d b 45, bcast := false
    xen := bb d b 46, xsel := bf d b 48 47, e0 := bf d b 71 56, e1 := bf d b 87 72, e2 := bf d b 95 88
    s0 := signed 16 (bf d b 111 96), s1 := 32 * signed 24 (bf d b 135 112), s2 := 32 * signed 24 (bf d b 159 136)
    store := false }

/-- The 16-byte store operand descriptor at a byte of the descriptor (Table 06-11). -/
def opd16 (d : BitVec 512) (b : Nat) : Opd :=
  { addr := bf d b 17 0, fmt := bf d b 21 18, scaled := bb d b 22, self := false, bcast := bb d b 23
    xen := bb d b 24, xsel := bf d b 26 25, e0 := bf d b 47 32, e1 := bf d b 63 48, e2 := bf d b 71 64
    s0 := signed 16 (bf d b 87 72), s1 := signed 18 (bf d b 105 88), s2 := signed 18 (bf d b 123 106), store := true }

/-- Opcodes of Table 06-12. -/
abbrev opArrayMm : Nat := 0x01
abbrev opArrayDrain : Nat := 0x02
abbrev opVec : Nat := 0x10
abbrev opTopk : Nat := 0x11
abbrev opMove : Nat := 0x20
abbrev opGather : Nat := 0x21
abbrev opBobbin : Nat := 0x22
abbrev opScore : Nat := 0x23
abbrev opKnotArrive : Nat := 0x30
abbrev opKnotWait : Nat := 0x31
abbrev opLoop : Nat := 0x3E
abbrev opHalt : Nat := 0x3F

/-- Whether a VEC_OP sub-operation reads a second operand B (Table 06-14). -/
def subopUsesB (sub : Nat) : Bool := decide (sub ≤ 5) || sub == 0x19 || sub == 0x1A

/-- Operand A of a descriptor, where its body holds one (Table 06-12). -/
def operandA (d : BitVec 512) : Option Opd :=
  let op := dOpcode d
  if op = opArrayMm ∨ op = opMove then some (opd20 d 16)
  else if op = opVec ∨ op = opTopk then some (opd16 d 16)
  else if op = opScore then some (opd20 d 24)
  else none

/-- Operand B of a descriptor. -/
def operandB (d : BitVec 512) : Option Opd :=
  let op := dOpcode d
  if op = opArrayMm then some (opd20 d 36)
  else if op = opVec ∧ subopUsesB (dSubop d) then some (opd16 d 32)
  else none

/-- Operand C of a descriptor: its destination. -/
def operandC (d : BitVec 512) : Option Opd :=
  let op := dOpcode d
  if op = opArrayDrain then some (opd16 d 16)
  else if op = opVec ∨ op = opTopk then some (opd16 d 48)
  else if op = opMove then some (opd20 d 36)
  else if op = opGather then some (opd20 d 24)
  else if op = opScore then some (opd20 d 44)
  else if op = opBobbin ∧ bitOf (dOpx d) 0 then some (opd20 d 24)
  else none

/-- Whether ADDR allows SELF: near memory or the core-store range (Table 06-10). -/
def selfOk (o : Opd) : Bool :=
  !o.self || decide (o.addr < 0x8000000000) || (decide (0xE100000000 ≤ o.addr) && decide (o.addr < 0xE180000000))

/-- The operand address that the dispatcher computes: SELF applied, then the index register (R176). -/
def effAddr (core : Nat) (x : Nat → Nat) (o : Opd) : Nat :=
  let a :=
    if o.store then storeBase core + o.addr
    else if o.self then
      if o.addr < 0x8000000000 then core * 0x4000000 + o.addr % 0x4000000
      else 0xE100000000 + core * 0x40000 + o.addr % 0x40000
    else o.addr
  if o.xen then (a + x o.xsel) % 2 ^ 40 else a

/-- The byte address of element (i0, i1, i2) and whether it is the upper half of its byte. -/
def elemAddr (o : Opd) (i0 i1 i2 : Nat) : Int × Bool :=
  let i1 := if o.bcast then 0 else i1
  let row : Int := (o.addr : Int) + i1 * o.s1 + i2 * o.s2
  if o.s0 = 0 then
    if elemBits o.fmt = 4 then (row + (i0 / 2 : Nat), i0 % 2 == 1)
    else (row + (i0 * (elemBits o.fmt / 8) : Nat), false)
  else (row + i0 * o.s0, false)

/-- Bytes that an element takes (a 4-bit element counts as one byte). -/
def elemSize (fmt : Nat) : Nat := Nat.max 1 (elemBits fmt / 8)

/-- Bytes of a packed row of `n` elements. -/
def rowSize (fmt n : Nat) : Nat := (n * elemBits fmt + 7) / 8

/-- The byte ranges of row (i1, i2) of an operand, as (address, length). -/
def rowRanges (o : Opd) (i1 i2 : Nat) : List (Int × Nat) :=
  if o.s0 = 0 then [((elemAddr o 0 i1 i2).1, rowSize o.fmt o.e0)]
  else (List.range o.e0).map (fun i0 => ((elemAddr o i0 i1 i2).1, elemSize o.fmt))

/-- Every byte range of an operand, in ascending (i2, i1, i0) order. -/
def opdRanges (o : Opd) : List (Int × Nat) :=
  (List.range o.e2).flatMap (fun i2 => (List.range (if o.bcast then 1 else o.e1)).flatMap (fun i1 => rowRanges o i1 i2))

/-- The code of an element taken from the byte that holds it. -/
def elemCode (fmt : Nat) (hi : Bool) (bytes : Bytes) : Nat :=
  if elemBits fmt = 4 then (if hi then leNat bytes / 16 % 16 else leNat bytes % 16) else leNat bytes

/-- Codes packed to bytes along dimension 0 (R145). -/
def packCodes (fmt : Nat) : List Nat → Bytes
  | [] => []
  | [a] => if elemBits fmt = 4 then [BitVec.ofNat 8 (a % 16)] else toBytes (elemSize fmt) a
  | a :: b :: t =>
    if elemBits fmt = 4 then BitVec.ofNat 8 (a % 16 + 16 * (b % 16)) :: packCodes fmt t
    else toBytes (elemSize fmt) a ++ (toBytes (elemSize fmt) b ++ packCodes fmt t)

/-! ### Fields of the bodies -/

/-- ARRAY_MM control (Table 06-13). -/
def mmAscale (d : BitVec 512) : Nat := bf d 56 17 0
def mmBscale (d : BitVec 512) : Nat := bf d 56 35 18
def mmPass (d : BitVec 512) : Nat := bf d 56 37 36
def mmAcc (d : BitVec 512) : Nat := bf d 56 38 38
def mmClear (d : BitVec 512) : Bool := bb d 56 39
def mmStream (d : BitVec 512) : Bool := bb d 56 40

/-- ARRAY_DRAIN control (Table 06-13). -/
def drAcc (d : BitVec 512) : Nat := bf d 32 0 0
def drRound (d : BitVec 512) : Nat := bf d 32 2 1
def drSat (d : BitVec 512) : Bool := bb d 32 3

/-- Sequence control (Table 06-15). -/
def scSeq (d : BitVec 512) : Nat := bf d 16 11 0
def scLayer (d : BitVec 512) : Nat := bf d 16 19 12
def scHgroup (d : BitVec 512) : Nat := bf d 16 27 20
def scKv (d : BitVec 512) : Nat := bf d 16 29 28
def scList (d : BitVec 512) : Bool := bb d 16 30
def scFirst (d : BitVec 512) : Nat := bf d 16 63 32

/-- Bobbin control (Table 06-15). -/
def bcMask (d : BitVec 512) : Nat := bf d 16 7 0
def bcOffset (d : BitVec 512) : Nat := bf d 16 25 8
def bcLen (d : BitVec 512) : Nat := bf d 16 31 26
def bcArg (d : BitVec 512) : Nat := bf d 16 63 32

/-- Knot control (Table 06-16). -/
def kcKnot (d : BitVec 512) : Nat := bf d 16 15 0
def kcCount (d : BitVec 512) : Nat := bf d 16 31 16
def kcLocal (d : BitVec 512) : Bool := bb d 16 32
def kcLagging (d : BitVec 512) : Bool := bb d 16 33
def kcRemote (d : BitVec 512) : Bool := bb d 16 34
def kcEngines (d : BitVec 512) : Nat := bf d 16 37 35
def kcDevice (d : BitVec 512) : Nat := bf d 16 55 38

/-- LOOP body (Table 06-17). -/
def lpReg (d : BitVec 512) : Nat := bf d 16 1 0
def lpReg2En (d : BitVec 512) : Bool := bb d 16 2
def lpReg2 (d : BitVec 512) : Nat := bf d 16 4 3
def lpCount (d : BitVec 512) : Nat := bf d 16 31 16
def lpTarget (d : BitVec 512) : Nat := bf d 16 40 32
def lpStride (d : BitVec 512) : Int := signed 64 (bf d 16 127 64)
def lpStride2 (d : BitVec 512) : Int := signed 64 (bf d 16 191 128)

/-! ### Checks of R178 -/

/-- The engines that an opcode runs on; LOOP and HALT belong to the dispatcher (Table 06-12). -/
def enginesOf (d : BitVec 512) : List Engine :=
  let op := dOpcode d
  if op = opArrayMm ∨ op = opArrayDrain then [.array]
  else if op = opVec ∨ op = opTopk then [.vector]
  else if op = opMove ∨ op = opGather ∨ op = opBobbin ∨ op = opScore then [.move]
  else if op = opKnotArrive ∨ op = opKnotWait then
    (if bitOf (kcEngines d) 0 then [.array] else []) ++ (if bitOf (kcEngines d) 1 then [.vector] else [])
      ++ (if bitOf (kcEngines d) 2 then [.move] else [])
  else []

/-- Whether opcode and SUBOP are known (Tables 06-12, 06-14). -/
def knownOp (d : BitVec 512) : Bool :=
  let op := dOpcode d
  let sub := dSubop d
  if op = opVec then
    decide (sub ≤ 5) || (decide (8 ≤ sub) && decide (sub ≤ 12)) || sub == 0x10 || sub == 0x11 || sub == 0x18
      || sub == 0x19 || sub == 0x1A || sub == 0x20 || sub == 0x21
  else
    sub == 0 && (op == opArrayMm || op == opArrayDrain || op == opTopk || op == opMove || op == opGather
      || op == opBobbin || op == opScore || op == opKnotArrive || op == opKnotWait || op == opLoop || op == opHalt)

/-- Whether a store operand's reserved bits are 0. -/
def opd16Clean (d : BitVec 512) (b : Nat) : Bool := bf d b 31 27 == 0 && bf d b 127 124 == 0

/-- Whether an operand's reserved bits are 0. -/
def opd20Clean (d : BitVec 512) (b : Nat) : Bool := bf d b 55 49 == 0

/-- Whether every reserved field of a known descriptor is 0 and its fixed fields hold (R178). The knot fields agree when REMOTE
and LOCAL are not both 1 and DEVICE is 0 without REMOTE (DESIGN CHOICE, log 116). -/
def reservedClean (d : BitVec 512) : Bool :=
  let op := dOpcode d
  let opx := dOpx d
  if op = opArrayMm then opd20Clean d 16 && opd20Clean d 36 && bf d 56 63 41 == 0
  else if op = opArrayDrain then
    opd16Clean d 16 && bf d 32 63 4 == 0 && bf d 40 191 0 == 0 && opx == 0 && decide (drRound d ≤ 1)
  else if op = opVec then
    let sub := dSubop d
    opd16Clean d 16 && opd16Clean d 48
      && (if subopUsesB sub then opd16Clean d 32
          else if sub = 0x20 then bf d 32 127 36 == 0
          else bf d 32 127 0 == 0)
      && (if sub = 0x19 ∨ sub = 0x1A then true
          else if sub = 0x20 then decide (opx % 4 ≤ 1) && decide (opx < 8)
          else opx == 0)
  else if op = opTopk then
    opd16Clean d 16 && bf d 32 127 0 == 0 && opd16Clean d 48 && decide (1 ≤ opx) && decide (opx ≤ 64)
  else if op = opMove then opd20Clean d 16 && opd20Clean d 36 && bf d 56 63 0 == 0 && opx == 0
  else if op = opGather then bf d 16 31 31 == 0 && opd20Clean d 24 && bf d 44 159 0 == 0
  else if op = opBobbin then
    opd20Clean d 24 && bf d 44 159 0 == 0 && decide (opx < 2) && bf d 16 63 48 == 0
  else if op = opScore then bf d 16 31 31 == 0 && opd20Clean d 24 && opd20Clean d 44
  else if op = opKnotArrive then
    bf d 16 63 56 == 0 && bf d 24 319 0 == 0 && opx == 0 && decide (1 ≤ kcCount d) && decide (1 ≤ kcEngines d)
      && !(kcRemote d && kcLocal d) && (kcRemote d || kcDevice d == 0)
  else if op = opKnotWait then
    bf d 16 63 56 == 0 && bf d 24 319 0 == 0 && opx == 0 && kcCount d == 0 && !kcLagging d && decide (1 ≤ kcEngines d)
      && !(kcRemote d && kcLocal d) && (kcRemote d || kcDevice d == 0)
      && dWaitEn d && dWaitKnot d == 0 && !dWaitLocal d
  else if op = opLoop then
    bf d 16 15 5 == 0 && bf d 16 63 41 == 0 && bf d 16 383 192 == 0 && opx == 0 && !dWaitEn d && !dSigEn d
  else bf d 16 383 0 == 0 && opx == 0

/-- Whether the indices and local knot numbers are in range (cause 0x08). -/
def indicesOk (descCount : Nat) (d : BitVec 512) : Bool :=
  let op := dOpcode d
  (if op = opHalt then dNext d == 0 else decide (dNext d < descCount))
    && (op != opLoop || (decide (lpTarget d < descCount) && decide (1 ≤ lpCount d) && !(lpReg2En d && lpReg2 d == lpReg d)))
    && (!(dWaitEn d && dWaitLocal d) || decide (dWaitKnot d < 32))
    && (!(dSigEn d && dSigLocal d) || decide (dSigKnot d < 32))
    && (!((op == opKnotArrive || op == opKnotWait) && kcLocal d) || decide (kcKnot d < 32))

/-- Whether an operand's extents are nonzero and its 4-bit packing is legal (Table 06-10, R145). -/
def extentsOk (o : Opd) : Bool :=
  decide (1 ≤ o.e0) && decide (1 ≤ o.e1) && decide (1 ≤ o.e2)
    && !(elemBits o.fmt == 4 && (o.e0 % 2 == 1 || o.s0 != 0))

/-- Whether a format may name a vector, move or gather operand: one of the ten formats (R142). -/
def tenFmt (f : Nat) : Bool := decide (f ≤ 9)

/-- A format that is always block-scaled (R146). -/
def alwaysScaled (f : Nat) : Bool := f == 5 || f == 6 || f == 7

/-- A format that may be block-scaled (R146). -/
def mayScale (f : Nat) : Bool := f == 3 || f == 4 || alwaysScaled f

/-- Whether SCALED and the extent obey R146. -/
def scaleOk (o : Opd) : Bool :=
  (if alwaysScaled o.fmt then o.scaled else if o.scaled then mayScale o.fmt else true)
    && (!o.scaled || o.e0 % 32 == 0)

/-- The operand class of an ARRAY_MM (Table 04-2): elements per value, and whether it accumulates integers. -/
def mmClass (pass fa fb : Nat) : Option (Nat × Bool) :=
  if pass = 2 then (if fa = 0xA ∧ fb = 0xA then some (1, true) else none)
  else if pass = 3 then (if fa = 1 ∧ fb = 1 then some (1, false) else none)
  else if (fa = 1 ∧ fb = 1) ∨ (fa = 2 ∧ fb = 2) then some (1, false)
  else if 3 ≤ fa ∧ fa ≤ 6 ∧ 3 ≤ fb ∧ fb ≤ 6 then some (2, false)
  else if fa = 8 ∧ fb = 8 then some (2, true)
  else if fa = 7 ∧ fb = 7 then some (4, false)
  else if fa = 9 ∧ fb = 9 then some (4, true)
  else none

/-- The K granularity of a class (Table 04-2). -/
def mmGranule (a b : Opd) (perValue : Nat) : Nat :=
  if a.scaled || b.scaled then 32 else if a.fmt = 7 then 32 else perValue

/-- An array operand's shape (R171): E0 = K, E1 = 16, planes, strides of store operands and of streams. -/
def mmOperandOk (stream : Bool) (planes : Nat) (o : Opd) : Bool :=
  o.e1 == 16 && o.e2 == planes && o.s0 == 0
    && (if stream then o.s1 == 0 else o.addr % 32 == 0)

/-- Whether the descriptor's formats, extents, granularity and strides obey R111, R145, R146, R171 to R173 and the
operand forms of Table 06-14 (cause 0x02). -/
def formatsOk (d : BitVec 512) : Bool :=
  let op := dOpcode d
  let selfs := (operandA d).all selfOk && (operandB d).all selfOk && (operandC d).all selfOk
  let exts := (operandA d).all extentsOk && (operandB d).all extentsOk && (operandC d).all extentsOk
  selfs && exts &&
  (if op = opArrayMm then
    let a := opd20 d 16
    let b := opd20 d 36
    match mmClass (mmPass d) a.fmt b.fmt with
    | none => false
    | some (per, _) =>
      a.e0 == b.e0 && a.e0 % mmGranule a b per == 0 && scaleOk a && scaleOk b
        && mmOperandOk (mmStream d) (if mmPass d = 0 then 1 else 2) a
        && mmOperandOk false (if mmPass d = 0 then 1 else 2) b
  else if op = opArrayDrain then
    let c := opd16 d 16
    c.e0 == 16 && c.e1 == 16 && c.e2 == 1 && c.s0 == 0 && !c.bcast && !c.scaled
      && (decide (c.fmt ≤ 2) || c.fmt == 0xB)
  else if op = opVec then
    let a := opd16 d 16
    let b := opd16 d 32
    let c := opd16 d 48
    let sub := dSubop d
    let same := a.e0 == c.e0 && a.e1 == c.e1 && a.e2 == c.e2
    let plain (o : Opd) : Bool := tenFmt o.fmt && !o.scaled && !alwaysScaled o.fmt
    if sub ≤ 5 then
      same && b.e0 == a.e0 && (b.bcast || b.e1 == a.e1) && b.e2 == a.e2 && plain a && plain b && plain c && !c.bcast && !a.bcast
    else if sub = 0x10 ∨ sub = 0x11 then
      c.e0 == 1 && c.e1 == a.e1 && c.e2 == a.e2 && plain a && plain c && !c.bcast && !a.bcast
    else if sub = 0x19 then
      same && b.e0 == a.e0 && b.bcast && plain a && plain b && plain c && !c.bcast && !a.bcast
    else if sub = 0x1A then
      same && b.e0 == a.e0 && b.e2 == 2 && b.bcast && plain a && plain b && plain c && !c.bcast && !a.bcast
    else if sub = 0x20 then
      same && (tenFmt a.fmt || a.fmt == 0xB) && (tenFmt c.fmt || c.fmt == 0xB) && scaleOk a && scaleOk c
        && !c.bcast && !a.bcast && (c.fmt != 0xB || a.fmt == 0)
    else if sub = 0x21 then
      a.e0 == c.e0 && a.e1 == c.e1 && a.e2 == 1 && c.e2 == 2 && a.fmt == 0 && c.fmt == 1 && !a.scaled && !c.scaled
        && !c.bcast && !a.bcast
    else same && plain a && plain c && !c.bcast && !a.bcast
  else if op = opTopk then
    let a := opd16 d 16
    let c := opd16 d 48
    a.fmt == 0 && !a.scaled && !a.bcast && !c.bcast && !c.scaled && c.fmt == 0
      && decide (dOpx d ≤ c.e0 * c.e1 * c.e2)
  else if op = opMove then
    let a := opd20 d 16
    let c := opd20 d 36
    a.fmt == c.fmt && a.e0 == c.e0 && a.e1 == c.e1 && a.e2 == c.e2 && tenFmt a.fmt && scaleOk a && scaleOk c
  else true)

/-- Whether stochastic rounding is selected where R150 forbids it (cause 0x03). -/
def stochasticBad (d : BitVec 512) : Bool :=
  (dOpcode d == opArrayDrain && drRound d == 1)
    || (dOpcode d == opVec && dSubop d == 0x20 && dOpx d % 4 == 1
        && !(decide (1 ≤ (opd16 d 48).fmt) && decide ((opd16 d 48).fmt ≤ 7)))

/-- Whether the KV field is one that its opcode allows (Table 06-15, R290; cause 0x01). -/
def kvOk (d : BitVec 512) : Bool :=
  if dOpcode d = opGather then scKv d != 0
  else if dOpcode d = opScore then scKv d == 0
  else true

/-- The static checks of R178, in the order of the causes of Table 06-19: none when the descriptor passes. -/
def descCause (descCount : Nat) (d : BitVec 512) : Option Nat :=
  if !knownOp d || !reservedClean d || !kvOk d then some 0x01
  else if !indicesOk descCount d then some 0x08
  else if stochasticBad d then some 0x03
  else if !formatsOk d then some 0x02
  else if dOpcode d = opBobbin ∧ ¬ (1 ≤ bcLen d ∧ bcLen d ≤ 32) then some 0x02
  else none

/-- The status that Table 06-19 gives a cause (cause 0x04 carries its rule's own status). -/
def causeStatus (cause : Nat) : Nat := if cause = 0x05 ∨ cause = 0x06 then stMode else stBadPacket

end Sys2Proof.Machine
end

