-- ==== Sys2Proof/Machine/WeftBase.lean ====
section
/-!
DEFINITION. The sending side of the weft links (spec/13_weft_links.md): flits and the link-control word (R375), credits
and the replay buffer (R376, R377), messages (R382), routing and relay (R387 to R390), notices (R397), and operations on
knots of other devices (R98, R384).
-/
namespace Sys2Proof.Machine

/-! ### The topology table and the licence -/

/-- This device's number (Table 13-12); none while it holds no table. -/
def ownDevice (s : State) : Option Nat := s.weft.table.map (fun t => fieldAt t 8 4 % 262144)

/-- A table's entry for a link: device, far link, WIDTH_REQ, FLAGS, MIN_WIDTH (Table 13-13). -/
def linkEntry (t : Bytes) (l : Nat) : Nat × Nat × Nat × Nat × Nat :=
  (fieldAt t (0x40 + 16 * l) 4 % 262144, fieldAt t (0x44 + 16 * l) 1 % 16, fieldAt t (0x45 + 16 * l) 1,
   fieldAt t (0x46 + 16 * l) 1, fieldAt t (0x47 + 16 * l) 1)

def leDevice (t : Bytes) (l : Nat) : Nat := (linkEntry t l).1
def leLink (t : Bytes) (l : Nat) : Nat := (linkEntry t l).2.1
def leWidth (t : Bytes) (l : Nat) : Nat := (linkEntry t l).2.2.1
def leFlags (t : Bytes) (l : Nat) : Nat := (linkEntry t l).2.2.2.1
def leMin (t : Bytes) (l : Nat) : Nat := (linkEntry t l).2.2.2.2

/-- The links whose TREE field has a value: 1 PARENT, 2 CHILD (Table 13-13). -/
def treeLinks (s : State) (tree : Nat) : List Nat :=
  match s.weft.table with
  | none => []
  | some t => (List.range 16).filter (fun l => bitsOf (leFlags t l) 3 2 == tree)

/-- Whether the licence in use enables any weft link (R353). -/
def anyLinkLicensed (s : State) : Bool := s.boot.licence.any (fun l => l.weftLinks != 0)

def getLink (s : State) (l : Nat) : WeftLink := tget s.weft.links l

/-- Whether a link is in service (WL_STATUS STATE, Table 13-15). -/
def linkInService (s : State) (l : Nat) : Bool := (getLink s l).state == 2

/-! ### Flits -/

/-- TYPE of a flit (Table 13-2). -/
abbrev flNull : Nat := 0
abbrev flData : Nat := 1
abbrev flCtrl : Nat := 2

/-- The header of a flit as a number (Table 13-2). -/
def flitHeader (type vc seq : Nat) (first last : Bool) (crVc crCount : Nat) : Nat :=
  type + vc * 16 + seq * 64 + b2n first * 2 ^ 18 + b2n last * 2 ^ 19 + crVc * 2 ^ 20 + crCount * 2 ^ 22

/-- The link-control word (Table 13-3). -/
def controlWord (ackSeq : Nat) (valid nak : Bool) : Bytes :=
  let v := ackSeq + b2n valid * 2 ^ 12 + b2n nak * 2 ^ 13
  toBytes 3 v ++ toBytes 1 (crc8 (toBytes 3 v))

/-- A whole flit (R375). -/
def flitOf (header : Nat) (payload control : Bytes) : Bytes :=
  let b := toBytes 6 header ++ padTo 242 payload
  b ++ toBytes 4 (crc32 b) ++ control

/-- The control word that a link's receiver sends now. -/
def linkControl (l : WeftLink) (nak : Bool) : Bytes := controlWord ((l.expected + 4095) % 4096) l.got nak

/-- A NULL flit that returns credits or carries an ACK or a NAK. -/
def nullFlit (l : WeftLink) (crVc crCount : Nat) (nak : Bool) : Bytes :=
  flitOf (flitHeader flNull 0 0 false false crVc crCount) [] (linkControl l nak)

/-- Send a NULL flit; an ACK restarts the count of DATA flits since the last one. -/
def sendNull (l : WeftLink) (crVc crCount : Nat) (nak : Bool) : WeftLink :=
  { l with sent := l.sent ++ [nullFlit l crVc crCount nak], sinceAck := 0 }

/-- The first flit in the queue that may go: its virtual channel has a credit and nothing of that channel waits
before it. -/
def nextFlit (credits : List Nat) : List (Nat × Bytes) → List Nat → Option (Nat × Bytes)
  | [], _ => none
  | (k, b) :: t, blocked =>
    if decide (0 < credits.getD (k % 4) 0) && !blocked.contains (k % 4) then some (k, b)
    else nextFlit credits t (k % 4 :: blocked)

/-- Send one queued DATA flit: it takes the next SEQ, spends a credit and enters the replay buffer (R376, R377). -/
def pumpOne (l : WeftLink) : WeftLink :=
  if l.state ≠ 2 ∨ 512 ≤ l.replay.length then l
  else match nextFlit l.credits l.queued [] with
    | none => l
    | some (k, b) =>
      let vc := k % 4
      let flit := flitOf (flitHeader flData vc l.nextSeq (bitOf k 2) (bitOf k 3) 0 0) b (linkControl l false)
      { l with
        queued := l.queued.erase (k, b), credits := l.credits.set vc (l.credits.getD vc 0 - 1)
        replay := l.replay ++ [(l.nextSeq, flit)], nextSeq := (l.nextSeq + 1) % 4096
        sent := l.sent ++ [flit], sinceAck := 0 }

/-- Send what the credits and the replay buffer allow. -/
def pumpLink (l : WeftLink) : WeftLink := iterate pumpOne l.queued.length l

/-! ### Messages -/

/-- Kinds of Table 13-7. -/
abbrev mkPacket : Nat := 1
abbrev mkReply : Nat := 2
abbrev mkWrite : Nat := 3
abbrev mkWack : Nat := 4
abbrev mkNotice : Nat := 5
abbrev mkReplyAck : Nat := 6

/-- The virtual channel of a kind; a broadcast PACKET goes on 2 (Table 13-7). -/
def vcOfKind (kind : Nat) (bcast : Bool) : Nat :=
  if kind = mkNotice then 3
  else if kind = mkReply ∨ kind = mkWack ∨ kind = mkReplyAck then 1
  else if kind = mkPacket ∧ bcast then 2
  else 0

/-- Flits of a message (R382). -/
def msgFlits (m : Msg) : Nat := ceilDiv (32 + m.body.length) 242

/-- A message as bytes (Table 13-6). -/
def msgBytes (m : Msg) : Bytes :=
  let h := m.dest + m.src * 2 ^ 18 + m.kind * 2 ^ 36 + (msgFlits m - 1) * 2 ^ 40 + m.hops * 2 ^ 45
    + b2n m.linkLocal * 2 ^ 50 + b2n m.relay * 2 ^ 51 + m.final * 2 ^ 64
  toBytes 16 h ++ toBytes 16 m.spec.toNat ++ m.body

/-- The flits of a message in the form the queue holds. -/
def queuedOf (m : Msg) : List (Nat × Bytes) :=
  let n := msgFlits m
  let parts := chunks (n + 1) 242 (msgBytes m)
  (List.zip (List.range n) parts).map (fun p => (m.vc + 4 * b2n (p.1 == 0) + 8 * b2n (p.1 + 1 == n), p.2))

/-- Put a message on a link. -/
def queueMsg (s : State) (l : Nat) (m : Msg) : State :=
  modLink s l (fun k => pumpLink { k with queued := k.queued ++ queuedOf m })

/-- The messages that this device sends to itself wait in the receive list of index 16, which is no link. -/
def deliverHere (s : State) (m : Msg) : State := modLink s 16 (fun k => { k with rxMsgs := k.rxMsgs ++ [m] })

/-- The route entry of a destination (R387). -/
def routeEntry (t : Bytes) (own dest : Nat) : Nat :=
  if dest / 512 = own / 512 then fieldAt t (0x940 + 4 * (dest % 512)) 4 else fieldAt t (0x140 + 4 * (dest / 512)) 4

/-- The links of an entry's valid slots that are in service. -/
def routeLinks (s : State) (e : Nat) : List Nat :=
  ((List.range 4).filter (fun i => bitOf e (5 * i + 4))).map (fun i => bitsOf e (5 * i + 3) (5 * i))
    |>.filter (linkInService s)

/-- The link with the most free credits on a virtual channel; on a tie the lowest slot. -/
def mostCredits (s : State) (vc : Nat) : List Nat → Option Nat
  | [] => none
  | l :: t =>
    match mostCredits s vc t with
    | none => some l
    | some b => if (getLink s b).credits.getD vc 0 ≤ (getLink s l).credits.getD vc 0 then some l else some b

/-- What routing a message gives: deliver it here, a link with the message to put on it, or nothing (R387, R390). -/
inductive Route where
  | here
  | link (l : Nat) (m : Msg)
  | lost
deriving DecidableEq, Repr

/-- Route a message from this device (R387); an entry with VIA_MANAGER relays through this device's manager (R390). -/
def routeOf (s : State) (m : Msg) : Route :=
  match ownDevice s, s.weft.table with
  | some own, some t =>
    if m.dest = own ∨ m.linkLocal then .here
    else
      let e := routeEntry t own m.dest
      if bitOf e 20 then
        match s.weft.ownManager with
        | none => .lost
        | some g =>
          if g = own then .lost
          else
            let eg := routeEntry t own g
            if bitOf eg 20 then .lost
            else match mostCredits s m.vc (routeLinks s eg) with
              | some l => .link l { m with relay := true, final := if m.relay then m.final else m.dest, dest := g }
              | none => .lost
      else match mostCredits s m.vc (routeLinks s e) with
        | some l => .link l m
        | none => .lost
  | _, _ => .lost

/-- The answer that a discarded message gets (R389): a REPLY or a WACK of ST_TOPOLOGY to its source, which stands for the
device that the message was for. -/
def discardAnswer (m : Msg) : Option Msg :=
  let own := if m.relay then m.final else m.dest
  if m.kind = mkPacket then
    some { dest := m.src, src := own, kind := mkReply, vc := 1
           spec := BitVec.ofNat 128 (bitsOf m.spec.toNat 16 0)
           body := toBytes 4 (fieldAt m.body 4 4) ++ toBytes 2 stTopology ++ List.replicate 22 0 |> fun b =>
             b ++ toBytes 4 (crc32c b) }
  else if m.kind = mkWrite then
    some { dest := m.src, src := own, kind := mkWack, vc := 1
           spec := BitVec.ofNat 128 (bitsOf m.spec.toNat 79 64 + stTopology * 65536) }
  else none

/-- Send a message that needs no answer when it is lost. -/
def sendPlain (s : State) (m : Msg) : State :=
  match routeOf s m with
  | .here => deliverHere s m
  | .link l x => queueMsg s l x
  | .lost => recordDie s 0 0x0603 .contained 0

/-- Discard a message with one record and its answer (R389). -/
def discardMsg (s : State) (m : Msg) : State :=
  let s1 := recordDie s 0 0x0603 .contained 0
  match discardAnswer m with
  | some r => sendPlain s1 r
  | none => s1

/-- Send a message of this device, or discard it (R389). -/
def sendMsg (s : State) (m : Msg) : State :=
  match routeOf s m with
  | .lost => discardMsg s m
  | _ => sendPlain s m

/-! ### Packets between devices -/

/-- A command packet (Table 11-9) without FENCE and IRQ. -/
def packetBytes (opcode tag context : Nat) (args params : Bytes) : Bytes :=
  let h := toBytes 2 opcode ++ toBytes 2 0 ++ toBytes 4 tag ++ toBytes 4 context ++ toBytes 1 (params.length / 64)
    ++ toBytes 3 0 ++ padTo 44 args
  h ++ toBytes 4 (crc32c (h ++ params)) ++ params

/-- Send a PACKET to a device; `ordered` and `ack` are the fields of Table 13-7, `lag` the lagging indication of an ARRIVE, which
travels in the message's header (log 30). -/
def sendPacket (s : State) (device num : Nat) (ordered : Bool) (ack : Option Nat) (body : Bytes) (lag : Bool := false) : State :=
  let a := match ack with
    | some n => n * 2 ^ 32 + 2 ^ 48
    | none => 0
  sendMsg s { dest := device, src := (ownDevice s).getD 0, kind := mkPacket, vc := 0
              spec := BitVec.ofNat 128 (num + b2n ordered * 65536 + a + b2n lag * 2 ^ 49), body := body }

/-! ### Notices (R397) -/

/-- The last record that entered the log, or zeros. -/
def lastRecord (s : State) : Bytes := (s.errors.log.getLast?.map (·.2)).getD (List.replicate 32 0)

/-- Send a notice to this device's manager, when it has one. -/
def sendNotice (s : State) (code link status : Nat) (body : Bytes) : State :=
  match s.weft.ownManager with
  | none => s
  | some g =>
    let s1 : State := { s with weft := { s.weft with noticeNum := s.weft.noticeNum + 1 } }
    sendMsg s1 { dest := g, src := (ownDevice s).getD 0, kind := mkNotice, vc := 3
                 spec := BitVec.ofNat 128 (code + link * 256 + status * 65536 + s.weft.noticeNum.toNat * 2 ^ 32)
                 body := padTo 32 body }

/-- A device-fatal record is followed by a DEVICE_FATAL notice (R397, R504). -/
def recordFatal (s : State) (r : Rec) : State :=
  let s1 := record s { r with cls := .deviceFatal }
  sendNotice s1 6 0 r.status (lastRecord s1)

/-! ### Operations on knots of other devices (R98, R384) -/

/-- Whether an operation is an ARRIVE with the lagging indication. -/
def opLags : KnotOp → Bool
  | .arrive _ lag => lag
  | _ => false

/-- The packet of a remote knot operation (Table 12-9). An ARRIVE travels as KNOT_ADD: the manual names no packet for it
(log 30). -/
def remotePacket (num knot : Nat) (op : KnotOp) : Bytes :=
  match op with
  | .arrive count _ => packetBytes 0x0502 num knot (toBytes 8 0 ++ toBytes 8 count) []
  | .set v => packetBytes 0x0501 num knot (toBytes 8 0 ++ toBytes 8 v) []
  | .add d => packetBytes 0x0502 num knot (toBytes 8 0 ++ toBytes 8 (wrapTo 48 d)) []
  | .wait t => packetBytes 0x0503 num knot (toBytes 8 0 ++ toBytes 8 t ++ toBytes 8 0) []
  | .query => packetBytes 0x0504 num knot [] []

/-- Whether an operation waits for the WACKs of its issuer (R384). -/
def needsWacks : KnotOp → Bool
  | .wait _ => false
  | .query => false
  | _ => true

/-- Whether an unsent operation may go now: its issuer's WRITEs are acknowledged and no earlier operation of the issuer
on the same remote knot is open (R384). -/
def mayGo (writes : List WriteOut) (before : List RemoteOp) (o : RemoteOp) : Bool :=
  !o.sent && !(needsWacks o.op && writes.any (fun w => w.issuer == o.issuer))
    && !before.any (fun x => x.issuer == o.issuer && x.device == o.device && x.knot == o.knot)

/-- The first unsent operation that may go. -/
def firstToGo (writes : List WriteOut) : List RemoteOp → List RemoteOp → Option RemoteOp
  | _, [] => none
  | before, o :: t => if mayGo writes before o then some o else firstToGo writes (before ++ [o]) t

/-- Send one operation that may go. -/
def pumpRemoteOne (s : State) : State :=
  match firstToGo s.weft.writes [] s.weft.remoteOps with
  | none => s
  | some o =>
    let s1 : State := { s with weft := { s.weft with
      remoteOps := s.weft.remoteOps.map (fun x => if x.num = o.num then { x with sent := true } else x) } }
    sendPacket s1 o.device o.num false none (remotePacket o.num o.knot o.op) (opLags o.op)

/-- Send every remote operation that may go. -/
def pumpRemote (s : State) : State := iterate pumpRemoteOne s.weft.remoteOps.length s

/-- Queue an operation on a knot of another device and send it when it may go. -/
def remoteKnotOp (s : State) (i : Issuer) (tag device knot : Nat) (op : KnotOp) : State :=
  let o : RemoteOp := { num := s.weft.nextNum, issuer := i, device := device, knot := knot, op := op, tag := tag }
  pumpRemote { s with weft := { s.weft with
    nextNum := (s.weft.nextNum + 1) % 65536, remoteOps := s.weft.remoteOps ++ [o] } }

end Sys2Proof.Machine
end

