-- ==== Sys2Proof/Machine/Access.lean ====
section
/-!
DEFINITION. Accesses to device memory: what each issuer is refused (spec/02 R45 to R49, spec/03 R87, R89, spec/04
R137, spec/10 R273), containment of failing units (spec/06 R184, spec/01 R29, spec/07 R194, R195, R210, spec/09 R255,
spec/16 R488, R490), and reads and writes of check blocks with the ECC and the check values (spec/02 R66 to R78).
-/
namespace Sys2Proof.Machine

/-! ### Refusals -/

/-- Whether [a, a+n) meets [lo, hi). -/
def meets (a n lo hi : Nat) : Bool := decide (0 < n) && decide (a < hi) && decide (lo < a + n)

/-- The numbers of the units of `size` bytes above `base` that [a, a+n) touches inside [base, top). -/
def touched (a n base top size : Nat) : List Nat :=
  if meets a n base top then
    let lo := Nat.max a base - base
    let hi := Nat.min (a + n) top - base
    rangeFrom (lo / size) ((hi - 1) / size + 1 - lo / size)
  else []

/-- Whether a range touches a reserved range of Table 02-1 or passes 40 bits. -/
def touchesReserved (a n : Nat) : Bool :=
  meets a n 0xE020000000 0xE100000000 || meets a n 0xE180000000 0xE200000000 || meets a n 0xE200100000 0xF000000000
    || meets a n 0xF500000000 0xF800000000 || meets a n 0xF900000000 0x10000000000 || decide (0x10000000000 < a + n)

/-- Whether a range touches the check region of a window (R49). -/
def touchesCheckRegion (a n : Nat) : Bool :=
  (List.range 16).any (fun r => meets a n (windowBase r + 0x5E8000000) (windowBase (r + 1)))

/-- Whether an issuer may touch the fixed areas of a window (R273). -/
def fixedAreaOk (i : Issuer) (region : Nat) : Bool :=
  match i with
  | .pageService r => r == region
  | .management => true
  | _ => false

/-- Whether a range touches the fixed areas of a window that its issuer may not reach (R45, R273). -/
def touchesFixedArea (i : Issuer) (a n : Nat) : Bool :=
  (List.range 16).any (fun r => meets a n (windowBase r) (windowBase r + 0x48100000) && !fixedAreaOk i r)

/-- Whether an issuer may reach control space (R47): the management core and region controllers. -/
def controlOk : Issuer → Bool
  | .management => true
  | .regionCtl _ => true
  | _ => false

/-- Offset and end of each partition kind (Table 03-2). -/
def partitions : List (Nat × Nat) :=
  [(0x00000000, 0x08000000), (0x08000000, 0x18000000), (0x18000000, 0x1C000000), (0x1C000000, 0x1EC00000),
   (0x1EC00000, 0x1ED00000), (0x1ED00000, 0x1EE00000), (0x1EE00000, 0x1F000000), (0x1F000000, 0x20000000)]

/-- HOST_ACCESS of a partition kind (Table 03-2): 0 none, 1 read, 2 read and write. -/
def hostAccess (kind : Nat) : Nat :=
  match kind with
  | 0 => 2
  | 1 => 2
  | 3 => 2
  | 4 => 1
  | 5 => 1
  | 6 => 1
  | _ => 0

/-- Whether an issuer may access a partition (Table 03-2, R87, R89). -/
def partitionOk (i : Issuer) (write : Bool) (kind : Nat) : Bool :=
  match i with
  | .engine _ _ => kind == 0 || kind == 1 || kind == 3
  | .bobbins _ => kind == 0 || kind == 1 || kind == 3
  | .regionCtl _ => decide (kind ≤ 4)
  | .pageService _ => kind == 2 || kind == 4
  | .management => decide (kind ≤ 4) || (kind == 6 && write) || kind == 7
  | .command _ => hostAccess kind == 2 || (hostAccess kind == 1 && !write)
  | .bar2 => hostAccess kind == 2 || (hostAccess kind == 1 && !write)
  | .weftRx _ _ => kind == 1
  | .chiplet => false
  | .reduction _ => kind == 1

/-- Whether a range touches a partition that its issuer cannot access (R87). -/
def touchesForbiddenPartition (i : Issuer) (write : Bool) (a n : Nat) : Bool :=
  (List.range 8).any (fun k =>
    match partitions[k]? with
    | some (lo, hi) => meets a n (0xE000000000 + lo) (0xE000000000 + hi) && !partitionOk i write k
    | none => false)

/-- Whether a range touches a descriptor queue that its issuer does not serve (R137). -/
def touchesQueue (i : Issuer) (a n : Nat) : Bool :=
  (touched a n 0xE100000000 0xE180000000 0x40000).any (fun c =>
    meets a n (storeBase c + 0x38000) (storeBase c + 0x40000)
      && (match i with
          | .regionCtl r => r != regionOfCore c
          | _ => true))

/-- Whether the licence in use names a region (R3, R476). -/
def licensedRegion (s : State) (r : Nat) : Bool :=
  match s.boot.licence with
  | some l => bitOf l.regions.toNat r
  | none => false

/-- Whether a licensed region is out of service: never enabled, or out under R22, R403, R476, R512 (R45). -/
def regionUnavailable (s : State) (r : Nat) : Bool :=
  let g := getRegion s r
  licensedRegion s r && (!g.enabled || g.outOfService || g.darnOut)

/-- The cores whose slice or store a range touches. -/
def coresTouched (a n : Nat) : List Nat :=
  touched a n 0 0x8000000000 0x4000000 ++ touched a n 0xE100000000 0xE180000000 0x40000

/-- The windows that a range touches. -/
def windowsTouched (a n : Nat) : List Nat := touched a n 0x8000000000 0xE000000000 0x600000000

/-- The banks (core × 128 + layer × 16 + bank) that a range touches. -/
def banksTouched (a n : Nat) : List Nat := touched a n 0 0x8000000000 0x80000

/-- Whether a near bank is mapped out, by itself or with its channel or layer. -/
def bankMappedOut (s : State) (b : Nat) : Bool :=
  let c := getChan s (b / 16)
  c.chOut || bitOf c.bankOut.toNat (b % 16)

/-- Whether a range of a window touches a hole, lies at or above n × 756 MiB, or the window is out (R248, R249, R255). -/
def windowDegraded (s : State) (a n r : Nat) : Bool :=
  let base := windowBase r
  let g := getRegion s r
  meets a n base (windowBase (r + 1))
    && (g.windowOut || decide (g.homeN < 16) || meets a n (base + windowBytes s r) (windowBase (r + 1))
        || (let gs := touched a n base (windowBase (r + 1)) 2048
            let ps := if g.homeN ≤ gs.length then homePcs s r else gs.map (fun x => (homePcs s r).getD (x % g.homeN) 0)
            ps.any (fun p => (getPc s p).hole)))

/-- Whether the controllers that serve a range are in reset (R41, R507). -/
def rangeInReset (s : State) (a n : Nat) : Bool :=
  (coresTouched a n).any (fun c => (getRegion s (regionOfCore c)).inReset)
    || (touched a n 0xE100000000 0xE180000000 0x40000).any (fun c => (getCore s c).inReset)
    || (windowsTouched a n).any (fun r => (getRegion s r).inReset)
    || (touched a n 0 0x8000000000 0x800000).any (fun c => (layerOf s c).inReset)

/-- The status that an access is refused with, in the order of R45; ST_OK when it is allowed. A unit in reset answers
ST_TARGET_IN_RESET (R41). -/
def accessStatus (s : State) (i : Issuer) (write : Bool) (a n : Nat) : Nat :=
  if touchesReserved a n || touchesCheckRegion a n || touchesFixedArea i a n
      || (meets a n 0xF000000000 0xF500000000 && !controlOk i)
      || (meets a n 0xF800000000 0xF900000000 && !controlOk i)
      || (write && meets a n 0xE200000000 0xE200100000)
      || touchesForbiddenPartition i write a n || touchesQueue i a n then stBadAddress
  else if (coresTouched a n).any (fun c => !licensedRegion s (regionOfCore c)) then stNotLicensed
  else if (coresTouched a n).any (fun c => (getCore s c).absent || (getCore s c).fenced
        || regionUnavailable s (regionOfCore c))
      || (banksTouched a n).any (bankMappedOut s)
      || (windowsTouched a n).any (fun r => windowDegraded s a n r || regionUnavailable s r) then stDegraded
  else if rangeInReset s a n then stInReset
  else stOk

/-- The rank of a refusal in R45's order: lower is returned first. -/
def refusalRank (st : Nat) : Nat :=
  if st = stBadAddress then 0 else if st = stNotLicensed then 1 else if st = stDegraded then 2
  else if st = stInReset then 3 else 4

/-- The first status of several ranges in the order of R45. -/
def worstStatus : List Nat → Nat
  | [] => stOk
  | a :: t => let b := worstStatus t; if refusalRank a ≤ refusalRank b then a else b

/-- The refusal of a set of ranges; a negative address is outside the map. -/
def rangesStatus (s : State) (i : Issuer) (write : Bool) (l : List (Int × Nat)) : Nat :=
  worstStatus (l.map (fun r => if r.1 < 0 then stBadAddress else accessStatus s i write r.1.toNat r.2))

/-- Whether a near channel holds its accesses back: processor mode, self-refresh or a write-mode generator run
(R205, R208, R216). -/
def chanHeld (s : State) (ch : Nat) : Bool :=
  let c := getChan s ch
  c.run.isSome || (layerOf s ch).selfRefresh || (c.tg.running && !c.tg.cur.readOnly)

/-- Whether a far pseudo-channel serves nothing: self-refresh or a write-mode generator run (R257, R261). -/
def pcHeld (s : State) (pc : Nat) : Bool :=
  let p := getPc s pc
  p.selfRefresh || (p.tg.running && !p.tg.cur.readOnly)

/-- Whether an access waits in a queue (R208, R216, R261), or at a die whose clocks have stopped (R454). -/
def accessWaits (s : State) (a n : Nat) : Bool :=
  (touched a n 0 0x8000000000 0x800000).any (chanHeld s)
    || (coresTouched a n).any (fun c => (tget s.dies (dieOfCore c)).clocksStopped)
    || (windowsTouched a n).any (fun r =>
        let g := getRegion s r
        let gs := touched a n (windowBase r) (windowBase (r + 1)) 2048
        let ps := if g.homeN ≤ gs.length then homePcs s r else gs.map (fun x => (homePcs s r).getD (x % g.homeN) 0)
        ps.any (pcHeld s))

/-! ### Free bytes for undefined outputs (R184, R324, R337) -/

/-- `n` fresh free bytes. -/
def freeBytes (s : State) (n : Nat) : Bytes := (List.range n).map (fun i => Config.freeBits 8 (s.free + i))

/-- Make a range of memory undefined: free bytes with tags that match them. -/
def scramble (s : State) (a n : Nat) : State :=
  { s with mem := compose s.mem a (freeBytes s n), free := s.free + n }

/-- Make the ranges undefined that an issuer may write. -/
def scrambleRanges (s : State) (i : Issuer) (l : List (Int × Nat)) : State :=
  l.foldl (fun t r => if rangesStatus t i true [r] = stOk then scramble t r.1.toNat r.2 else t) s

/-! ### Cutting a core (R184) and removing waits (R99) -/

/-- Drop registered and refused WAITs by issuer, and its operations on remote knots (R98: the issuer cancels them). -/
def dropWaits (s : State) (p : Issuer → Bool) : State :=
  { s with
    waiters := s.waiters.filter (fun w => !p w.issuer)
    refusedWaits := s.refusedWaits.filter (fun w => !p w.issuer)
    weft := { s.weft with remoteOps := s.weft.remoteOps.filter (fun o => !p o.issuer) } }

/-- Whether an issuer is an engine of a core. -/
def engineOf (core : Nat) : Issuer → Bool
  | .engine c _ => c == core
  | _ => false

/-- Release a channel from its region's admission count (Table 08-3, step 4). -/
def releaseChan (s : State) (ch : Nat) : State :=
  modRegion s (ch / 4096) (fun r => { r with active := r.active - 1 })

/-- Check blocks of which a bank's run wrote some but not all 8 words. -/
def partBlocks (b : Bobbin) : List Nat :=
  (b.written.map (· / 8)).eraseDups.filter (fun k => decide ((b.written.filter (fun w => w / 8 == k)).eraseDups.length < 8))

/-- Poison a stored block: its mark, or for a far block the stored value that says so (R199, R252). -/
def poisonBlock (s : State) (blk : Nat) : State :=
  let t := tagOf s.mem blk
  { s with mem := setTag s.mem blk { t with
      stored := if isFar blk then farPoison (readBytes s.mem (blk * 256) 256) else t.stored, poison := true } }

/-- The refreshes that a channel owes are issued (R204, R225: memory mode finds none open). -/
def issueOwed (c : Chan) : Chan :=
  { c with refreshOwed := [], refreshes := c.refreshOwed.foldl (fun t e => tmod t e.1 (· + e.2)) c.refreshes }

/-- Abandon a channel's bobbin run (R239): blocks written in part are poisoned, the channel returns to memory mode. -/
def abandonRun (s : State) (ch cause status : Nat) : State :=
  let c := getChan s ch
  match c.run with
  | none => s
  | some r =>
    let s1 := (r.banks.flatMap (fun b => partBlocks b.2)).foldl poisonBlock s
    let bank := (r.slot0.orElse (fun _ => r.slot1)).getD 0
    releaseChan (modChan s1 ch (fun x => { issueOwed x with
      run := none, faultBank := BitVec.ofNat 4 bank, faultUop := BitVec.ofNat 5 (tget r.banks bank).upc
      faultCause := BitVec.ofNat 7 cause, faultStatus := BitVec.ofNat 16 status })) ch

/-- The destination ranges of a slot that was issued and has not completed: undefined when it is cut (R184); of a BOBBIN_SEQ
the return areas of its banks (R237), of a gather its bias row too (R290). -/
def cutRanges (x : EngSlot) : List (Int × Nat) :=
  if x.state = .placed then []
  else match operandC x.desc with
    | none => []
    | some o =>
      if dOpcode x.desc = opBobbin then
        (List.range 8).flatMap (fun (l : Nat) => if bitOf (bcMask x.desc) l then
          ((List.range 16).filter (bitOf (bcArg x.desc))).map (fun (b : Nat) =>
            ((x.addrC : Int) + (l : Int) * o.s2 + (b : Int) * o.s1, Nat.min o.s1.toNat 0x38000)) else [])
      else opdRanges { o with addr := x.addrC } ++ (if dOpcode x.desc = opGather then
        [((x.addrC : Int) + (o.e2 : Nat) * o.s2, 4 * (o.e1 + 64))] else [])

/-- Accumulators of a slot that is cut: undefined when an ARRAY_MM into them was issued (R184). -/
def freeAccumulator (s : State) (a : Accumulator) : Accumulator :=
  { a with values := (List.range 256).map (fun i => Config.freeBits 32 (s.free + i)) }

/-- A pin of a cut SWATCH_SCORE is released; a frame with no reference, pin or hold returns to FREE (R278). -/
def unpinCut (s : State) (fn : Nat) : State :=
  let s1 := modFrame s fn (fun f => { f with gpins := f.gpins - 1 })
  let f := frameOf s1 fn
  if f.allocated ∧ f.refcount = 0 ∧ f.gpins = 0 ∧ f.holds = 0 then freeFrame s1 fn else s1

/-- One cut slot leaves its outputs undefined. -/
def cutSlot (s : State) (core : Nat) (e : Engine) (x : EngSlot) : State :=
  let s1 := x.pinned.foldl unpinCut (scrambleRanges s (.engine core e) (cutRanges x))
  if dOpcode x.desc = opArrayMm ∧ x.state ≠ .placed then
    let s2 := modCore s1 core (fun c =>
      if mmPass x.desc = 1 then { c with acc0 := freeAccumulator s1 c.acc0, acc1 := freeAccumulator (drawFree s1) c.acc1 }
      else if mmAcc x.desc = 0 then { c with acc0 := freeAccumulator s1 c.acc0 }
      else { c with acc1 := freeAccumulator s1 c.acc1 })
    { s2 with free := s2.free + 512 }
  else s1

/-- Cut every slot of a core (R184): outputs undefined, waits removed, no signals, bobbin runs abandoned. -/
def cutCore (s : State) (core : Nat) : State :=
  let c := getCore s core
  let s1 := c.arraySlots.foldl (fun t x => cutSlot t core .array x) s
  let s2 := c.vecSlots.foldl (fun t x => cutSlot t core .vector x) s1
  let s3 := c.moveSlots.foldl (fun t x => cutSlot t core .move x) s2
  let s4 := (List.range 8).foldl (fun t l =>
    let ch := chanOf core l
    let t1 := modChan t ch (fun x => { x with waitAdmit := x.waitAdmit.filter (fun w => w.1 != core) })
    match (getChan t1 ch).run with
    | some r => if r.core = core then abandonRun t1 ch 0 stAborted else t1
    | none => t1) s3
  let s5 := modCore s4 core (fun x => { x with
    arraySlots := [], vecSlots := [], moveSlots := [], localWaits := [], haltPending := none, drains := []
    elastic := {}, stalls := none })
  dropWaits s5 (engineOf core)

/-! ### Containment -/

/-- A darn-map entry (R486): KIND, SOURCE and the fields of bits [63:16], given from bit 16. -/
def darnEntry (kind source fields : Nat) : Word64 := BitVec.ofNat 64 (kind + source * 16 + fields * 65536)

/-- Queue an entry for the darn-map extension; DARN_APPEND writes it (R488). -/
def queueDarn (s : State) (e : Word64) : State :=
  { s with boot := { s.boot with appendQueue := s.boot.appendQueue ++ [e] } }

/-- PHYS of a logical core (R486): die, region, block and physical index. -/
def physOf (s : State) (core : Nat) : Nat := core / 64 * 128 + ((getCore s core).spare.getD (core % 64))

/-- The batches of a slot that run on a core commit no row: they end with a status (R29, R288, R511). -/
def failBatches (s : State) (p : Batch → Bool) (status : Nat) : State :=
  { s with batches := s.batches.map (fun b =>
      if p b ∧ b.running then { b with failed := some (b.failed.getD status) } else b) }

/-- Whether a slot's weave gives a core a role or a tile (R29). -/
def slotUsesCore (sl : ModelSlot) (core : Nat) : Bool := (roleOfCore sl core).isSome || tileOnCore sl core

/-- Fence a core (R29): it runs no program, its slots reload, their running batches commit no row, the map records it
as CORE_BAD or as a failed spare, and the report lists it. `source` is the darn map's SOURCE. -/
def fenceCore (s : State) (core source : Nat) : State :=
  if (getCore s core).fenced || (getCore s core).absent then s
  else
    let s1 := cutCore s core
    let s2 := modCore s1 core (fun c => { c with fenced := true, seqr := .idle })
    let s3 := failBatches s2 (fun b => slotUsesCore (getSlot s2 b.slot) core) stDegraded
    let s4 := reloadSlots s3 (fun sl => slotUsesCore sl core)
    let s5 := queueDarn s4 (match (getCore s core).spare with
      | none => darnEntry 0x2 source (physOf s core)
      | some x => darnEntry 0x1 source (core / 64 + (x - 64) * 128 + core % 64 * 256 + 16384))
    let s6 := degrade s5 3 (some (listEntry 0x02 core))
    record s6 { code := 0x0106, level := 1, cls := .contained, kind := 2, unit := core / 64
                addr := unitAddr 0 core, status := stDegraded }

/-- Whether a slot has a tile in a channel, in one bank or in any. -/
def tileInChan (sl : ModelSlot) (ch : Nat) (bank : Option Nat) : Bool :=
  sl.tiles.any (fun t => t.kind != 3 && chanOf t.core t.layer == ch && (bank == none || bank == some t.bank))

/-- Banks mapped out on a layer, by cores, and its uncorrectable errors, each within 24 h (R490). -/
def layerTroubled (s : State) (pos layer : Nat) : Bool :=
  let now := counterOf s pos
  let day := 86400 * countsPerSecond
  let mine := s.chans.filter (fun e => e.1 / 16384 == pos && e.1 % 8 == layer)
  decide (8 ≤ (mine.filter (fun e => e.2.bankOutAt.any (fun b => decide (since now b.2 < day)))).length)
    || decide (32 ≤ sumOf (mine.map (fun e => sumOf (e.2.uncorrRows.map (fun b =>
        (b.2.filter (fun x => decide (since now x.2 < day))).length)))))

/-- Whether a re-weave empties a layer of a stack, so that nothing new goes there (R491 step 1). -/
def layerAvoided (s : State) (pos layer : Nat) : Bool := s.boot.reweave.any (fun w => w.1 == pos && w.2.1 == layer)

/-- Start a re-weave of a layer that meets the condition, when none runs (R490, R491 step 1). -/
def maybeReweave (s : State) (pos layer : Nat) : State :=
  if s.boot.reweave = none ∧ layerTroubled s pos layer = true ∧ ¬ (tget s.chans (chanOf (pos * 2048) layer)).chOut then
    let s1 : State := { s with boot := { s.boot with reweave := some (pos, layer, 0) } }
    degrade (queueDarn s1 (darnEntry 0xB 4 (pos + layer * 4))) 22 none
  else s

/-- Map out a near bank in service (R210). -/
def mapOutBank (s : State) (ch bank source : Nat) : State :=
  if bankMappedOut s (ch * 16 + bank) then s
  else
    let core := ch / 8
    let layer := ch % 8
    let now := counterOf s (dieOfCore core)
    let s1 := modChan s ch (fun c => { c with
      bankOut := c.bankOut ||| BitVec.ofNat 16 (2 ^ bank), bankOutAt := c.bankOutAt ++ [(bank, now)] })
    let s2 := recordRegion s1 (regionOfCore core) 0x0205 .contained (unitAddr 1 (ch * 16 + bank)) 0 stDegraded
    let s3 := queueDarn s2 (darnEntry 0x4 source (physOf s core + layer * 16384 + bank * 131072))
    let s4 := degrade s3 4 (some (listEntry 0x03 (ch * 16 + bank)))
    maybeReweave (reloadSlots s4 (fun sl => tileInChan sl ch (some bank))) (dieOfCore core) layer

/-- Map out a near channel in service (R194, R364). -/
def mapOutChannel (s : State) (ch source : Nat) : State :=
  if (getChan s ch).chOut then s
  else
    let core := ch / 8
    let s1 := modChan s ch (fun c => { c with chOut := true })
    let s2 := recordRegion s1 (regionOfCore core) 0x0206 .contained (unitAddr 2 ch) 0 stDegraded
    let s3 := queueDarn s2 (darnEntry 0x5 source (physOf s core + ch % 8 * 16384))
    let s4 := degrade s3 5 (some (listEntry 0x04 ch))
    reloadSlots s4 (fun sl => tileInChan sl ch none)

/-- Whether a far range of a slot or a token log meets granules at a position of a window. -/
def farMeetsPc (s : State) (region pc addr len : Nat) : Bool :=
  let n := (getRegion s region).homeN
  let gs := touched addr len (windowBase region) (windowBase (region + 1)) 2048
  if n ≤ gs.length then decide (0 < len) else gs.any (fun g => (homePcs s region).getD (g % n) 0 == pc)

/-- Bytes of a token log (R289): 4 per token, in whole 2 KiB units. -/
def tokenLogBytes (e : Seq) : Nat := ceilDiv (4 * e.maxLength) 2048 * 2048

/-- Map out a pseudo-channel in service (R255): its granules become holes; slots with far data there reload, and
sequences with a token log there are lost. -/
def mapOutPc (s : State) (pc source : Nat) : State :=
  if (getPc s pc).hole || (getPc s pc).out then s
  else
    let region := regionOfPc pc
    let s1 := modPc s pc (fun p => { p with hole := true })
    let s2 := recordRegion s1 region 0x0302 .contained (unitAddr 3 pc) 0 stDegraded
    let s3 := queueDarn s2 (darnEntry 0x7 source (pc / 64 + pc % 64 * 8))
    let s4 := degrade s3 8 (some (listEntry 0x06 (pc + 512)))
    let s5 := reloadSlots s4 (fun sl => farMeetsPc s region pc sl.far.1 sl.far.2 || farMeetsPc s region pc sl.keptAt.1 sl.keptAt.2)
    s5.seqs.foldl (fun t e =>
      if e.2.phase ≠ .free ∧ farMeetsPc s region pc e.2.tokenLog (tokenLogBytes e.2) = true then
        degrade (modSeq t e.1 (fun x => { x with lost := true })) 24 (some (listEntry 0x0E e.1))
      else t) s5

/-! ### ECC findings -/

/-- Boundary, signal position and spare position of a lane's repair as fields of its entry (Table 16-13). Which boundary
failed and which spare takes the lane is not stated (log 47). -/
def tsvPlace (core bit : Nat) : Nat :=
  let x := (Config.tsvRepair core bit).toNat
  x % 16 % 9 * 16384 + bit * 262144 + x / 16 * 134217728

/-- The entry of the log of corrections that stands for one inside a bank, which crosses no port position (R235). -/
def noPortBit : Nat := 512

/-- A corrected error of a near channel at a port bit position (R195, R210): the channel's recurring positions become failing
TSV lanes. -/
def noteCorrected (s : State) (ch bank bit : Nat) : State :=
  let core := ch / 8
  let now := counterOf s (dieOfCore core)
  let s1 := modChan s ch (fun c => { c with corrLog := c.corrLog ++ [(bank, bit, now)] })
  let recent := (getChan s1 ch).corrLog.filter (fun e =>
    e.2.1 == bit && bit != noPortBit && decide (since now e.2.2 < countsPerSecond))
  let known := (getChan s1 (chanOf core 0)).tsvBits
  let s2 :=
    if 16 ≤ recent.length ∧ 2 ≤ (recent.map (·.1)).eraseDups.length ∧ ¬ known.contains bit then
      let t := modChan s1 (chanOf core 0) (fun c => { c with tsvBits := c.tsvBits ++ [bit] })
      let t1 := record t { code := 0x0204, level := 0, cls := .corrected, kind := 1, unit := ch, addr := core, detail := bit }
      let t2 := degrade (queueDarn t1 (darnEntry 0x3 2 (physOf s core + tsvPlace core bit))) 7
        (some (listEntry 0x10 (core + bit * 8192)))
      if known.isEmpty then t2 else fenceCore t2 core 2
    else s1
  let minute := (getChan s2 ch).corrLog.filter (fun e =>
    e.1 == bank && decide (since now e.2.2 < 60 * countsPerSecond)
      && !((getChan s2 (chanOf core 0)).tsvBits.contains e.2.1))
  if 1000 < minute.length then mapOutBank s2 ch bank 2 else s2

/-- An uncorrectable near error in a row (R210): the second in different rows within 24 h maps the bank out. -/
def noteUncorrNear (s : State) (ch bank row : Nat) : State :=
  let now := counterOf s (ch / 16384)
  let s1 := modChan s ch (fun c => { c with
    eccUncorr := satAdd c.eccUncorr 1, uncorrRows := tmod c.uncorrRows bank (fun l => l ++ [(row, now)]) })
  let rows := (tget (getChan s1 ch).uncorrRows bank).filter (fun e => decide (since now e.2 < 86400 * countsPerSecond))
  if 2 ≤ (rows.map (·.1)).eraseDups.length then mapOutBank s1 ch bank 2
  else maybeReweave s1 (ch / 16384) (ch % 8)

/-- An uncorrectable far read (R253, R254): the fourth in different DRAM rows within 24 h maps the pseudo-channel out. -/
def noteUncorrFar (s : State) (pc loc : Nat) : State :=
  let now := counterOf s (pc / 128)
  let s1 := modPc s pc (fun p => { p with
    eccUncorr := satAdd p.eccUncorr 1, uncorrRows := p.uncorrRows ++ [(bitsOf loc 29 10, now)] })
  let rows := (getPc s1 pc).uncorrRows.filter (fun e => decide (since now e.2 < 86400 * countsPerSecond))
  if 4 ≤ (rows.map (·.1)).eraseDups.length then mapOutPc s1 pc 2 else s1

/-- DETAIL of an ECC record (Table 17-4): syndrome, column word, corrected bit. -/
def eccDetail (syndrome word bit : Nat) : Nat := syndrome % 65536 + word % 8 * 65536 + bit % 512 * 524288

/-- A corrected word on a read (R72, R81, R138, R200, R235, R253); `port` says that the data crossed the vertical port. -/
def applyCorrected (s : State) (port : Bool) (blk word bit syndrome : Nat) : State :=
  let a := blk * 256
  match placeOf a with
  | .near core layer bank _ =>
    let ch := chanOf core layer
    let s1 := modChan s ch (fun c => { c with eccCorr := satAdd c.eccCorr 1 })
    let s2 := record s1 { code := 0x0201, level := 0, cls := .corrected, kind := 1, unit := ch, addr := a
                          detail := eccDetail syndrome word bit }
    noteCorrected s2 ch bank (if port then bit else noPortBit)
  | .far region offset =>
    let pc := pcOf s region offset
    modPc s pc (fun p => { p with eccCorr := satAdd p.eccCorr 1, writebacks := p.writebacks ++ [localOf s region offset] })
  | .store core _ => recordCore s core 0x0101 .corrected a (eccDetail syndrome word bit)
  | _ => recordHub s 0x0403 .corrected a (eccDetail syndrome word bit)

/-- An uncorrectable word on a read: the block is poisoned without a CRC comparison (R72). -/
def applyUncorrectable (s : State) (blk word syndrome : Nat) : State :=
  let a := blk * 256
  let s0 := poisonBlock s blk
  match placeOf a with
  | .near core layer bank row =>
    let ch := chanOf core layer
    let s1 := record s0 { code := 0x0202, level := 0, cls := .contained, kind := 1, unit := ch, addr := a
                          detail := eccDetail syndrome word 0x1FF, status := stPoison }
    noteUncorrNear s1 ch bank row
  | .far region offset =>
    let pc := pcOf s region offset
    let s1 := record s0 { code := 0x0301, level := 2, cls := .contained, kind := 5, unit := pc, addr := a
                          detail := eccDetail 0 word 0x1FF, status := stPoison }
    noteUncorrFar s1 pc (localOf s region offset)
  | .store core _ => recordCore s0 core 0x0102 .contained a (eccDetail syndrome word 0x1FF) stPoison
  | .warp off =>
    if meets off 256 0x1EC00000 0x1ED00000 || meets off 256 0x1F000000 0x20000000 then
      let s1 := recordFatal s0 { code := 0x0405, level := 3, cls := .deviceFatal, kind := 8, unit := 0, status := stPoison }
      { s1 with errors := { s1.errors with fatalPending := true } }
    else recordHub s0 0x0404 .contained a (eccDetail syndrome word 0x1FF) stPoison
  | _ => s0

/-- An uncorrectable metadata word: all four blocks of the row are poisoned (R198). -/
def applyMetaUncorrectable (s : State) (blk syndrome : Nat) : State :=
  match placeOf (blk * 256) with
  | .near core layer bank row =>
    let ch := chanOf core layer
    let s1 := (rangeFrom (blk / 4 * 4) 4).foldl poisonBlock s
    let s2 := record s1 { code := 0x0203, level := 0, cls := .contained, kind := 1, unit := ch, addr := blk * 256
                          detail := eccDetail syndrome 0 0x1FF, status := stPoison }
    noteUncorrNear s2 ch bank row
  | _ => s

/-- Flip stored bits that the ECC did not see. -/
def flipBits (m : Memory) (blk : Nat) (bits : List Nat) : Memory :=
  bits.foldl (fun t b =>
    let a := blk * 256 + b % 2048 / 8
    writeBytes t a [readByte t a ^^^ BitVec.ofNat 8 (2 ^ (b % 8))]) m

/-- Whether the ECC examines a word of a block: the mark of a poisoned near block takes its first word's place (R199). -/
def wordExamined (s : State) (blk word : Nat) : Bool :=
  !(word == 0 && decide (blk < 0x80000000) && (tagOf s.mem blk).poison)

/-- Apply a finding of a read to its block. -/
def applyFinding (s : State) (port : Bool) (blk : Nat) (f : Finding) : State :=
  match f with
  | .clean => s
  | .corrected word bit syndrome _ => if wordExamined s blk word then applyCorrected s port blk word bit syndrome else s
  | .uncorrectable word syndrome => if wordExamined s blk word then applyUncorrectable s blk word syndrome else s
  | .metaUncorrectable syndrome => applyMetaUncorrectable s blk syndrome
  | .damaged bits => { s with mem := flipBits s.mem blk bits }
  | .inFlight _ => s

/-- Apply every finding of a read to its block, in the order listed (R200: one count and one record for each word). -/
def applyFindings (s : State) (port : Bool) (blk : Nat) (l : List Finding) : State :=
  l.foldl (fun t f => applyFinding t port blk f) s

/-! ### Reading and writing check blocks -/

/-- A block as its source delivers it: data, POISON, RESTARTED, and whether this access found a check failure. -/
structure BlockRead where
  blk : Nat
  data : Bytes
  poison : Bool
  restarted : Bool
  failed : Bool
deriving DecidableEq, Repr, Inhabited

/-- The findings of a block in a list of findings. -/
def findingsOf (f : Findings) (blk : Nat) : List Finding := (f.filter (fun e => e.1 == blk)).map (·.2)

/-- Count a later read of a poisoned block at its source (R73). -/
def countPoison (s : State) (blk : Nat) : State :=
  match placeOf (blk * 256) with
  | .near core layer _ _ => modChan s (chanOf core layer) (fun c => { c with poisonReads := satAdd c.poisonReads 1 })
  | .far region offset => modPc s (pcOf s region offset) (fun p => { p with poisonReads := satAdd p.poisonReads 1 })
  | .store core _ => modCore s core (fun c => { c with poisonReads := satAdd c.poisonReads 1 })
  | _ => { s with wbPoisonReads := satAdd s.wbPoisonReads 1 }

/-- A source's check fails (R73): the stored block is marked, the data is delivered with POISON, one record. -/
def checkFailed (s : State) (blk : Nat) : State :=
  let src := sourceOf s (blk * 256)
  record (poisonBlock s blk) { code := 0x0401, level := sourceLevel src.1, cls := .contained, kind := src.1, unit := src.2
                               addr := blk * 256, detail := b2n (tagOf s.mem blk).restarted, status := stCheckFail }

/-- Read a whole block at its source: ECC first (R72), then the check value (R71, R73); `port` is false for a bank's read path
to its bobbin. A block that the ECC poisons now is not compared. -/
def readBlockVia (port : Bool) (s : State) (finds : Findings) (blk : Nat) : State × BlockRead :=
  if inSeqTable blk then (s, { blk := blk, data := blockBytes s blk, poison := false, restarted := true, failed := false })
  else
    let was := (tagOf s.mem blk).poison
    let s1 := applyFindings s port blk (findingsOf finds blk)
    let data := blockBytes s1 blk
    let t := tagOf s1.mem blk
    if t.poison ∧ was = false then
      (s1, { blk := blk, data := data, poison := true, restarted := t.restarted, failed := false })
    else match checkTag blk data t with
      | some (p, r) =>
        (if p then countPoison s1 blk else s1, { blk := blk, data := data, poison := p, restarted := r, failed := false })
      | none => (checkFailed s1 blk, { blk := blk, data := data, poison := true, restarted := t.restarted, failed := true })

/-- Read a whole block through its controller. -/
def readBlock (s : State) (finds : Findings) (blk : Nat) : State × BlockRead := readBlockVia true s finds blk

/-- Read blocks in order. -/
def readBlocks (s : State) (finds : Findings) : List Nat → State × List BlockRead
  | [] => (s, [])
  | b :: t =>
    let r := readBlock s finds b
    let rest := readBlocks r.1 finds t
    (rest.1, r.2 :: rest.2)

/-- The check blocks of a range. -/
def blocksOf (a n : Nat) : List Nat := if n = 0 then [] else rangeFrom (a / 256) ((a + n - 1) / 256 + 1 - a / 256)

/-- The blocks of several ranges, each once, in ascending order of first mention. -/
def blocksOfRanges (l : List (Int × Nat)) : List Nat := (l.flatMap (fun r => blocksOf r.1.toNat r.2)).eraseDups

/-- The byte of a device address in blocks that were read; a knot address reads as 0 here. -/
def byteFrom (l : List BlockRead) (a : Nat) : Byte :=
  match firstThat (fun b => b.blk == a / 256) l with
  | some b => b.data.getD (a % 256) 0
  | none => 0

/-- Bytes of a range in blocks that were read. -/
def bytesFrom (l : List BlockRead) (a n : Nat) : Bytes := (List.range n).map (fun i => byteFrom l (a + i))

def anyPoison (l : List BlockRead) : Bool := l.any (·.poison)
def anyFailed (l : List BlockRead) : Bool := l.any (·.failed)
def anyRestarted (l : List BlockRead) : Bool := l.any (·.restarted)

/-- The status that reading blocks gives a command: ST_CHECK_FAIL when its access found the failure, else ST_POISON
(R73, R76). -/
def readStatus (l : List BlockRead) : Nat := if anyFailed l then stCheckFail else if anyPoison l then stPoison else stOk

/-! ### Exits (R71, R74) -/

/-- Bits that a block's copy loses on its way (R70, R74). -/
def inFlightBits (finds : Findings) (blk : Nat) : List Nat :=
  (findingsOf finds blk).flatMap (fun f => match f with | .inFlight l => l | _ => [])

/-- Flip bits of a block's copy. -/
def flipCopy (data : Bytes) (bits : List Nat) : Bytes :=
  bits.foldl (fun d b =>
    let i := b % 2048 / 8
    d.set i (d.getD i 0 ^^^ BitVec.ofNat 8 (2 ^ (b % 8)))) data

/-- The exits where a block's check value is verified once more. -/
inductive Exit where
  | pcie
  | weft (link : Nat)
  | chiplet
  | reply
deriving DecidableEq, Repr

/-- The SOURCE of an exit's record (R74) and the exit's code in DETAIL (Table 17-4). -/
def exitSource : Exit → Nat × Nat × Nat
  | .pcie => (9, 0, 0)
  | .weft link => (6, link / 4, 1)
  | .chiplet => (8, 0, 2)
  | .reply => (9, 0, 3)

/-- A block's copy at an exit: where it no longer has its check value, the copy leaves poisoned, a CHECK_FAIL_EXIT record
names the block and the exit, and the stored block stays (R74). -/
def exitBlock (s : State) (finds : Findings) (x : Exit) (b : BlockRead) : State × BlockRead :=
  let copy := flipCopy b.data (inFlightBits finds b.blk)
  if crc32c copy = crc32c b.data then (s, b)
  else
    let src := exitSource x
    (record s { code := 0x0402, level := 3, cls := .contained, kind := src.1, unit := src.2.1, addr := b.blk * 256
                detail := b2n b.restarted + 2 + 16 * src.2.2, status := stCheckFail },
     { b with data := copy, poison := true, failed := true })

/-- Blocks at an exit, in order. -/
def exitBlocks (s : State) (finds : Findings) (x : Exit) : List BlockRead → State × List BlockRead
  | [] => (s, [])
  | b :: t =>
    let r := exitBlock s finds x b
    let rest := exitBlocks r.1 finds x t
    (rest.1, r.2 :: rest.2)

/-- What a range read delivers. -/
structure RangeRead where
  data : Bytes
  blocks : List BlockRead
deriving DecidableEq, Repr, Inhabited

/-- Read a range of memory that carries check values. -/
def readRange (s : State) (finds : Findings) (a n : Nat) : State × RangeRead :=
  let r := readBlocks s finds (blocksOf a n)
  (r.1, { data := bytesFrom r.2 a n, blocks := r.2 })

/-- A range read as it leaves the device at an exit. -/
def exitRange (s : State) (finds : Findings) (x : Exit) (a n : Nat) (r : RangeRead) : State × RangeRead :=
  let e := exitBlocks s finds x r.blocks
  (e.1, { data := if r.blocks.isEmpty then r.data else bytesFrom e.2 a n, blocks := e.2 })

/-- Write a whole block with a tag: it replaces data, stored value and POISON (R68, R77). -/
def putBlock (s : State) (blk : Nat) (data : Bytes) (restarted poison : Bool) : State :=
  { s with mem := setTag (writeBytes s.mem (blk * 256) data) blk (makeTag blk data restarted poison) }

/-- Opening a near row for a write corrects its metadata word or poisons its four blocks (R198). -/
def openForWrite (s : State) (finds : Findings) (blk : Nat) : State :=
  (findingsOf finds blk).foldl (fun t f =>
    match f with
    | .metaUncorrectable syndrome => applyMetaUncorrectable t blk syndrome
    | _ => t) s

/-- The bytes of a block after cells inside it. -/
def withCells (data : Bytes) (cells : List (Nat × Byte)) : Bytes := cells.foldl (fun d c => d.set (c.1 % 256) c.2) data

/-- Whether the bytes of a partial write changed on their way, which their partial check finds (R70): as they arrive, the
cells' bytes differ from those sent. -/
def partialFails (finds : Findings) (blk : Nat) (cells : List (Nat × Byte)) : Bool :=
  let sent := withCells (List.replicate 256 0) cells
  cells.any (fun c => (flipCopy sent (inFlightBits finds blk)).getD (c.1 % 256) 0 != c.2)

/-- Merge bytes into a block under R70: verify the old block and the new bytes, merge, store a fresh value; a poisoned block
stays poisoned (R77), and so becomes one whose new bytes fail their partial check (log 103). Answers the status of the
write. -/
def mergeBlock (s : State) (finds : Findings) (blk : Nat) (cells : List (Nat × Byte)) (restarted poison : Bool) :
    State × Nat :=
  let r := readBlock s finds blk
  let bad := partialFails finds blk cells
  let s1 := if bad then checkFailed r.1 blk else r.1
  (putBlock s1 blk (withCells r.2.data cells) (r.2.restarted || restarted) (r.2.poison || poison || bad),
   if r.2.failed || bad then stCheckFail else if r.2.poison then stPoison else stOk)

/-- Write cells inside one block: a whole-block write when they cover it, else a merge. Of a whole block the tag is kept as
it came, so that bytes changed on their way fail the check at the next read (R71). -/
def writeBlock (s : State) (finds : Findings) (blk : Nat) (cells : List (Nat × Byte)) (restarted poison : Bool) :
    State × Nat :=
  if (cells.map (fun c => c.1 % 256)).eraseDups.length = 256 then
    let s1 := putBlock (openForWrite s finds blk) blk (withCells (List.replicate 256 0) cells) restarted poison
    ({ s1 with mem := flipBits s1.mem blk (inFlightBits finds blk) }, stOk)
  else mergeBlock s finds blk cells restarted poison

/-- The more serious of two write statuses. -/
def joinStatus (a b : Nat) : Nat := if a = stCheckFail then a else if b = stOk then a else b

/-- Write cells over any blocks, block by block in ascending order (R78). -/
def writeCells (s : State) (finds : Findings) (cells : List (Nat × Byte)) (restarted poison : Bool) : State × Nat :=
  (cells.map (fun c => c.1 / 256)).eraseDups.foldl (fun t blk =>
    let r := writeBlock t.1 finds blk (cells.filter (fun c => c.1 / 256 == blk)) restarted poison
    (r.1, joinStatus t.2 r.2)) (s, stOk)

/-- Bytes at consecutive addresses as cells. -/
def cellsOf : Nat → Bytes → List (Nat × Byte)
  | _, [] => []
  | a, b :: t => (a, b) :: cellsOf (a + 1) t

/-- Write a range of bytes. -/
def writeRange (s : State) (finds : Findings) (a : Nat) (b : Bytes) (restarted poison : Bool) : State × Nat :=
  writeCells s finds (cellsOf a b) restarted poison

end Sys2Proof.Machine
end

