-- ==== Sys2Proof/Machine/Knots.lean ====
section
/-!
DEFINITION. The knot store (spec/03_warp_beam_and_knots.md R93 to R99): the operations of Table 03-5 on device knots and
on a core's local knots, the waiter table, wakes, and the lagging indication of a throttled issuer (spec/09 R260).
-/
namespace Sys2Proof.Machine

/-- The largest value of a knot. -/
def knotMax : Nat := 2 ^ 48 - 1

/-- A knot set to an exact value, clamped to 0 to 2^48 − 1; clamping sets SATURATED (R94). -/
def clampKnot (k : Knot) (v : Int) : Knot :=
  if v < 0 then { k with value := 0, saturated := true }
  else if (knotMax : Int) < v then { k with value := BitVec.ofNat 48 knotMax, saturated := true }
  else { k with value := BitVec.ofNat 48 v.toNat }

/-- The effect of an operation of Table 03-5 on a knot's bits. -/
def applyKnotOp (k : Knot) : KnotOp → Knot
  | .arrive count lagging => { clampKnot k (k.value.toNat + count) with lagging := k.lagging || lagging }
  | .set value => { value := BitVec.ofNat 48 value, lagging := false, saturated := false }
  | .add delta => clampKnot k (k.value.toNat + delta)
  | .wait _ => k
  | .query => k

/-- Waiters of a knot. -/
def waitersOf (s : State) (n : Nat) : List Waiter := s.waiters.filter (fun w => w.knot == n)

/-- MIN_TARGET: the lowest target among pending WAITs, all ones when none (Table 03-4). -/
def minTarget (s : State) (n : Nat) : Nat := (waitersOf s n).foldl (fun m w => Nat.min m w.target) knotMax

/-- The 16 bytes of a knot (Table 03-4). -/
def knotBytes (s : State) (n : Nat) : Bytes :=
  let k := tget s.knots n
  toBytes 8 (k.value.toNat + b2n k.lagging * 2 ^ 48 + b2n k.saturated * 2 ^ 49)
    ++ toBytes 2 (Nat.min (waitersOf s n).length 0xFFFF) ++ toBytes 6 (minTarget s n)

/-- Clear the wait of an engine's slot that a wake names. -/
def wakeSlot (l : List EngSlot) (index : Nat) : List EngSlot :=
  modFirst (fun x => x.index == index && x.waiting) (fun x => { x with waiting := false, met := true }) l

/-- Change the slots of one engine. -/
def modSlots (c : Core) (e : Engine) (f : List EngSlot → List EngSlot) : Core :=
  match e with
  | .array => { c with arraySlots := f c.arraySlots }
  | .vector => { c with vecSlots := f c.vecSlots }
  | .move => { c with moveSlots := f c.moveSlots }

/-- The slots of one engine. -/
def slotsOf (c : Core) (e : Engine) : List EngSlot :=
  match e with
  | .array => c.arraySlots
  | .vector => c.vecSlots
  | .move => c.moveSlots

/-- A wake reaches its waiter (R96): a sequencer's descriptor may issue, a KNOT_WAIT replies with VALUE (Table 12-9);
the other issuers read it from the list of wakes. -/
def deliverWake (s : State) (w : Wake) : State :=
  let s1 : State := { s with wakes := s.wakes ++ [w] }
  match w.issuer with
  | .engine core e => modCore s1 core (fun c => modSlots c e (fun l => wakeSlot l w.tag))
  | .command p => finish s1 p stOk (toBytes 8 w.value)
  | _ => s1

/-- The wakes of every registered WAIT on a knot that its value meets (R96). -/
def wakeMet (s : State) (n : Nat) : State :=
  let v := (tget s.knots n).value.toNat
  let met := s.waiters.filter (fun w => w.knot == n && decide (w.target ≤ v))
  let s1 : State := { s with waiters := s.waiters.filter (fun w => !(w.knot == n && decide (w.target ≤ v))) }
  met.foldl (fun t w => deliverWake t { issuer := w.issuer, knot := n, value := v, tag := w.tag, lagging := w.laggingSeen }) s1

/-- An operation on a device knot takes effect and every WAIT is evaluated after it (R94, R96). -/
def knotStep (s : State) (n : Nat) (op : KnotOp) : State :=
  let lag := match op with
    | .arrive _ l => l
    | _ => false
  let s1 : State := { s with
    knots := tmod s.knots n (fun k => applyKnotOp k op)
    waiters := s.waiters.map (fun w => if w.knot = n then { w with laggingSeen := w.laggingSeen || lag } else w) }
  wakeMet s1 n

/-- The lagging indication of an issuer's ARRIVE: its own, or its throttled mark, which the ARRIVE clears (R260). -/
def arriveLag (s : State) (i : Issuer) (lagging : Bool) : Bool := lagging || s.throttled.contains i

/-- Clear an issuer's throttled mark. -/
def clearThrottled (s : State) (i : Issuer) : State := { s with throttled := s.throttled.filter (fun x => x != i) }

/-- ARRIVE on a device knot by an issuer (R57, R94, R260). -/
def arriveKnot (s : State) (i : Issuer) (n count : Nat) (lagging : Bool) : State :=
  knotStep (clearThrottled s i) n (.arrive count (arriveLag s i lagging))

/-- Capacity of the waiter table (R96). -/
def waiterLimit : Nat := 131072

/-- WAIT on a device knot (R96): a wake at once when met, else registered, or refused while the table is full. -/
def waitKnot (s : State) (i : Issuer) (n target tag : Nat) : State :=
  let k := tget s.knots n
  if target ≤ k.value.toNat then
    deliverWake s { issuer := i, knot := n, value := k.value.toNat, tag := tag }
  else if s.waiters.length < waiterLimit then
    { s with waiters := s.waiters ++ [{ issuer := i, knot := n, target := target, tag := tag }] }
  else { s with refusedWaits := s.refusedWaits ++ [{ issuer := i, knot := n, target := target, tag := tag }] }

/-- The first refused WAIT of an issuer on a knot is retried (R96). -/
def retryWait (s : State) (i : Issuer) (n : Nat) : State :=
  match firstThat (fun w => w.issuer == i && w.knot == n) s.refusedWaits with
  | none => s
  | some w => waitKnot { s with refusedWaits := s.refusedWaits.erase w } i n w.target w.tag

/-! ### Local knots of a core (R175) -/

/-- The wakes of local waits that a local knot meets. -/
def wakeLocal (c : Core) (n : Nat) : Core :=
  let v := (tget c.localKnots n).value.toNat
  let met := c.localWaits.filter (fun w => w.2.1 == n && decide (w.2.2 ≤ v))
  let c1 := { c with localWaits := c.localWaits.filter (fun w => !(w.2.1 == n && decide (w.2.2 ≤ v))) }
  met.foldl (fun t w => modSlots t w.1 (fun l =>
    modFirst (fun x => x.waiting) (fun x => { x with waiting := false, met := true }) l)) c1

/-- ARRIVE on a local knot. -/
def arriveLocal (s : State) (core n count : Nat) (lagging : Bool) : State :=
  modCore s core (fun c =>
    wakeLocal { c with localKnots := tmod c.localKnots n (fun k => applyKnotOp k (.arrive count lagging)) } n)

/-- The bytes of a local knot in the layout of Table 03-4. -/
def localKnotBytes (c : Core) (n : Nat) : Bytes :=
  let k := tget c.localKnots n
  let ws := c.localWaits.filter (fun w => w.2.1 == n)
  toBytes 8 (k.value.toNat + b2n k.lagging * 2 ^ 48 + b2n k.saturated * 2 ^ 49)
    ++ toBytes 2 (Nat.min ws.length 0xFFFF) ++ toBytes 6 (ws.foldl (fun m w => Nat.min m w.2.2) knotMax)

/-! ### Throttled far reads (R260) -/

/-- The HBM4 stack of a pseudo-channel. -/
def stackOfPc (pc : Nat) : Nat := pc / 64

/-- A far read served while its stack is at step 1 or above marks its issuer throttled. -/
def noteThrottle (s : State) (i : Issuer) (a n : Nat) : State :=
  let slow := (windowsTouched a n).any (fun r =>
    let g := getRegion s r
    let gs := touched a n (windowBase r) (windowBase (r + 1)) 2048
    let ps := if g.homeN ≤ gs.length then homePcs s r else gs.map (fun x => (homePcs s r).getD (x % g.homeN) 0)
    ps.any (fun p => decide (1 ≤ (tget s.hbmStacks (stackOfPc p)).step)))
  if slow && !s.throttled.contains i then { s with throttled := s.throttled ++ [i] } else s

/-- Read a range as an issuer: knots answer as QUERY does (R46), memory by its blocks; a throttled stack marks the
issuer. -/
def issuerRead (s : State) (i : Issuer) (finds : Findings) (a n : Nat) : State × RangeRead :=
  match placeOf a with
  | .knot k => (s, { data := ((rangeFrom k (n / 16 + 2)).flatMap (knotBytes s)).drop (a % 16) |>.take n, blocks := [] })
  | _ => readRange (noteThrottle s i a n) finds a n

end Sys2Proof.Machine
end

