-- ==== Sys2Proof/Machine/Engines.lean ====
section
/-!
DEFINITION. What the three engines of a core share (spec/06_drafts.md R176 to R184): the slot an operation runs from,
faults, operands read and results written with their check values and poison (spec/02 R69 to R75).
-/
namespace Sys2Proof.Machine

/-- The slot from which an engine runs an opcode: the oldest issued one (R177). -/
def issuedSlot (c : Core) (e : Engine) (op : Nat) : Option EngSlot :=
  firstThat (fun x => x.state == .issued && dOpcode x.desc == op) (slotsOf c e)

/-- The slot from which the vector engine runs a VEC_OP sub-operation. -/
def issuedVec (c : Core) (sub : Nat) : Option EngSlot :=
  firstThat (fun x => x.state == .issued && dOpcode x.desc == opVec && dSubop x.desc == sub) c.vecSlots

/-- The model slot whose program a core runs. -/
def slotOfCore (c : Core) : Option Nat := c.program.map (·.slot)

/-- The step-batch that a core serves keeps what a descriptor of it consumed, a poisoned block or one whose check failed, for
the reply of its commands (R73, R75). -/
def noteConsumed (s : State) (core status : Nat) : State :=
  if status ≠ stPoison ∧ status ≠ stCheckFail then s
  else match slotOfCore (getCore s core) with
    | none => s
    | some n => { s with batches := s.batches.map (fun b =>
        if b.slot = n ∧ b.running = true then { b with status := joinStatus b.status status } else b) }

/-- Mark a slot executed; a poisoned input poisoned its outputs (R75). -/
def markExecuted (s : State) (core : Nat) (e : Engine) (index : Nat) (status : Nat) : State :=
  modCore (noteConsumed s core status) core (fun c =>
    modSlots c e (fun l => modFirst (fun x => x.index == index && x.state == .issued)
      (fun x => { x with state := .executed, poisoned := status == stPoison }) l))

/-- Whether two ranges touch one granule of 2 KiB (R53). -/
def granulesMeet (a b : Int × Nat) : Bool :=
  decide (0 < a.2) && decide (0 < b.2) && decide (a.1 / 2048 ≤ (b.1 + b.2 - 1) / 2048)
    && decide (b.1 / 2048 ≤ (a.1 + a.2 - 1) / 2048)

/-- The slots of an engine before an issued one that have not executed. -/
def openBefore (c : Core) (e : Engine) (index : Nat) : List EngSlot :=
  ((slotsOf c e).takeWhile (fun y => !(y.index == index && y.state != .executed))).filter (fun y => y.state != .executed)

/-- Whether an operation of an engine must wait: an earlier descriptor of the engine still writes a granule that one of its
ranges touches (R54). -/
def engineOrder (s : State) (core : Nat) (e : Engine) (x : EngSlot) (ranges : List (Int × Nat)) : Bool :=
  ((openBefore (getCore s core) e x.index).flatMap cutRanges).any (fun w => ranges.any (granulesMeet w))

/-- A descriptor faults (R183): dispatch stops, every slot is cut, the fault is recorded, the sequencer is FAULTED and
the step-batch that the core serves fails with the status. `uop` is the micro-operation of a bobbin fault. -/
def faultCore (s : State) (core index cause status : Nat) (uop : Nat := 0) : State :=
  let c := getCore s core
  let s1 := cutCore s core
  let s2 := modCore s1 core (fun x => { x with
    seqr := .faulted, faultIndex := BitVec.ofNat 9 index, faultCause := BitVec.ofNat 7 cause
    faultStatus := BitVec.ofNat 16 status })
  let s3 := recordCore s2 core 0x0103 .contained core (index + cause * 512 + uop * 65536) status
  match slotOfCore c with
  | none => s3
  | some n => failBatches s3 (fun b => b.slot == n) status

/-- A block of 16 knots as a read delivers it (R46). -/
def knotBlock (s : State) (blk : Nat) : BlockRead :=
  { blk := blk, data := (rangeFrom ((blk * 256 - 0xE200000000) / 16) 16).flatMap (knotBytes s)
    poison := false, restarted := false, failed := false }

/-- Read blocks of memory or knots in order. -/
def readAnyBlocks (s : State) (finds : Findings) : List Nat → State × List BlockRead
  | [] => (s, [])
  | b :: t =>
    let r := match placeOf (b * 256) with
      | .knot _ => (s, knotBlock s b)
      | _ => readBlock s finds b
    let rest := readAnyBlocks r.1 finds t
    (rest.1, r.2 :: rest.2)

/-- Read the blocks of operand ranges once each, as an engine. -/
def readOperands (s : State) (core : Nat) (e : Engine) (finds : Findings) (l : List (Int × Nat)) :
    State × List BlockRead :=
  let s1 := l.foldl (fun t r => noteThrottle t (.engine core e) r.1.toNat r.2) s
  readAnyBlocks s1 finds (blocksOfRanges l)

/-- Whether an access of an engine waits in a channel queue (R216). -/
def rangesWait (s : State) (l : List (Int × Nat)) : Bool := l.any (fun r => accessWaits s r.1.toNat r.2)

/-- The codes of row (i1, i2) of an operand in blocks that were read. -/
def rowCodes (blks : List BlockRead) (o : Opd) (i1 i2 : Nat) : List Nat :=
  (List.range o.e0).map (fun i0 =>
    let a := elemAddr o i0 i1 i2
    elemCode o.fmt a.2 (bytesFrom blks a.1.toNat (elemSize o.fmt)))

/-- The cells that writing the codes of row (i1, i2) changes. -/
def rowCells (o : Opd) (i1 i2 : Nat) (codes : List Nat) : List (Nat × Byte) :=
  if o.s0 = 0 then cellsOf (elemAddr o 0 i1 i2).1.toNat (packCodes o.fmt codes)
  else (List.zip (List.range o.e0) codes).flatMap (fun c =>
    cellsOf (elemAddr o c.1 i1 i2).1.toNat (toBytes (elemSize o.fmt) c.2))

/-- The rows (i1, i2) of an operand in ascending (i2, i1) order. -/
def rowIndices (o : Opd) : List (Nat × Nat) :=
  (List.range o.e2).flatMap (fun i2 => (List.range o.e1).map (fun i1 => (i1, i2)))

/-- The status that an engine's reads and writes leave for the command: a check failure, else poison. -/
def engineStatus (blks : List BlockRead) (write : Nat) : Nat := joinStatus (readStatus blks) write

/-! ### Moves that keep tags (R69, R173) -/

/-- Every byte address of an operand in element order. -/
def opdByteAddrs (o : Opd) : List Nat :=
  (rowIndices o).flatMap (fun r =>
    if o.s0 = 0 then rangeFrom (elemAddr o 0 r.1 r.2).1.toNat (rowSize o.fmt o.e0)
    else (List.range o.e0).flatMap (fun i0 => rangeFrom (elemAddr o i0 r.1 r.2).1.toNat (elemSize o.fmt)))

/-- The bytes of a copy in element order, as (destination, source, byte): an element that reads what an earlier one
wrote takes the byte written (R173: ascending order). -/
def copyOrder (blks : List BlockRead) (size : Nat) : List (Nat × Nat) → List (Nat × Nat × Byte) → Nat → List (Nat × Nat × Byte)
  | _, done, 0 => done
  | pairs, done, fuel + 1 =>
    if pairs.isEmpty then done
    else
      let now := (pairs.take size).map (fun p =>
        (p.1, p.2, match firstThat (fun e => e.1 == p.2) done.reverse with
          | some e => e.2.2
          | none => byteFrom blks p.2))
      copyOrder blks size (pairs.drop size) (done ++ now) fuel

/-- Whether a copy reads a byte that it writes. -/
def copyOverlaps (pairs : List (Nat × Nat)) : Bool := pairs.any (fun p => pairs.any (fun q => q.1 == p.2))

/-- The bytes of a copy. -/
def copyTriples (blks : List BlockRead) (size : Nat) (pairs : List (Nat × Nat)) : List (Nat × Nat × Byte) :=
  if copyOverlaps pairs then copyOrder blks size pairs [] (pairs.length + 1)
  else pairs.map (fun p => (p.1, p.2, byteFrom blks p.2))

/-- Write each destination byte from its source byte: a destination block takes the OR of the RESTARTED flags and of
the POISON of the source blocks that contribute to it (R69). Answers the state and the status of the writes. -/
def copyBytes (s : State) (finds : Findings) (blks : List BlockRead) (triples : List (Nat × Nat × Byte)) : State × Nat :=
  (triples.map (fun p => p.1 / 256)).eraseDups.foldl (fun t blk =>
    let mine := triples.filter (fun p => p.1 / 256 == blk)
    let srcs := blks.filter (fun b => mine.any (fun p => p.2.1 / 256 == b.blk))
    let r := writeBlock t.1 finds blk (mine.map (fun p => (p.1, p.2.2))) (anyRestarted srcs) (anyPoison srcs)
    (r.1, joinStatus t.2 r.2)) (s, stOk)

end Sys2Proof.Machine
end

