-- ==== Sys2Proof/Machine/Array.lean ====
section
/-!
DEFINITION. The array (spec/04_core_and_array.md R110 to R139): ARRAY_MM with its pass types, ARRAY_DRAIN into the drain
FIFOs, the write of a drained column, and the elastic links with the stalls that a late core-store read or a full FIFO
causes.
-/
namespace Sys2Proof.Machine

/-- What an ARRAY_MM raises in CORE_ARRAY_STATUS (R113, R114). -/
structure ArrFlags where
  invalid : Bool := false
  overflow : Bool := false
  wrap : Bool := false
deriving DecidableEq, Repr, Inhabited

def arrOr (a b : ArrFlags) : ArrFlags :=
  { invalid := a.invalid || b.invalid, overflow := a.overflow || b.overflow, wrap := a.wrap || b.wrap }

/-- One multiply–accumulate step of the floating-point classes (R113, R115): the exact sum of products with scales,
added to the FP32 accumulator with one rounding; a subtraction negates each exact product (R131). Infinities of opposite
sign in a sum give the default NaN and set INVALID (DESIGN CHOICE, log 108). -/
def macFloat (acc : Word) (products : List (Val × Val)) (scale : Option Int) (negate : Bool) : Word × ArrFlags :=
  let ps := products.map (fun p => let x := mulVal p.1 p.2; (if negate then negVal x.1 else x.1, x.2))
  let nanIn := products.any (fun p => isNan p.1 || isNan p.2) || ps.any (·.2) || scale.isNone
  let sum := ps.foldl (fun t p => let r := addVal t.1 p.1; (r.1, t.2 || r.2))
    ((match ps with
      | (.fin n 0 e, _) :: _ => .fin n 0 e
      | _ => .fin true 0 0), false)
  let v := scaleVal sum.1 (scale.getD 0)
  if nanIn || sum.2 then (defaultNan, { invalid := true })
  else
    let r := addVal (valOf acc) v
    let e := toFp32 r.1
    (e.1, { invalid := r.2, overflow := e.2.overflow })

/-- One step of the integer classes (R114, R132): the exact sum of products, shifted, added modulo 2^32. -/
def macInt (acc : Word) (products : List (Int × Int)) (shift : Nat) (negate : Bool) : Word × ArrFlags :=
  let p := products.foldl (fun t x => t + x.1 * x.2) (0 : Int) * 2 ^ shift
  let t : Int := acc.toInt + (if negate then -p else p)
  (BitVec.ofInt 32 t, { wrap := decide (t < -(2 ^ 31)) || decide (2 ^ 31 ≤ t) })

/-- Which part of an element a pass takes: whole, INT16 high byte (signed), INT16 low byte (unsigned) (R132). -/
inductive Part where
  | whole | hi | lo
deriving DecidableEq, Repr

/-- One pass of a product (Table 04-6): plane and part of A and B, target accumulator, shift, negation. -/
structure Pass where
  planeA : Nat
  planeB : Nat
  partA : Part := .whole
  partB : Part := .whole
  acc : Nat
  shift : Nat := 0
  negate : Bool := false
deriving DecidableEq, Repr

/-- The passes of a pass type in order (Table 04-6). An INT16 pass takes both bytes of its one plane, plane 0, though its
operands have E2 = 2 as R130 and R171 ask; plane 1 is read and takes no part (DESIGN CHOICE, log 109). -/
def passesOf (pass acc : Nat) : List Pass :=
  match pass with
  | 0 => [{ planeA := 0, planeB := 0, acc := acc }]
  | 1 => [{ planeA := 0, planeB := 0, acc := 0 }, { planeA := 1, planeB := 1, acc := 0, negate := true },
          { planeA := 0, planeB := 1, acc := 1 }, { planeA := 1, planeB := 0, acc := 1 }]
  | 2 => [{ planeA := 0, planeB := 0, partA := .hi, partB := .hi, acc := acc, shift := 16 },
          { planeA := 0, planeB := 0, partA := .hi, partB := .lo, acc := acc, shift := 8 },
          { planeA := 0, planeB := 0, partA := .lo, partB := .hi, acc := acc, shift := 8 },
          { planeA := 0, planeB := 0, partA := .lo, partB := .lo, acc := acc }]
  | _ => [{ planeA := 0, planeB := 0, acc := acc }, { planeA := 0, planeB := 1, acc := acc },
          { planeA := 1, planeB := 0, acc := acc }]

/-- The part of an INT16 code as an integer (R132). -/
def partOf (p : Part) (code : Nat) : Int :=
  match p with
  | .whole => signed 16 code
  | .hi => signed 8 (code / 256 % 256)
  | .lo => (code % 256 : Nat)

/-- The byte address, and the nibble, of A's element (row r, index k, plane p) in a stream tile (Table 07-1). -/
def streamElem (o : Opd) (r k p : Nat) : Int × Bool :=
  let base : Int := (o.addr : Int) + p * o.s2
  match elemBits o.fmt with
  | 16 => (base + (32 * k + 2 * r : Nat), false)
  | 8 => (base + (32 * (k / 2) + 2 * r + k % 2 : Nat), false)
  | _ => (base + (32 * (k / 4) + 2 * r + k % 4 / 2 : Nat), k % 2 == 1)

/-- Bytes of one plane of a stream: 32 per beat (R123). -/
def streamBytes (o : Opd) : Nat :=
  match elemBits o.fmt with
  | 16 => 32 * o.e0
  | 8 => 32 * ceilDiv o.e0 2
  | _ => 32 * ceilDiv o.e0 4

/-- The byte ranges that A is read from. -/
def mmRangesA (d : BitVec 512) (a : Opd) : List (Int × Nat) :=
  if mmStream d then (List.range a.e2).map (fun (p : Nat) => ((a.addr : Int) + (p : Int) * a.s2, streamBytes a))
  else opdRanges a

/-- The byte ranges that B is read from: the unmasked columns only (R118). -/
def mmRangesB (d : BitVec 512) (b : Opd) : List (Int × Nat) :=
  (List.range b.e2).flatMap (fun p =>
    ((List.range 16).filter (fun j => bitOf (dOpx d) j)).flatMap (fun j => rowRanges b j p))

/-- The byte range of a scale operand in the core store (R171). -/
def scaleRange (core offset : Nat) (o : Opd) : List (Int × Nat) :=
  if o.scaled then [(((storeBase core + offset : Nat) : Int), o.e2 * o.e1 * (o.e0 / 32))] else []

/-- The E8M0 scale of block b, row r, plane p as a power of two; none for 0xFF (R115, R171). -/
def scaleExp (blks : List BlockRead) (core offset : Nat) (o : Opd) (b r p : Nat) : Option Int :=
  if o.scaled then
    let c := (byteFrom blks (storeBase core + offset + (p * o.e1 + r) * (o.e0 / 32) + b)).toNat
    if c = 0xFF then none else some ((c : Int) - 127)
  else some 0

/-- A's element as its code. -/
def mmCodeA (blks : List BlockRead) (d : BitVec 512) (a : Opd) (r k p : Nat) : Nat :=
  let x := if mmStream d then streamElem a r k p else elemAddr a k r p
  elemCode a.fmt x.2 (bytesFrom blks x.1.toNat (elemSize a.fmt))

/-- B's element as its code: column j, index k. -/
def mmCodeB (blks : List BlockRead) (b : Opd) (j k p : Nat) : Nat :=
  let x := elemAddr b k j p
  elemCode b.fmt x.2 (bytesFrom blks x.1.toNat (elemSize b.fmt))

/-- Cell (i, j) through one pass: its steps in ascending K (R116). -/
def cellPass (blks : List BlockRead) (core : Nat) (d : BitVec 512) (a b : Opd) (per : Nat) (isInt : Bool) (ps : Pass)
    (i j : Nat) (acc : Word) : Word × ArrFlags :=
  (List.range (a.e0 / per)).foldl (fun t step =>
    let ks := rangeFrom (step * per) per
    let codes := ks.map (fun k => (mmCodeA blks d a i k ps.planeA, mmCodeB blks b j k ps.planeB))
    let r :=
      if isInt then
        macInt t.1 (codes.map (fun c =>
          if mmPass d = 2 then (partOf ps.partA c.1, partOf ps.partB c.2)
          else (signed (elemBits a.fmt) c.1, signed (elemBits b.fmt) c.2))) ps.shift ps.negate
      else
        let blk := step * per / 32
        let sa := scaleExp blks core (mmAscale d) a blk i ps.planeA
        let sb := scaleExp blks core (mmBscale d) b blk j ps.planeB
        let sc := match sa, sb with
          | some x, some y => some (x + y)
          | _, _ => none
        macFloat t.1 (codes.map (fun c => (decodeElem a.fmt c.1, decodeElem b.fmt c.2))) sc ps.negate
    (r.1, arrOr t.2 r.2)) (acc, {})

/-- An accumulator's value of cell (i, j); an accumulator that was never written holds zeros. -/
def accValue (a : Accumulator) (i j : Nat) : Word := a.values.getD (16 * i + j) 0

/-- One accumulator through a pass: the unmasked columns accumulate, the masked ones keep their values (R118). -/
def accPass (blks : List BlockRead) (core : Nat) (d : BitVec 512) (a b : Opd) (per : Nat) (isInt : Bool) (ps : Pass)
    (x : Accumulator) : Accumulator × ArrFlags :=
  let cells := (List.range 256).map (fun c =>
    if bitOf (dOpx d) (c % 16) then cellPass blks core d a b per isInt ps (c / 16) (c % 16) (accValue x (c / 16) (c % 16))
    else (accValue x (c / 16) (c % 16), {}))
  ({ x with values := cells.map (·.1), integer := isInt }, cells.foldl (fun t c => arrOr t c.2) {})

/-- An accumulator whose every value is zero. -/
def clearAcc (isInt : Bool) : Accumulator := { values := [], integer := isInt, poisoned := false }

/-- An accumulator cleared for an ARRAY_MM with CLEAR 1 (R117): its masked columns keep their values (R118), and with them
the mark of a poisoned operand. -/
def clearMasked (mask : Nat) (isInt : Bool) (x : Accumulator) : Accumulator :=
  { values := (List.range 256).map (fun c => if bitOf mask (c % 16) then 0 else accValue x (c / 16) (c % 16))
    integer := isInt, poisoned := x.poisoned && (List.range 16).any (fun j => !bitOf mask j) }

/-- The accumulators after all passes. -/
def mmResult (blks : List BlockRead) (core : Nat) (d : BitVec 512) (a b : Opd) (per : Nat) (isInt poison : Bool)
    (x0 x1 : Accumulator) : Accumulator × Accumulator × ArrFlags :=
  let start (n : Nat) (x : Accumulator) : Accumulator :=
    if mmPass d = 1 ∨ mmAcc d = n then (if mmClear d then clearMasked (dOpx d) isInt x else x) else x
  let r := (passesOf (mmPass d) (mmAcc d)).foldl (fun t ps =>
    if ps.acc = 0 then
      let y := accPass blks core d a b per isInt ps t.1
      (y.1, t.2.1, arrOr t.2.2 y.2)
    else
      let y := accPass blks core d a b per isInt ps t.2.1
      (t.1, y.1, arrOr t.2.2 y.2)) (start 0 x0, start 1 x1, ({} : ArrFlags))
  let mark (n : Nat) (x : Accumulator) : Accumulator :=
    if mmPass d = 1 ∨ mmAcc d = n then { x with poisoned := x.poisoned || poison, complex := mmPass d == 1 } else x
  (mark 0 r.1, mark 1 r.2.1, r.2.2)

/-- The columns that are frozen (R121): a later ARRAY_DRAIN must shift while their FIFOs still hold the earlier one. -/
def frozenColumns (c : Core) : List Nat :=
  if 2 ≤ (c.arraySlots.filter (fun x => x.state == .issued && dOpcode x.desc == opArrayDrain)).length then c.drains.map (·.1) else []

/-- The elastic links once the cells that feed them idle: nothing stays where no further ARRAY_MM follows at once (R129). -/
def settleIdle (c : Core) : Core :=
  if c.arraySlots.any (fun x => dOpcode x.desc == opArrayMm && x.state != .executed && (!dWaitEn x.desc || x.met)) then c
  else { c with elastic := {}, stalls := none }

/-- The effect of an issued ARRAY_MM (R111 to R118, R130 to R133, R157); it waits behind an earlier drain's writes to what it
reads (R54) and while a column of it is frozen (R121). -/
def arrayMm (core : Nat) (finds : Findings) (badTableEntry : Option (Bool × Nat)) (s : State) : State :=
  match issuedSlot (getCore s core) .array opArrayMm with
  | none => s
  | some x =>
    let d := x.desc
    let a : Opd := { opd20 d 16 with addr := x.addrA }
    let b : Opd := { opd20 d 36 with addr := x.addrB }
    match mmClass (mmPass d) a.fmt b.fmt with
    | none => s
    | some (per, isInt) =>
      let ranges := mmRangesA d a ++ mmRangesB d b ++ scaleRange core (mmAscale d) a ++ scaleRange core (mmBscale d) b
      if rangesWait s ranges || engineOrder s core .array x ranges
          || (frozenColumns (getCore s core)).any (bitOf (dOpx d)) then s
      else
        let r := readOperands s core .array finds ranges
        let poison := anyPoison r.2 || badTableEntry.isSome
        let c := getCore r.1 core
        let m := mmResult r.2 core d a b per isInt poison c.acc0 c.acc1
        let s1 := modCore r.1 core (fun k => { k with
          acc0 := m.1, acc1 := m.2.1, arrInvalid := k.arrInvalid || m.2.2.invalid
          arrOverflow := k.arrOverflow || m.2.2.overflow, arrWrap := k.arrWrap || m.2.2.wrap })
        let s2 := match badTableEntry with
          | none => s1
          | some (weft, index) => recordCore s1 core 0x0104 .contained core (b2n weft + index % 256 * 256) stPoison
        modCore (markExecuted s2 core .array x.index (if anyFailed r.2 then stCheckFail else if poison then stPoison else stOk))
          core settleIdle

/-- ARRAY_MM. -/
def execArrayMm (core : Nat) (finds : Findings) (badTableEntry : Option (Bool × Nat)) (s : State) :
    Host.Outcome State Fault Refusal := .next (arrayMm core finds badTableEntry s)

/-- The effect of an issued ARRAY_DRAIN (R119, steps 1 and 2): when the FIFOs are free, every column's 16 values move
into its FIFO with its destination and the accumulator holds zeros. Until then the full columns stay frozen (R121). -/
def arrayDrain (core : Nat) (s : State) : State :=
  let c := getCore s core
  match issuedSlot c .array opArrayDrain with
  | none => s
  | some x =>
    if !c.drains.isEmpty then s
    else
      let d := x.desc
      let o := opd16 d 16
      let acc := if drAcc d = 0 then c.acc0 else c.acc1
      let cols : Table DrainColumn := (List.range 16).map (fun j =>
        (j, { values := (List.range 16).map (fun i => accValue acc i j)
              addr := ((x.addrC : Int) + j * o.s1).toNat, fmt := o.fmt, sat := drSat d, poisoned := acc.poisoned }))
      let zero := { clearAcc acc.integer with complex := acc.complex }
      modCore s core (fun k => { k with
        drains := cols, acc0 := if drAcc d = 0 then zero else k.acc0, acc1 := if drAcc d = 0 then k.acc1 else zero })

/-- ARRAY_DRAIN. -/
def execArrayDrain (core : Nat) (s : State) : Host.Outcome State Fault Refusal := .next (arrayDrain core s)

/-- A drained value converted to the output format (R119): FP32, BF16 or FP16 with overflow as SAT selects, or INT32. -/
def drainCode (fmt : Nat) (sat : Bool) (v : Word) : Nat × Exc :=
  if fmt = 0xB then (v.toNat, {})
  else match floatFmt fmt with
    | some f => encodeFloat f .nearest sat (valOf v)
    | none => (v.toNat, {})

/-! ### Elastic links (R127 to R129, log 7) -/

/-- The elastic links in steady flow: the edge buffers are full, every elastic register is empty, and each unmasked cell below
row 0 has the next value in its pipeline stage. -/
def flowLinks (mask : Nat) : Elastic :=
  let col (n : Nat) : List Nat := (List.range 16).map (fun j => if bitOf mask j then n else 0)
  { rowEdge := List.replicate 16 32, colEdge := col 32, rowReg := List.replicate 16 (List.replicate 16 0)
    colReg := (List.range 16).map (fun i => if i = 0 then col 0 else col 1) }

/-- The values in the elastic register of a column input (R127): all but the one in the pipeline stage below row 0. -/
def colElastic (i held : Nat) : Nat := if i = 0 then held else held - 1

/-- The largest number of values in a column elastic register of a row. -/
def rowOccupancy (c : Core) (i : Nat) : Nat := ((c.elastic.colReg.getD i []).map (colElastic i)).foldl Nat.max 0

/-- For each row from i on, and one past the last, the columns with a full elastic register at that row or below. -/
def fullBelow : Nat → List (List Nat) → List (List Bool)
  | _, [] => [List.replicate 16 false]
  | i, c :: t =>
    let rest := fullBelow (i + 1) t
    List.zipWith (fun n below => decide (4 ≤ colElastic i n) || below) c (rest.headD []) :: rest

/-- The entries of an edge buffer at the start of a beat (R123): 16 when its late read is requested, what is left of them until
the data returns, and never short otherwise. -/
def edgeAt (late : List (Nat × Int × Int)) (link : Nat) (t : Int) (held : Nat) : Nat :=
  match firstThat (fun e => e.1 == link && decide (e.2.1 ≤ t) && decide (t ≤ e.2.2)) late with
  | none => 32
  | some e => if t = e.2.1 then 16 else if t = e.2.2 then held + 16 else held

/-- The cells of one row in a beat, rules 1 and 3 of R127: the row's inputs, the column inputs before any value is passed, and
the columns whose held or frozen cells do not fire. Answers the inputs left and which cells fired. -/
def rowBeat (mask : Nat) (deliver : Bool) (rs cs : List Nat) (still : List Bool) : List Nat × List Nat × List Bool :=
  let r1 := (List.zip (List.range 16) rs).map (fun e => if bitOf mask e.1 && deliver then e.2 + 1 else e.2)
  let fires := (List.zip (List.range 16) (List.zip r1 (List.zip cs still))).map (fun e =>
    bitOf mask e.1 && decide (0 < e.2.1) && decide (0 < e.2.2.1) && !e.2.2.2)
  (List.zipWith (fun n f => n - b2n f) r1 fires, List.zipWith (fun n f => n - b2n f) cs fires, fires)

/-- Rows i, i + 1, … in a beat: each passes its fired column values to the next row (R110, R127). `above` are the cells of the
row above that fired; answers each row's edge buffer and registers. -/
def rowsBeat (mask : Nat) (frozen : List Bool) : List Bool → List (Nat × List Nat × List Nat) → List (List Bool) →
    List (Nat × List Nat × List Nat)
  | _, [], _ => []
  | above, (edge, rs, cs) :: t, held =>
    let ready := (List.zip (List.range 16) rs).all (fun e => !bitOf mask e.1 || decide (e.2 < 4))
    let deliver := decide (0 < edge) && ready
    let b := rowBeat mask deliver rs cs (List.zipWith (· || ·) frozen (held.headD []))
    (edge - b2n deliver, b.1, List.zipWith (fun n f => n + b2n f) b.2.1 above) :: rowsBeat mask frozen b.2.2 t held.tail

/-- What a beat shows to the stall counters (Table 04-11): a row dry, a column held, a column frozen. -/
structure BeatSeen where
  dry : Bool
  hold : Bool
  freeze : Bool
deriving DecidableEq, Repr

/-- One beat of the array under the rules of R127, with the late reads and frozen columns of the stalls. -/
def linkBeat (mask : Nat) (st : Stalls) (t : Int) (x : Elastic) : Elastic × BeatSeen :=
  let rowEdge := (List.range 16).map (fun i => edgeAt st.late i t (x.rowEdge.getD i 0))
  let colEdge := (List.range 16).map (fun j => if bitOf mask j then edgeAt st.late (16 + j) t (x.colEdge.getD j 0) else 0)
  let frozen := (List.range 16).map (fun j =>
    bitOf mask j && st.frozen.any (fun e => e.1 == j && decide (e.2.1 ≤ t) && decide (t < e.2.2)))
  let held := fullBelow 0 x.colReg
  let top := x.colReg.headD []
  let enters := (List.range 16).map (fun j => bitOf mask j && decide (0 < colEdge.getD j 0) && decide (top.getD j 0 < 4)
    && !(held.headD []).getD j false)
  let cols := List.zipWith (fun n f => n + b2n f) top enters :: x.colReg.tail
  let rows := rowsBeat mask frozen (List.replicate 16 false) (List.zip rowEdge (List.zip x.rowReg cols)) held.tail
  ({ rowEdge := rows.map (·.1), colEdge := List.zipWith (fun n f => n - b2n f) colEdge enters
     rowReg := rows.map (fun e => e.2.1), colReg := rows.map (fun e => e.2.2) },
   { dry := rowEdge.any (· == 0), hold := (held.headD []).any id, freeze := frozen.any id })

/-- `n` beats from beat t on, counted into the stalls. -/
def linkBeats (mask : Nat) : Nat → Int → Elastic × Stalls → Elastic × Stalls
  | 0, _, p => p
  | n + 1, t, p =>
    let b := linkBeat mask p.2 t p.1
    linkBeats mask n (t + 1) (b.1, { p.2 with
      dry := p.2.dry + b2n b.2.dry, hold := p.2.hold + b2n b.2.hold, freeze := p.2.freeze + b2n b.2.freeze })

/-- The first beat of an array's stalls. -/
def stallStart (st : Stalls) : Int :=
  ((st.late ++ st.frozen).map (fun e => e.2.1)).foldl (fun a b => if b < a then b else a) st.last

/-- The stalls of an array run from their first beat until the links have settled, 32 beats after the last one ended: the
elastic links then, and the beats counted. -/
def settleLinks (mask : Nat) (st : Stalls) : Elastic × Stalls :=
  let t := stallStart st
  let r := linkBeats mask ((st.last - t).toNat + 32) t (st.base, { st with dry := 0, hold := 0, freeze := 0 })
  ({ r.1 with rowEdge := (flowLinks mask).rowEdge, colEdge := (flowLinks mask).colEdge }, r.2)

/-- Saturating count of stall beats, where the beats of the same stalls counted before are taken back (Table 04-11). -/
def recount (count : Word) (before now : Nat) : Word := satAdd 0 (count.toNat + now - before)

/-- A stall of `beats` beats ends `apart` beats after the previous one of the core ended: where it meets the previous one's, the
two are run together. `late` and `frozen` name its link or column. -/
def addStall (mask beats apart : Nat) (link column : Option Nat) (c : Core) : Core :=
  let old : Stalls := match c.stalls with
    | some st => if st.last + apart - beats < st.last + 32 then st else { base := c.elastic, last := -apart }
    | none => { base := if c.elastic.colReg.isEmpty then flowLinks mask else c.elastic, last := -apart }
  let at_ : Int := old.last + apart
  let span (l : Option Nat) : List (Nat × Int × Int) := (l.map (fun n => [(n, at_ - beats, at_)])).getD []
  let r := settleLinks mask { old with late := old.late ++ span link, frozen := old.frozen ++ span column, last := at_ }
  { c with
    elastic := r.1, stalls := some r.2, stallDry := recount c.stallDry old.dry r.2.dry
    stallHold := recount c.stallHold old.hold r.2.hold, stallFreeze := recount c.stallFreeze old.freeze r.2.freeze }

/-- The column mask of the ARRAY_MM that runs. -/
def runningMask (c : Core) : Nat := ((issuedSlot c .array opArrayMm).map (fun x => dOpx x.desc)).getD 0xFFFF

/-- The effect of DRAIN_COLUMN_WRITE (R119, steps 3 and 4): the column leaves its FIFO for the core store with fresh
check values, RESTARTED 1; after the last column the drain has executed. `frozen` are the beats for which a later drain had
the column frozen before the grant, and `apart` the beats since the core's previous stall ended (R121, R129). -/
def drainColumnWrite (core column frozen apart : Nat) (s : State) : State :=
  let c := getCore s core
  match firstThat (fun e => e.1 == column) c.drains with
  | none => s
  | some e =>
    let k := e.2
    let codes := k.values.map (drainCode k.fmt k.sat)
    let w := writeRange s [] k.addr (packCodes k.fmt (codes.map (·.1))) true k.poisoned
    let ovf := codes.any (fun x => x.2.overflow)
    let stall (y : Core) : Core :=
      if 0 < frozen ∧ (frozenColumns c).contains column then addStall (runningMask c) frozen apart none (some column) y else y
    let s1 := modCore w.1 core (fun y => { stall y with drains := terase y.drains column, arrOverflow := y.arrOverflow || ovf })
    if (getCore s1 core).drains.isEmpty then
      match issuedSlot (getCore s1 core) .array opArrayDrain with
      | none => s1
      | some x => markExecuted s1 core .array x.index (if k.poisoned then stPoison else w.2)
    else s1

/-- DRAIN_COLUMN_WRITE. -/
def execDrainColumnWrite (core column : Nat) (s : State) (frozen apart : Nat := 0) : Host.Outcome State Fault Refusal :=
  .next (drainColumnWrite core column frozen apart s)

/-- The effect of CORE_STORE_READ_RETURN (R123, R127 to R129, R138): a read of an edge buffer's link, row link 0 to 15 or
column link 16 to 31, returns `lateBeats` after its request. One that comes within the 16 entries left starves nothing; a
later one stalls the array, `apart` beats after the core's previous stall ended. A corrected word is recorded. -/
def coreStoreReadReturn (core link lateBeats apart : Nat) (correctedWord : Option (Nat × Nat × Nat)) (s : State) : State :=
  let s1 := if lateBeats ≤ 16 then s
    else modCore s core (fun c => addStall (runningMask c) lateBeats apart (some link) none c)
  match correctedWord with
  | none => s1
  | some (offset, bit, syndrome) =>
    recordCore s1 core 0x0101 .corrected ((storeBase core + offset) / 256 * 256)
      (eccDetail syndrome (offset % 256 / 32) bit)

/-- CORE_STORE_READ_RETURN. -/
def execCoreStoreReadReturn (core link lateBeats : Nat) (correctedWord : Option (Nat × Nat × Nat)) (s : State) (apart : Nat := 0) :
    Host.Outcome State Fault Refusal := .next (coreStoreReadReturn core link lateBeats apart correctedWord s)

end Sys2Proof.Machine
end

