-- ==== Sys2Proof/Machine/Checks.lean ====
section
/-!
DEFINITION. The check units (spec/03_warp_beam_and_knots.md R105 to R108, Tables 03-7 to 03-10), the 16 hub units numbered 0
to 15 and the two of region r numbered 16 + 2r and 17 + 2r, and the edge of the reference clock, during which their FIFOs
drain.
-/
namespace Sys2Proof.Machine

/-! ### The CRC of a unit (R106) -/

/-- Width of a polynomial's CRC and the polynomial (Table 03-7). -/
def chkWidth (poly : Nat) : Nat := if poly ≤ 1 then 32 else if poly = 2 then 64 else 16
def chkPoly (poly : Nat) : Nat :=
  if poly = 0 then 0x1EDC6F41 else if poly = 1 then 0x04C11DB7 else if poly = 2 then 0x42F0E1EBA9EA3693 else 0x1021

/-- One byte into a unit's remainder. -/
def chkByte (u : ChkUnit) (b : Byte) : ChkUnit :=
  let w := chkWidth u.poly.toNat
  let x : Byte := if u.reflect then BitVec.ofNat 8 (reflect 8 b.toNat) else b
  { u with remainder := crcByteN w (chkPoly u.poly.toNat) (u.remainder % 2 ^ w) x, byteCount := u.byteCount + 1 }

/-- Process every byte that waits in the FIFO, oldest first. -/
def chkDrain (u : ChkUnit) : ChkUnit := { u.fifo.flatten.foldl chkByte u with fifo := [] }

/-- The result as the registers give it (R108). -/
def chkResult (u : ChkUnit) : Nat :=
  let w := chkWidth u.poly.toNat
  let r := u.remainder % 2 ^ w
  let r := if u.reflect then reflect w r else r
  if u.xorout then 2 ^ w - 1 - r else r

/-- CHK_STATUSn (Table 03-9). -/
def chkStatus (u : ChkUnit) : Nat :=
  b2n (!u.fifo.isEmpty) + 2 * b2n (decide (4 ≤ u.fifo.length)) + 4 * b2n u.cfgErr + 256 * u.byteCount.toNat

/-- CHK_CTRLn as it reads (Table 03-8). -/
def chkCtrl (u : ChkUnit) : Nat := u.poly.toNat + 4 * b2n u.preset + 8 * b2n u.reflect + 16 * b2n u.xorout

/-- Whether CHECK_RUN holds a unit, so writes to it are discarded (R108). -/
def chkHeld (u : ChkUnit) : Bool := u.owner == 0xFFFF

/-- Change a check unit. -/
def modChk (s : State) (n : Nat) (f : ChkUnit → ChkUnit) : State := { s with chk := tmod s.chk n f }

/-- A write to CHK_CTRLn takes effect once the FIFO has drained; START loads the preset (R107). -/
def chkWriteCtrl (u : ChkUnit) (v : Nat) : ChkUnit :=
  if chkHeld u then u
  else
    let d := chkDrain u
    let e := { d with poly := BitVec.ofNat 2 v, preset := bitOf v 2, reflect := bitOf v 3, xorout := bitOf v 4 }
    if bitOf v 8 then
      { e with started := true, byteCount := 0
               remainder := if e.preset then 2 ^ chkWidth e.poly.toNat - 1 else 0 }
    else e

/-- The FIFO entries of a data-port write (R106): one entry for 1, 2 or 4 aligned bytes, two for 8, single bytes for
any other byte enables. -/
def chkEntries (offset : Nat) (b : Bytes) : List Bytes :=
  let n := b.length
  if (n = 1 ∨ n = 2 ∨ n = 4) ∧ offset % n = 0 then [b]
  else if n = 8 ∧ offset % 8 = 0 then [b.take 4, b.drop 4]
  else b.map (fun x => [x])

/-- One entry enters the FIFO; while it is full the oldest entry is processed first (R106). -/
def chkPush (u : ChkUnit) (e : Bytes) : ChkUnit :=
  if u.fifo.length < 4 then { u with fifo := u.fifo ++ [e] }
  else { (u.fifo.headD []).foldl chkByte u with fifo := u.fifo.drop 1 ++ [e] }

/-- A write to the data port (R106, R107). -/
def chkWriteData (u : ChkUnit) (offset : Nat) (b : Bytes) : ChkUnit :=
  if chkHeld u then u
  else if !u.started then { u with cfgErr := true }
  else (chkEntries offset b).foldl chkPush u

/-- A write to CHK_OWNERn (R108). -/
def chkWriteOwner (u : ChkUnit) (v : Nat) : ChkUnit :=
  if chkHeld u then u
  else if v % 65536 = 0 then { u with owner := 0 }
  else if u.owner = 0 then { u with owner := BitVec.ofNat 16 v }
  else u

/-! ### The edge of the reference -/

/-- One edge of the reference: every local counter counts it, and every check unit processes what its FIFO holds (one
byte per fabric cycle, at most 16 bytes in a FIFO); nothing happens while the clocks stand still for loss of the
reference or because PWROK is low (R64, R106, R519, R523). -/
def clockEdge (s : State) : State :=
  if s.pins.refclkLost || !s.pins.pwrok then s
  else { s with
    counters := tmodAll s.counters [0, 1, 2, 3, 4] (fun _ c => c + 1)
    chk := tmodAll s.chk (List.range 48) (fun _ u => chkDrain u) }

/-! ### The rows of the table -/

/-- Whether the check-unit window of BAR0 is served: the device is ready or held by the selvedge check (R301). -/
def barsServed (s : State) : Bool := hubRuns s && !s.pcie.d3hot && (s.pcie.ready || s.pcie.topology)

/-- Whether a unit is reached: a hub unit through the host's window, a region controller's units by Pygrim alone, which runs
while the hub does (R105). -/
def chkReached (s : State) (n : Nat) : Bool :=
  if n < 16 then barsServed s else decide (n < 48) && hubRuns s && !(getRegion s ((n - 16) / 2)).inReset

/-- What a read of a unit answers: to the host from a hub unit, to Pygrim from a region controller's. -/
def chkAnswer (s : State) (n : Nat) (b : Bytes) : State :=
  if n < 16 then hostRead s b else { s with delivered := { status := stOk, data := b, poison := false } }

/-- CHK_START: a write of CHK_CTRLn with START 1. -/
def execChkStart (n : Nat) (value : Word) (s : State) : Host.Outcome State Fault Refusal :=
  .next (if chkReached s n then modChk s n (fun u => chkWriteCtrl u (value ||| 0x100).toNat) else s)

/-- CHK_CTRL_WRITE. -/
def execChkCtrlWrite (n : Nat) (value : Word) (s : State) : Host.Outcome State Fault Refusal :=
  .next (if chkReached s n then modChk s n (fun u => chkWriteCtrl u value.toNat) else s)

/-- CHK_DATA_WRITE. -/
def execChkDataWrite (n offset : Nat) (bytes : Bytes) (s : State) : Host.Outcome State Fault Refusal :=
  .next (if chkReached s n && decide (0x10 ≤ offset) && decide (offset + bytes.length ≤ 0x18) then
      modChk s n (fun u => chkWriteData u offset bytes)
    else s)

/-- CHK_RESULT_READ: every byte is processed, then the register reads. -/
def execChkResultRead (n : Nat) (high : Bool) (s : State) : Host.Outcome State Fault Refusal :=
  .next (if chkReached s n then
      let s1 := modChk s n chkDrain
      let r := chkResult (tget s1.chk n)
      chkAnswer s1 n (toBytes 4 (if high then r / 2 ^ 32 else r))
    else chkAnswer s n (toBytes 4 0xFFFFFFFF))

/-- CHK_OWNER_WRITE. -/
def execChkOwnerWrite (n : Nat) (value : Word) (s : State) : Host.Outcome State Fault Refusal :=
  .next (if chkReached s n then modChk s n (fun u => chkWriteOwner u value.toNat) else s)

end Sys2Proof.Machine
end

