-- ==== Sys2Proof/Machine/Collectives.lean ====
section
/-!
DEFINITION. The reduction engine and the collectives (spec/03_warp_beam_and_knots.md R89 to R92, R100 to R104; WRITEs to
peers under spec/13_weft_links.md R383, R384).
-/
namespace Sys2Proof.Machine

/-! ### The reduction engine (R89, R90) -/

/-- The device address of a partition-1 offset. -/
def collAddr (offset : Nat) : Nat := 0xE008000000 + offset

/-- Bytes of an element: BF16, FP32, INT32. -/
def collElem (fmt : Nat) : Nat := if fmt = 0 then 2 else 4

/-- An element widened for the engine: BF16 to FP32, the others as they are. -/
def widen (fmt c : Nat) : Word := if fmt = 0 then BitVec.ofNat 32 (c * 65536) else BitVec.ofNat 32 c

/-- An accumulated element as it is stored: BF16 rounds once to nearest even; a NaN becomes the default NaN. -/
def narrow (fmt : Nat) (w : Word) : Nat :=
  if fmt = 2 then w.toNat
  else if isNan (valOf w) then (if fmt = 0 then 0x7FC0 else defaultNan.toNat)
  else if fmt = 0 then (encodeFloat fmtBf16 .nearest false (valOf w)).1
  else w.toNat

/-- One combination; the flag says that an INT32 add wrapped. -/
def combine (fmt : Nat) (isMax : Bool) (a b : Word) : Word × Bool :=
  if fmt = 2 then
    if isMax then (if a.toInt < b.toInt then b else a, false)
    else (a + b, decide (a.toInt + b.toInt ≠ (a + b).toInt))
  else if isMax then ((fp32Max a b).1, false)
  else ((fp32Add a b).1, false)

/-- Combine the codes of one element in the order given. -/
def reduceElem (fmt : Nat) (isMax : Bool) : List Nat → Nat × Bool
  | [] => (0, false)
  | c :: t =>
    let r := t.foldl (fun (x : Word × Bool) d =>
      let y := combine fmt isMax x.1 (widen fmt d)
      (y.1, x.2 || y.2)) (widen fmt c, false)
    (narrow fmt r.1, r.2)

/-- Reduce operands given as byte strings, element by element; answers the result and whether an add wrapped. -/
def reduceBytes (fmt : Nat) (isMax : Bool) (n : Nat) (ops : List Bytes) : Bytes × Bool :=
  let sz := collElem fmt
  (List.range n).foldl (fun (t : Bytes × Bool) i =>
    let r := reduceElem fmt isMax (ops.map (fun b => fieldAt b (i * sz) sz))
    (t.1 ++ toBytes sz r.1, t.2 || r.2)) ([], false)

/-! ### Shapes of a collective (R101) -/

/-- Devices of a collective. -/
def collN (d : CollDef) : Nat := d.peers.length + 1

/-- The rank of peer entry i. -/
def peerRank (d : CollDef) (i : Nat) : Nat := if i < d.rank then i else i + 1

/-- Elements of one share: ELEMENTS / N. -/
def collShare (d : CollDef) : Nat := d.elements / collN d

/-- Whether the device first reduces its local contributors. -/
def collReduces (d : CollDef) : Bool := d.type == 0 || d.type == 1 || d.type == 4

/-- Whether the device receives from peer entry i. -/
def receivesFrom (d : CollDef) (i : Nat) : Bool :=
  match d.type with
  | 3 => peerRank d i == d.root
  | 4 => d.rank == d.root
  | _ => true

/-- Whether the device sends to peer entry i. -/
def sendsTo (d : CollDef) (i : Nat) : Bool :=
  match d.type with
  | 3 => d.rank == d.root
  | 4 => d.rank != d.root && peerRank d i == d.root
  | _ => true

/-- Elements that one peer sends another. -/
def sentElements (d : CollDef) : Nat := if d.type = 1 then collShare d else d.elements

/-- The peer entries in schedule order: from this device's rank on around the ring, or ascending in a tree. -/
def peerOrder (d : CollDef) : List Nat :=
  let all := List.range d.peers.length
  if d.tree then all else all.drop d.rank ++ all.take d.rank

/-! ### WRITEs to a peer (R383) -/

/-- The WRITE messages of consecutive blocks, 15 at most in each: address and blocks. -/
def writeParts : Nat → Nat → Bytes → List (Nat × Bytes)
  | 0, _, _ => []
  | fuel + 1, a, b => if b.isEmpty then [] else (a, b.take 3840) :: writeParts fuel (a + 3840) (b.drop 3840)

/-- The blocks of data that leave for a peer, as they stand at weft link transmit (R71, R74); data whose message crosses no
link meets no exit. -/
def weftExit (s : State) (finds : Findings) (device addr : Nat) (data : Bytes) (poison : Bool) : State × List BlockRead :=
  let blocks := (List.range (data.length / 256)).map (fun j =>
    ({ blk := addr / 256 + j, data := (data.drop (256 * j)).take 256, poison := poison, restarted := true, failed := false } : BlockRead))
  match routeOf s { dest := device, src := (ownDevice s).getD 0, kind := mkWrite } with
  | .link l _ => exitBlocks s finds (.weft l) blocks
  | _ => (s, blocks)

/-- Send one WRITE of an issuer and note its token until the WACK (R384). -/
def sendWrite (s : State) (i : Issuer) (device addr : Nat) (blocks : List BlockRead) : State :=
  let n := blocks.length
  let data := blocks.flatMap (·.data)
  let poison := sumOf ((List.zip (List.range n) blocks).map (fun e => b2n e.2.poison * 2 ^ e.1))
  let tok := s.weft.nextToken
  let s1 : State := { s with weft := { s.weft with
    nextToken := (tok + 1) % 65536, writes := s.weft.writes ++ [{ token := tok, issuer := i, device := device }] } }
  sendMsg s1 { dest := device, src := (ownDevice s).getD 0, kind := mkWrite, vc := 0
               spec := BitVec.ofNat 128 (addr + (n - 1) * 2 ^ 40 + poison * 2 ^ 44 + tok * 2 ^ 64)
               body := data }

/-- Send data to peer entry i: WRITEs to the peer's slot and an ARRIVE on the peer knot that follows their WACKs. The entry
names the slot and the knot that this device receives on (R101, R354), and the manual does not say where the peer's lie: the
WRITEs go to that offset of the peer's partition 1 and the ARRIVE to that knot number there (DESIGN CHOICE, log 107). -/
def sendToPeer (s : State) (finds : Findings) (n : Nat) (d : CollDef) (i : Nat) (data : Bytes) (poison lagging : Bool) : State :=
  match d.peers[i]? with
  | none => s
  | some (dev, knot, slot) =>
    let whole := padTo (ceilDiv data.length 256 * 256) data
    let s1 := (writeParts (whole.length / 3840 + 1) (collAddr slot) whole).foldl
      (fun t p =>
        let e := weftExit t finds dev p.1 p.2 poison
        let t1 : State := { e.1 with colls := tmod e.1.colls n (fun c => { c with run := c.run.map (fun r => { r with
          poisoned := r.poisoned || anyPoison e.2, failed := r.failed || anyFailed e.2 }) }) }
        sendWrite t1 (.reduction n) dev p.1 e.2) s
    remoteKnotOp (clearThrottled s1 (.reduction n)) (.reduction n) i dev knot
      (.arrive 1 (arriveLag s (.reduction n) lagging))

/-! ### The steps of a run (R102) -/

def getColl (s : State) (n : Nat) : Coll := tget s.colls n
def modRun (s : State) (n : Nat) (f : CollRun → CollRun) : State :=
  { s with colls := tmod s.colls n (fun c => { c with run := c.run.map f }) }

/-- The wake of a collective's WAIT: tag 0 for the contribution knot, i + 1 for peer entry i. -/
def collWake (s : State) (n tag : Nat) : Option Wake := firstThat (fun w => w.issuer == .reduction n && w.tag == tag) s.wakes

/-- Whether every peer that sends to this device has been reduced in and every WRITE sent is acknowledged. -/
def collDone (s : State) (n : Nat) (d : CollDef) (r : CollRun) : Bool :=
  r.reduced && ((List.range d.peers.length).filter (receivesFrom d)).all r.peersDone.contains
    && !s.weft.writes.any (fun w => w.issuer == .reduction n)

/-- End a run (R102, step 5; R355): the engine ARRIVEs the result knot by 1 and COLL_START replies. -/
def collCheck (s : State) (n : Nat) : State :=
  match (getColl s n).def?, (getColl s n).run with
  | some d, some r =>
    if collDone s n d r then
      let s1 : State := { s with
        colls := tmod s.colls n (fun c => { c with run := none })
        wakes := s.wakes.filter (fun w => w.issuer != .reduction n) }
      let s2 := arriveKnot s1 (.reduction n) d.resultKnot 1 false
      finish s2 r.packet (if r.failed then stCheckFail else if r.poisoned then stPoison else stOk)
        (if r.poisoned || r.failed then [] else toBytes 4 (b2n r.overflow + 2 * b2n r.lagging))
    else s
  | _, _ => s

/-- Where the own data of a run goes in the result slot: its offset there, and the part of the data (R101). -/
def ownPart (d : CollDef) (data : Bytes) : Option (Nat × Bytes) :=
  let sz := collElem d.fmt
  match d.type with
  | 1 => some (0, (data.drop (d.rank * collShare d * sz)).take (collShare d * sz))
  | 2 => some (d.rank * d.elements * sz, data)
  | 3 => if d.rank = d.root then some (0, data) else none
  | 4 => if d.rank = d.root then some (0, data) else none
  | _ => some (0, data)

/-- What goes to peer entry i. -/
def peerPart (d : CollDef) (i : Nat) (data : Bytes) : Bytes :=
  if d.type = 1 then
    let sz := collShare d * collElem d.fmt
    (data.drop (peerRank d i * sz)).take sz
  else data

/-- Poison the whole result slot (R75). -/
def poisonResult (s : State) (d : CollDef) : State :=
  let n := (if d.type = 1 then collShare d else if d.type = 2 then collN d * d.elements else d.elements) * collElem d.fmt
  (blocksOf (collAddr d.resultOffset) n).foldl poisonBlock s

/-- A list of numbers that orders 0 to n − 1. -/
def isOrder (n : Nat) (l : List Nat) : Bool := l.length == n && (List.range n).all l.contains

/-- Whether this device's own contribution enters the result: of a broadcast, the root's alone (R101). -/
def contributes (d : CollDef) : Bool := d.type != 3 || d.rank == d.root

/-- COLL_REDUCE (Table 03-6, steps 2 to 4): once the contribution knot met its target, the local slots are reduced, in an
order the hardware does not fix (R92), and the partial goes to the peers. One contributor's slot is copied (R89). -/
def collReduce (n : Nat) (order : List Nat) (finds : Findings) (s : State) : State :=
  match (getColl s n).def?, (getColl s n).run, collWake s n 0 with
  | some d, some r, some w =>
    if r.reduced then s
    else
      let len := d.elements * collElem d.fmt
      let k := d.contributors.length
      let ord := if isOrder k order then order else List.range k
      let rd := if contributes d then
          readBlocks s finds (blocksOfRanges (d.contributors.map (fun o => (((collAddr o : Nat) : Int), len))))
        else (s, [])
      let ops := ord.map (fun i => bytesFrom rd.2 (collAddr (d.contributors.getD i 0)) len)
      let red := reduceBytes d.fmt d.opMax d.elements ops
      let poison := anyPoison rd.2
      let writes := (ownPart d red.1).isSome
      let lag := r.lagging || w.lagging
      let s1 := match ownPart d red.1 with
        | none => rd.1
        | some (off, b) =>
          (writeRange rd.1 finds (collAddr (d.resultOffset + off)) b true poison).1
      let s2 := if poison && writes then poisonResult s1 d else s1
      let s3 := modRun s2 n (fun x => { x with
        reduced := true, overflow := x.overflow || red.2, lagging := lag, poisoned := x.poisoned || poison
        failed := x.failed || anyFailed rd.2 })
      let s4 := ((peerOrder d).filter (sendsTo d)).foldl (fun t i => sendToPeer t finds n d i (peerPart d i red.1) poison lag) s3
      collCheck s4 n
  | _, _, _ => s

/-- COLL_PEER_REDUCE (Table 03-6, step 4): a peer's data has arrived in its slot and is reduced in or copied. -/
def collPeerReduce (n i : Nat) (finds : Findings) (s : State) : State :=
  match (getColl s n).def?, (getColl s n).run, collWake s n (i + 1) with
  | some d, some r, some w =>
    if !r.reduced || r.peersDone.contains i || !receivesFrom d i then s
    else match d.peers[i]? with
      | none => s
      | some (_, _, slot) =>
        let cnt := sentElements d
        let len := cnt * collElem d.fmt
        let at_ := if d.type = 2 then peerRank d i * len else 0
        let dst := collAddr (d.resultOffset + at_)
        let rp := readRange s finds (collAddr slot) len
        let rr := if collReduces d then readRange rp.1 finds dst len else (rp.1, rp.2)
        let red := reduceBytes d.fmt d.opMax cnt (if collReduces d then [rr.2.data, rp.2.data] else [rp.2.data])
        let poison := r.poisoned || anyPoison rp.2.blocks || anyPoison rr.2.blocks
        let s1 := (writeRange rr.1 finds dst red.1 true poison).1
        let s2 := if poison then poisonResult s1 d else s1
        collCheck (modRun s2 n (fun x => { x with
          peersDone := x.peersDone ++ [i], overflow := x.overflow || red.2, lagging := x.lagging || w.lagging
          poisoned := x.poisoned || poison
          failed := x.failed || anyFailed rp.2.blocks || anyFailed rr.2.blocks })) n
  | _, _, _ => s

/-- A collective ends as an ABORT ends it (R104): ST_ABORTED, its waits removed, its result slot undefined. -/
def collAbort (s : State) (n status : Nat) : State :=
  match (getColl s n).def?, (getColl s n).run with
  | some d, some r =>
    let len := (if d.type = 1 then collShare d else if d.type = 2 then collN d * d.elements else d.elements) * collElem d.fmt
    let s1 := scramble (dropWaits s (· == .reduction n)) (collAddr d.resultOffset) len
    let s2 : State := { s1 with
      colls := tmod s1.colls n (fun c => { c with run := none })
      wakes := s1.wakes.filter (fun w => w.issuer != .reduction n)
      weft := { s1.weft with writes := s1.weft.writes.filter (fun w => w.issuer != .reduction n) } }
    fail s2 r.packet status 0 8
  | _, _ => s

/-! ### The rows of the table -/

/-- COLL_REDUCE. -/
def execCollReduce (coll : Nat) (order : List Nat) (finds : Findings) (s : State) : Host.Outcome State Fault Refusal :=
  .next (collReduce coll order finds s)

/-- COLL_PEER_REDUCE. -/
def execCollPeerReduce (coll peer : Nat) (finds : Findings) (s : State) : Host.Outcome State Fault Refusal :=
  .next (collPeerReduce coll peer finds s)

end Sys2Proof.Machine
end

