-- ==== Sys2Proof/Machine/Packets.lean ====
section
/-!
DEFINITION. Command packets (spec/11_host_interface.md R317, R320 to R324, R326; spec/12_command_reference.md R327 to R339,
R361): their fields, the checks at acceptance, when a command may begin, broadcast waits (spec/13_weft_links.md R396),
and the transport of replies to their source.
-/
namespace Sys2Proof.Machine

/-! ### Fields of a packet (Table 11-9, R327) -/

/-- A buffer descriptor (Table 11-11). -/
structure Buf where
  addr : Nat
  len : Nat
  host : Bool
deriving DecidableEq, Repr, Inhabited

/-- The buffer descriptor at an offset of some bytes. -/
def bufAt (b : Bytes) (off : Nat) : Buf :=
  { addr := fieldAt b off 8, len := fieldAt b (off + 8) 4, host := bitOf (fieldAt b (off + 12) 1) 0 }

/-- The buffer at packet offset 0x10, 0x20. -/
def bufA (k : Packet) : Buf := bufAt k.args 0
def bufB (k : Packet) : Buf := bufAt k.args 16

/-- An ARGS field by packet offset. -/
def argAt (k : Packet) (off n : Nat) : Nat := fieldAt k.args (off - 0x10) n

/-- `n` one bits from bit position `lo` of byte `off` of ARGS on. -/
def ones (off lo n : Nat) : Nat := (2 ^ n - 1) * 2 ^ (8 * off + lo)

/-- The bits that a buffer descriptor defines. -/
def bufMask (off : Nat) : Nat := ones off 0 64 + ones (off + 8) 0 32 + ones (off + 12) 0 1

/-- The ARGS bits that each opcode defines, from packet offset 0x10 on; none for an unknown opcode (Tables 12-4 to 12-13). -/
def argMask (op : Nat) : Option Nat :=
  match op with
  | 0x0101 => some (bufMask 0 + ones 16 0 1)
  | 0x0102 => some (bufMask 0 + ones 16 0 17 + ones 20 0 16)
  | 0x0103 => some (ones 0 0 1)
  | 0x0104 => some 0
  | 0x0201 => some (ones 0 0 2 + ones 1 0 8 + ones 2 0 16 + ones 4 0 32)
  | 0x0202 => some (bufMask 0)
  | 0x0203 => some (ones 0 0 32)
  | 0x0204 => some (ones 0 0 32 + ones 4 0 9 + ones 8 0 32)
  | 0x0205 => some 0
  | 0x0206 => some 0
  | 0x0207 => some 0
  | 0x0208 => some 0
  | 0x0301 => some (ones 0 0 17 + ones 4 0 64)
  | 0x0302 => some (ones 0 0 17 + ones 4 0 64)
  | 0x0303 => some (ones 0 0 17 + ones 4 0 64)
  | 0x0304 => some (bufMask 0)
  | 0x0401 => some (bufMask 0 + bufMask 16)
  | 0x0402 => some (bufMask 0 + bufMask 16)
  | 0x0403 => some (ones 0 0 32 + bufMask 16)
  | 0x0404 => some (bufMask 0 + bufMask 16)
  | 0x0501 => some (ones 0 0 1 + ones 4 0 18 + ones 8 0 48)
  | 0x0502 => some (ones 0 0 1 + ones 4 0 18 + ones 8 0 48)
  | 0x0503 => some (ones 0 0 1 + ones 4 0 18 + ones 8 0 48 + ones 16 0 32)
  | 0x0504 => some (ones 0 0 1 + ones 4 0 18)
  | 0x0601 => some (ones 0 0 8 + ones 1 0 4 + ones 2 0 24 + ones 8 0 64 + ones 16 0 48)
  | 0x0602 => some 0
  | 0x0701 => some (ones 0 0 5 + bufMask 16)
  | 0x0801 => some (ones 0 0 32 + bufMask 16)
  | 0x0802 => some (ones 0 0 64)
  | 0x0803 => some (ones 0 0 32)
  | 0x0804 => some 0
  | 0x0805 => some 0
  | 0x0901 => some (bufMask 0)
  | 0x0902 => some (bufMask 0)
  | 0x0903 => some 0
  | 0x0904 => some (ones 0 0 256 + ones 32 0 32)
  | 0x0905 => some (bufMask 0)
  | 0x0906 => some (ones 0 0 1 + ones 4 0 18)
  | 0x0A01 => some (ones 0 0 3 + ones 4 0 32)
  | 0x0A02 => some (ones 0 0 32 + ones 4 0 7)
  | 0x0A03 => some (ones 0 0 64 + bufMask 16)
  | 0x0A04 => some (ones 0 0 3 + ones 4 0 32)
  | 0x0B01 => some (ones 0 0 1 + ones 4 0 32 + ones 8 0 4 + ones 12 0 16 + ones 16 0 64)
  | 0x0B02 => some (ones 0 0 96)
  | _ => none

/-- Whether an opcode uses CONTEXT: classes 0x01 to 0x03, 0x05 and 0x06. -/
def usesContext (op : Nat) : Bool :=
  op / 256 == 1 || op / 256 == 2 || op / 256 == 3 || op / 256 == 5 || op / 256 == 6

/-- Whether an opcode defines parameter blocks. -/
def usesParams (op : Nat) : Bool := op == 0x0102 || op == 0x0402 || op == 0x0601 || op == 0x0904

/-- The buffer descriptors that a packet carries. -/
def buffersOf (op : Nat) (args params : Bytes) : List (Bytes × Nat) :=
  if op = 0x0401 ∨ op = 0x0402 ∨ op = 0x0404 then [(args, 0), (args, 16)]
  else if op = 0x0403 ∨ op = 0x0701 ∨ op = 0x0801 ∨ op = 0x0A03 then [(args, 16)]
  else if op = 0x0101 ∨ op = 0x0102 ∨ op = 0x0202 ∨ op = 0x0304 ∨ op = 0x0901 ∨ op = 0x0902 ∨ op = 0x0905 then [(args, 0)]
  else if op = 0x0904 then [(params, 0)]
  else []

/-- Whether a buffer's reserved bits are 0: with HOST 0, ADDR has 40 bits. -/
def bufferOk (b : Bytes × Nat) : Bool :=
  let u := bufAt b.1 b.2
  (u.host || decide (u.addr < 2 ^ 40)) && decide (fieldAt b.1 (b.2 + 12) 4 < 2)

/-! ### Acceptance (R321) -/

/-- Whether a packet's source is another device or a broadcast. -/
def fromWeft : Source → Bool
  | .manager _ _ _ => true
  | .bcast _ => true
  | .neighbour _ _ => true
  | _ => false

/-- The status that R321 gives a packet's bytes, in its order; ST_OK when it may go on. Reserved bytes whose place depends on more
than the packet, after the weave of MODEL_PLACE and in the blocks of COLL_DEFINE, are checked by those commands. The reserved bits of the header
of a TOPOLOGY_SET whose table lies in the message body are checked as of any other (R398). -/
def packetStatus (src : Source) (b : Bytes) : Nat :=
  let op := fieldAt b 0 2
  let args := (b.drop 0x10).take 44
  let blocks := fieldAt b 0x0C 1 % 64
  let params := (b.drop 64).take (64 * blocks)
  if crc32c (b.take 0x3C ++ params) ≠ fieldAt b 0x3C 4 then stCheckFail
  else if 4 ≤ fieldAt b 2 2 ∨ 64 ≤ fieldAt b 0x0C 1 ∨ fieldAt b 0x0D 3 ≠ 0 then stBadPacket
  else match argMask op with
    | none => stBadPacket
    | some m =>
      if Nat.lor (leNat args) m ≠ m then stBadPacket
      else if ¬ usesContext op ∧ fieldAt b 8 4 ≠ 0 then stBadPacket
      else if ¬ usesParams op ∧ blocks ≠ 0 then stBadPacket
      else if op = 0x0904 ∧ allZero (params.drop 16) = false then stBadPacket
      else if ¬ (buffersOf op args params).all bufferOk then stBadPacket
      else if fromWeft src ∧ (buffersOf op args params).any (fun u => (bufAt u.1 u.2).host) then stBadPacket
      else stOk

/-- The opcodes that an orderly stop lets execute (R332). -/
def thermalOk (op : Nat) : Bool := [0x0801, 0x0804, 0x0A03, 0x0A01, 0x0A02, 0x0805].contains op

/-- The opcodes that execute while the device is not ready (R361). -/
def topologyOk (op : Nat) : Bool := [0x0905, 0x0904, 0x0801, 0x0A03, 0x0A01, 0x0A02, 0x0B02].contains op

/-- The status that the state of the whole device gives an opcode: an orderly stop (R332), the selvedge hold (R361). -/
def deviceStatus (s : State) (op : Nat) : Nat :=
  if s.thermal.stop ≠ 0 ∧ ¬ thermalOk op then stThermal
  else if ¬ s.pcie.ready ∧ ¬ topologyOk op then stTopology
  else stOk

/-- The packet that bytes spell. -/
def packetOf (id : Nat) (src : Source) (b : Bytes) (sqHead cq : Nat) : Packet :=
  let blocks := fieldAt b 0x0C 1 % 64
  { id := id, src := src, opcode := fieldAt b 0 2, fence := bitOf (fieldAt b 2 2) 0, irq := bitOf (fieldAt b 2 2) 1
    tag := fieldAt b 4 4, context := fieldAt b 8 4, args := padTo 44 ((b.drop 0x10).take 44)
    params := if fieldAt b 0 2 = 0x0905 ∧ fromWeft src = true then b.drop 64 else (b.drop 64).take (64 * blocks)
    sqHead := sqHead, cq := cq }

/-- Accept a packet (R321, R385): it joins the packets in flight, answered at once when a check fails. `allowed` is the
status that its source's authority gives it, and `addr` where it was read. -/
def acceptPacket (s : State) (src : Source) (b : Bytes) (sqHead cq addr allowed : Nat) : State :=
  let k := packetOf s.nextPacket src b sqHead cq
  let st := packetStatus src b
  let refusal :=
    if st = stCheckFail then st
    else if allowed ≠ stOk then allowed
    else if st ≠ stOk then st
    else deviceStatus s k.opcode
  let answer : Option Answer :=
    if refusal = stOk then none else some { status := refusal, result := padTo 16 (failResult 0 0 0) }
  let s1 : State := { s with packets := s.packets ++ [{ k with answer := answer }], nextPacket := s.nextPacket + 1 }
  if st = stCheckFail then recordPcie s1 0x0503 .contained addr 0 stCheckFail else s1

/-! ### When a command begins (R317, R333 to R335) -/

/-- Whether a packet has neither begun nor been answered. -/
def waitsToStart (k : Packet) : Bool := k.answer.isNone && !k.started && !k.away

/-- The packets fetched before one. -/
def before (p : Nat) : List Packet → List Packet
  | [] => []
  | k :: t => if k.id = p then [] else k :: before p t

/-- Whether two packets name one object whose commands keep fetch order: a sequence, a model slot, or a knot from one
source. -/
def sameObject (a b : Packet) : Bool :=
  let seq (k : Packet) : Bool := (k.opcode / 256 == 2 && k.opcode != 0x0201) || k.opcode / 256 == 3
  let slot (k : Packet) : Bool := k.opcode / 256 == 1 || k.opcode == 0x0201
  let knot (k : Packet) : Bool := k.opcode == 0x0501 || k.opcode == 0x0502 || k.opcode == 0x0503
  a.context == b.context
    && ((seq a && seq b) || (slot a && slot b) || (knot a && knot b && a.src == b.src))

/-- Sources of one ring or one manager are one source for FENCE and ABORT. -/
def sameSource (a b : Source) : Bool :=
  match a, b with
  | .ring p, .ring q => p == q
  | .manager d _ _, .manager e _ _ => d == e
  | .bcast _, .bcast _ => true
  | .neighbour l _, .neighbour m _ => l == m
  | .mailbox m, .mailbox n => m == n
  | _, _ => false

/-- Whether a FENCE of its source holds a packet back (R317): a packet of one source starts after every earlier one has started,
and one with FENCE after every earlier one has written its reply, so an earlier FENCE that still waits holds back what follows. -/
def fenceHolds (s : State) (k : Packet) : Bool :=
  let mine := (before k.id s.packets).filter (fun j => sameSource j.src k.src)
  (mine ++ [k]).any (fun j => j.fence && (before j.id s.packets).any (fun i => sameSource i.src k.src))

/-- Whether a packet's earlier packets let its command take effect: no FENCE holds it back, and no earlier command on its object
has yet to begin. Without a FENCE a packet starts with those before it, whenever its effect comes (R317). -/
def mayStart (s : State) (k : Packet) : Bool :=
  !fenceHolds s k && !(before k.id s.packets).any (fun j => waitsToStart j && sameObject j k)

/-- The region controller that leads the model of a SEQ_ command (Table 12-3): that of the weave's first block. -/
def commandLead (s : State) (k : Packet) : Option Nat :=
  if k.opcode / 256 ≠ 2 then none
  else
    let sl := getSlot s (if k.opcode = 0x0201 then k.context else (getSeq s k.context).modelSlot)
    sl.weave.head?.map (· / 8)

/-- Run a command of a packet in flight when it may begin; its packet gets the status of the whole device where that
stops it, ST_TARGET_IN_RESET while its serving controller is in reset (R339), and otherwise the command's own effect. -/
def runCmd (s : State) (p op : Nat) (f : Packet → State) : State :=
  match getPacket s p with
  | none => s
  | some k =>
    if k.opcode != op || !waitsToStart k || !mayStart s k || !hubRuns s then s
    else if deviceStatus s op ≠ stOk then fail s p (deviceStatus s op)
    else if (commandLead s k).any (fun r => (getRegion s r).inReset) then fail s p stInReset
    else f k

/-- A command that began and waits goes on. -/
def onStarted (s : State) (p op : Nat) (f : Packet → State) : State :=
  match getPacket s p with
  | none => s
  | some k => if k.opcode == op && k.started && k.answer.isNone && hubRuns s then f k else s

/-! ### Replies -/

/-- The 32 bytes of a reply (Table 11-10). -/
def replyBytes (tag status ring : Nat) (phase : Bool) (sqHead : Nat) (result : Bytes) : Bytes :=
  let b := toBytes 4 tag ++ toBytes 2 status ++ toBytes 2 (ring + b2n phase * 32768) ++ toBytes 2 sqHead ++ toBytes 2 0
    ++ padTo 16 result
  b ++ toBytes 4 (crc32c b)

/-- The device address of a Warp Beam offset. -/
def wbAddr (offset : Nat) : Nat := 0xE000000000 + offset

/-- Entries of a completion ring, slots of a submission ring (R312). -/
def cqSize (c : Cq) : Nat := 2 ^ c.sizeLog2.toNat
def sqSize (q : Sq) : Nat := 2 ^ q.sizeLog2.toNat

/-- Write a reply into the next entry of a completion ring (R318) and signal it (R319). -/
def writeCq (s : State) (ring cq : Nat) (k : Packet) (a : Answer) : State :=
  let c := tget s.cqs cq
  let b := replyBytes k.tag a.status ring c.phase k.sqHead a.result
  let at_ := c.base.toNat + 32 * c.tail.toNat
  let s1 : State := if c.loc then composeAt s (wbAddr at_) b else sendHost s (.memWrite at_ b false)
  let wraps := c.tail.toNat + 1 = cqSize c
  let n := c.unsignalled + 1
  let fire := c.irqEn && (k.irq || decide (Nat.max 1 (c.coalesce.toNat % 256) ≤ n))
  let s2 := modCq s1 cq (fun x => { x with
    tail := if wraps then 0 else x.tail + 1, phase := if wraps then !x.phase else x.phase
    reserved := x.reserved - 1, unread := x.unread + 1, unsignalled := if fire then 0 else n })
  if fire then sendVector s2 c.vector.toNat else s2

/-- A wake that cannot be delivered is discarded, with a record that names the waiter's device and knot, and a WAKE_LOST
notice (R98, R397). -/
def wakeLost (s : State) (device knot : Nat) : State :=
  let s1 := recordHub s 0x0406 .contained (device * 65536 + knot) 0 stTopology
  sendNotice s1 7 0 stTopology (lastRecord s1)

/-- A worker's REPLY to a packet (R326, R394, R395): an ordered one is kept until the manager acknowledges it. -/
def sendReply (s : State) (device num : Nat) (ordered : Bool) (k : Packet) (a : Answer) : State :=
  let m : Msg := { dest := device, src := (ownDevice s).getD 0, kind := mkReply, vc := 1
                   spec := BitVec.ofNat 128 (num + b2n ordered * 65536)
                   body := replyBytes k.tag a.status 0 false 0 a.result }
  let s1 : State := if ordered then { s with weft := { s.weft with kept := s.weft.kept ++ [(num, m, 0)] } } else s
  if k.opcode = 0x0503 ∧ a.status = stOk ∧ routeOf s m = .lost then wakeLost s1 device k.context else sendMsg s1 m

/-- The reply to a LINK_LOCAL packet goes back on its link. -/
def replyNeighbour (s : State) (link num : Nat) (k : Packet) (a : Answer) : State :=
  if linkInService s link then
    queueMsg s link { src := (ownDevice s).getD 0, kind := mkReply, linkLocal := true, vc := 1
                      spec := BitVec.ofNat 128 num, body := replyBytes k.tag a.status 0 false 0 a.result }
  else recordDie s (link / 4) 0x0603 .contained 0

/-! ### Broadcast waits (R396) -/

/-- RESULT of a combined reply (Table 13-10), and its STATUS. -/
def combinedAnswer (w : BcastWait) : Answer :=
  { status := if w.fail = 0 then stOk else w.firstStatus
    result := toBytes 4 w.ok ++ toBytes 4 w.fail ++ toBytes 4 w.firstFail ++ toBytes 4 w.firstStatus }

/-- Count a part of the subtree: the lowest-numbered failing device stands as FIRST_FAIL. -/
def bcastCount (w : BcastWait) (ok failed first status : Nat) : BcastWait :=
  let lower := decide (0 < failed) && (w.fail == 0 || decide (first < w.firstFail))
  { w with
    ok := w.ok + ok, fail := w.fail + failed
    firstFail := if lower then first else w.firstFail, firstStatus := if lower then status else w.firstStatus }

/-- Answer upward, or to the ring, once this device and every child are counted. -/
def bcastFinish (s : State) (index : Nat) : State :=
  match firstThat (fun w => w.index == index) s.weft.bcasts with
  | none => s
  | some w =>
    if w.selfDone && w.children.isEmpty then
      let s1 : State := { s with weft := { s.weft with bcasts := s.weft.bcasts.filter (fun x => x.index != index) } }
      let a := combinedAnswer w
      match w.origin with
      | some p => finish s1 p a.status a.result
      | none => (treeLinks s 1).foldl (fun t l => queueMsg t l
          { dest := (ownDevice s).getD 0, src := (ownDevice s).getD 0, kind := mkReply, linkLocal := true, vc := 1
            spec := BitVec.ofNat 128 (w.num + 131072), body := replyBytes w.tag a.status 0 false 0 a.result }) s1
    else s

/-- Change a broadcast wait and answer when it is complete. -/
def bcastNote (s : State) (index : Nat) (f : BcastWait → BcastWait) : State :=
  bcastFinish { s with weft := { s.weft with bcasts := modFirst (fun w => w.index == index) f s.weft.bcasts } } index

/-- Forward a broadcast packet on every CHILD link, and begin to wait for the children. -/
def bcastDown (s : State) (origin : Option Nat) (num tag : Nat) (self : Bool) (body : Bytes) : State :=
  let i := s.weft.nextBcast
  let kids := treeLinks s 2
  let s1 := kids.foldl (fun t l => queueMsg t l
    { dest := (s.weft.table.map (leDevice · l)).getD 0, src := (ownDevice s).getD 0, kind := mkPacket, linkLocal := true
      vc := 2, spec := BitVec.ofNat 128 (i + 131072), body := body }) s
  bcastFinish { s1 with weft := { s1.weft with
    nextBcast := (i + 1) % 65536
    bcasts := s1.weft.bcasts ++ [{ index := i, num := num, tag := tag, origin := origin, children := kids, selfDone := !self }] } } i

/-- This device's own answer to a broadcast packet. -/
def bcastSelf (s : State) (index : Nat) (a : Answer) : State :=
  bcastNote s index (fun w =>
    let ok := a.status == stOk
    { bcastCount w (b2n ok) (b2n (!ok)) ((ownDevice s).getD 0) a.status with selfDone := true })

/-! ### Transport of a reply -/

/-- Write the reply of an answered packet to its source and forget the packet. -/
def replyOut (s : State) (k : Packet) (a : Answer) : State :=
  let s1 : State := { s with packets := s.packets.filter (fun j => j.id != k.id) }
  match k.src with
  | .ring q => writeCq s1 q k.cq k a
  | .manager d num ordered => sendReply s1 d num ordered k a
  | .bcast i => bcastSelf s1 i a
  | .neighbour l n => replyNeighbour s1 l n k a
  | .mailbox _ => s1

/-- Whether a packet came from a ring, so that its reply goes to a completion ring. -/
def fromRing : Source → Bool
  | .ring _ => true
  | _ => false

/-- A ring's reply waits, in order with the transfers that wait, until D0 with Bus Master Enable (R305). -/
def holdReply (s : State) (p : Nat) : State :=
  if s.pcie.held.contains (.reply p) then s else { s with pcie := { s.pcie with held := s.pcie.held ++ [.reply p] } }

/-- REPLY_WRITE: of a packet that has its answer; an ABORT's reply follows its target's (R337). -/
def replyWrite (p : Nat) (s : State) : State :=
  match getPacket s p with
  | none => s
  | some k => match k.answer with
    | none => s
    | some a =>
      if (k.follows.bind (getPacket s)).isSome || !hubRuns s then s
      else if fromRing k.src && !hostOpen s then holdReply s p
      else replyOut s k a

/-- What waited goes out: a reply is written now, everything else is sent. -/
def releaseHeld (s : State) (t : PcieTx) : State :=
  match t with
  | .reply p => match getPacket s p with
    | none => s
    | some k => match k.answer with
      | none => s
      | some a => replyOut s k a
  | _ => sendHost s t

/-- Once requests to the host may be sent again, all that waited is sent in its order (R305). -/
def openHost (s : State) : State :=
  if hostOpen s then s.pcie.held.foldl releaseHeld { s with pcie := { s.pcie with held := [] } } else s

/-- REPLY_WRITE. -/
def execReplyWrite (p : Nat) (s : State) : Host.Outcome State Fault Refusal := .next (replyWrite p s)

end Sys2Proof.Machine
end

