-- ==== Sys2Proof/Machine/MemCmds.lean ====
section
/-!
DEFINITION. Memory, knot, collective and check commands (spec/12_command_reference.md R352 to R356; spec/03_warp_beam_and_knots.md
R97 to R102, R108), and the accesses that issuers send to memory (spec/02 R44 to R49, R70 to R78).
-/
namespace Sys2Proof.Machine

/-! ### Buffers -/

/-- What the host returns to a read of `n` bytes; none while it has not returned them, or the read failed: PCIE_READ_FAILED
then ends the command. A read of no bytes needs no host. -/
def hostBytes (s : State) (h : HostData) (n : Nat) : Option Bytes :=
  match h with
  | .bytes b => if (n == 0 || hostOpen s) && decide (n ≤ b.length) then some (b.take n) else none
  | .failed _ => none

/-- The refusal of a buffer; a host buffer is refused by none of R45 to R47. -/
def bufStatus (s : State) (p : Nat) (write : Bool) (u : Buf) : Nat :=
  if u.host then stOk else accessStatus s (.command p) write u.addr u.len

/-- Whether a buffer's device range waits in a channel queue (R216). -/
def bufWaits (s : State) (u : Buf) : Bool := !u.host && accessWaits s u.addr u.len

/-- The parts of a range by check block: address and length. -/
def blockParts : Nat → Nat → Nat → List (Nat × Nat)
  | 0, _, _ => []
  | fuel + 1, a, n =>
    if n = 0 then [] else
      let m := Nat.min n (256 - a % 256)
      (a, m) :: blockParts fuel (a + m) (n - m)

/-- Whether the block of an address was delivered poisoned. -/
def poisonAt (l : List BlockRead) (a : Nat) : Bool := l.any (fun b => b.blk == a / 256 && b.poison)

/-- Send device data to the host, block by block; poisoned blocks leave poisoned (R76, R324). -/
def toHost (s : State) (r : RangeRead) (src dst n : Nat) : State :=
  (blockParts (n + 1) src n).foldl (fun t p =>
    hostWrite t (dst + (p.1 - src)) ((r.data.drop (p.1 - src)).take p.2) (poisonAt r.blocks p.1)) s

/-- A command's answer with the bytes it moved: RESULT 0x0C, or PROGRESS with a status (R352). -/
def movedAnswer (s : State) (p status n : Nat) : State :=
  if status = stOk then finish s p stOk (toBytes 8 n) else fail s p status 0 0 n

/-- Move device data to a buffer: tags are kept, and data to the host is verified at PCIe transmit (R71). -/
def moveFrom (s : State) (p : Nat) (finds : Findings) (src dst : Buf) : State :=
  let r := issuerRead s (.command p) finds src.addr src.len
  if dst.host then
    let e := exitRange r.1 finds .pcie src.addr src.len r.2
    movedAnswer (toHost e.1 e.2 src.addr dst.addr src.len) p (readStatus e.2.blocks) src.len
  else match placeOf src.addr with
    | .knot _ =>
      let w := writeRange r.1 finds dst.addr r.2.data true false
      movedAnswer w.1 p w.2 src.len
    | _ =>
      let pairs := (List.range src.len).map (fun i => (dst.addr + i, src.addr + i))
      let w := copyBytes r.1 finds r.2.blocks (copyTriples r.2.blocks 256 pairs)
      movedAnswer w.1 p (joinStatus (readStatus r.2.blocks) w.2) src.len

/-- Move bytes that the host or parameter blocks carry into device memory (R69: RESTARTED 0). -/
def moveIn (s : State) (p : Nat) (finds : Findings) (b : Bytes) (dst : Buf) : State :=
  let w := writeRange s finds dst.addr b false false
  movedAnswer w.1 p w.2 b.length

/-- MEM_READ, MEM_WRITE and MEM_COPY: from a buffer to a buffer. -/
def moveBuffers (s : State) (p : Nat) (host : HostData) (finds : Findings) (src dst : Buf) : State :=
  let st := worstStatus [bufStatus s p false src, bufStatus s p true dst]
  if src.len ≠ dst.len ∨ (src.host ∧ dst.host) then fail s p stBadPacket
  else if st ≠ stOk then fail s p st
  else if bufWaits s src || bufWaits s dst then s
  else if src.host then
    match hostBytes s host src.len with
    | none => s
    | some b => moveIn s p finds b dst
  else moveFrom s p finds src dst

/-! ### Memory commands (Table 12-8) -/

/-- MEM_READ. -/
def memRead (p : Nat) (finds : Findings) (s : State) : State :=
  runCmd s p 0x0401 (fun k =>
    if (bufA k).host then fail s p stBadPacket else moveBuffers s p (.bytes []) finds (bufA k) (bufB k))

/-- MEM_WRITE: from a buffer or from the parameter blocks. -/
def memWrite (p : Nat) (host : HostData) (finds : Findings) (s : State) : State :=
  runCmd s p 0x0402 (fun k =>
    let dst := bufB k
    if dst.host then fail s p stBadPacket
    else if k.params.isEmpty then moveBuffers s p host finds (bufA k) dst
    else if leNat (k.args.take 16) ≠ 0 ∨ k.params.length < dst.len ∨ dst.len + 64 ≤ k.params.length then fail s p stBadPacket
    else if bufStatus s p true dst ≠ stOk then fail s p (bufStatus s p true dst)
    else if bufWaits s dst then s
    else moveIn s p finds (k.params.take dst.len) dst)

/-- A pattern repeated over `n` bytes. -/
def pattern (b : Bytes) (n : Nat) : Bytes := (List.range n).map (fun i => b.getD (i % 4) 0)

/-- MEM_FILL: fresh tags, RESTARTED 1. -/
def memFill (p : Nat) (finds : Findings) (s : State) : State :=
  runCmd s p 0x0403 (fun k =>
    let dst := bufB k
    if dst.host then fail s p stBadPacket
    else if bufStatus s p true dst ≠ stOk then fail s p (bufStatus s p true dst)
    else if bufWaits s dst then s
    else
      let w := writeRange s finds dst.addr (pattern (k.args.take 4) dst.len) true false
      movedAnswer w.1 p w.2 dst.len)

/-- MEM_COPY. -/
def memCopy (p : Nat) (host : HostData) (finds : Findings) (s : State) : State :=
  runCmd s p 0x0404 (fun k => moveBuffers s p host finds (bufA k) (bufB k))

/-! ### Knot commands (Table 12-9, R353) -/

/-- The device that a knot command names; none for this one. -/
def remoteTarget (s : State) (k : Packet) : Option Nat :=
  let d := argAt k 0x14 4 % 262144
  if bitOf (argAt k 0x10 4) 0 ∧ ownDevice s ≠ some d then some d else none

/-- Whether a message to a device has a route. -/
def reachable (s : State) (d : Nat) : Bool :=
  match routeOf s { dest := d, src := (ownDevice s).getD 0, kind := mkPacket } with
  | .lost => false
  | _ => true

/-- A knot command's DELTA, signed. -/
def knotDelta (k : Packet) : Int := signed 48 (argAt k 0x18 8 % 2 ^ 48)

/-- A knot command, on the knot of this device or of the device that it names. -/
def knotCommand (p op : Nat) (toOp : Packet → KnotOp) (here : State → Packet → State) (s : State) : State :=
  runCmd s p op (fun k =>
    if 65536 ≤ k.context then fail s p stBadPacket
    else match remoteTarget s k with
      | some d =>
        if !anyLinkLicensed s then fail s p stNotLicensed
        else if !reachable s d then fail s p stTopology
        else remoteKnotOp (markStarted s p) (.command p) 0 d k.context (toOp k)
      | none => here s k)

/-- KNOT_SET. -/
def knotSet (p : Nat) : State → State :=
  knotCommand p 0x0501 (fun k => .set (argAt k 0x18 8)) (fun s k =>
    if k.context < 8192 then fail s p stBadAddress
    else finish (knotStep s k.context (.set (argAt k 0x18 8))) p stOk [])

/-- KNOT_ADD; one from another device with the lagging indication is an ARRIVE (log 30). -/
def knotAdd (p : Nat) : State → State :=
  knotCommand p 0x0502 (fun k => .add (knotDelta k)) (fun s k =>
    if k.context < 8192 then fail s p stBadAddress
    else
      let op : KnotOp := if k.lag then .arrive (argAt k 0x18 8) true else .add (knotDelta k)
      let s1 := knotStep s k.context op
      finish s1 p stOk (toBytes 8 (tget s1.knots k.context).value.toNat))

/-- KNOT_WAIT: it replies when its wake comes. -/
def knotWait (p : Nat) : State → State :=
  knotCommand p 0x0503 (fun k => .wait (argAt k 0x18 8)) (fun s k =>
    waitKnot (markStarted s p) (.command p) k.context (argAt k 0x18 8) 0)

/-- KNOT_WAIT_TIMEOUT: the WAIT is removed. -/
def knotWaitTimeout (p : Nat) (s : State) : State :=
  onStarted s p 0x0503 (fun k =>
    if argAt k 0x20 4 = 0 then s else fail (dropWaits s (· == .command p)) p stBusy)

/-- KNOT_QUERY. -/
def knotQuery (p : Nat) : State → State :=
  knotCommand p 0x0504 (fun _ => .query) (fun s k => finish s p stOk (knotBytes s k.context))

/-! ### Collective commands (R354, R355) -/

/-- The definition that a COLL_DEFINE spells. -/
def collDefOf (k : Packet) : CollDef :=
  let n := argAt k 0x13 1
  let at_ := ceilDiv (4 * n) 8 * 8
  { type := argAt k 0x10 1, opMax := bitOf (argAt k 0x11 1) 0, fmt := argAt k 0x11 1 / 2 % 8, tree := argAt k 0x12 1 == 1
    elements := argAt k 0x18 4, resultOffset := argAt k 0x1C 4, contribKnot := argAt k 0x20 2, resultKnot := argAt k 0x22 2
    rank := argAt k 0x24 1, root := argAt k 0x25 1
    contributors := (List.range n).map (fun i => fieldAt k.params (4 * i) 4)
    peers := (List.range (argAt k 0x14 1)).map (fun i =>
      let e := fieldAt k.params (at_ + 8 * i) 8
      (e % 262144, e / 262144 % 65536, e / 2 ^ 34 % 2 ^ 30 * 256)) }

/-- Elements that the result slot holds. -/
def resultElements (d : CollDef) : Nat :=
  if d.type = 1 then collShare d else if d.type = 2 then collN d * d.elements else d.elements

/-- The slots of a definition in partition 1: offset and bytes. -/
def collSlots (d : CollDef) : List (Nat × Nat) :=
  let sz := collElem d.fmt
  (d.resultOffset, resultElements d * sz) :: d.contributors.map (fun o => (o, d.elements * sz))
    ++ d.peers.map (fun p => (p.2.2, sentElements d * sz))

/-- Whether no two slots of a list share a byte. -/
def slotsApart : List (Nat × Nat) → Bool
  | [] => true
  | a :: t => t.all (fun b => !meets a.1 a.2 b.1 (b.1 + b.2)) && slotsApart t

/-- Whether a definition keeps R100 and R101, and the bytes of its parameter blocks that no field takes are 0 (R327). -/
def collOk (k : Packet) (d : CollDef) : Bool :=
  let n := d.contributors.length
  let bytes := d.elements * collElem d.fmt
  decide (d.type ≤ 4) && decide (d.fmt ≤ 2) && decide (argAt k 0x12 1 ≤ 1) && decide (1 ≤ n) && decide (n ≤ 64)
    && decide (d.rank ≤ d.peers.length)
    && decide (ceilDiv (4 * n) 8 * 8 + 8 * d.peers.length ≤ k.params.length ∨ (d.peers = [] ∧ 4 * n ≤ k.params.length))
    && allZero ((k.params.drop (4 * n)).take (ceilDiv (4 * n) 8 * 8 - 4 * n))
    && allZero (k.params.drop (ceilDiv (4 * n) 8 * 8 + 8 * d.peers.length))
    && (if d.type = 3 ∨ d.type = 4 then decide (d.root < collN d) else d.root == 0)
    && (!(d.type == 2 || d.type == 3) || n == 1)
    && (d.type != 1 || (d.elements % collN d == 0 && collShare d * collElem d.fmt % 256 == 0))
    && (d.type != 2 || bytes % 256 == 0)
    && (collSlots d).all (fun x => decide (x.1 + x.2 ≤ 0x10000000)) && slotsApart (collSlots d)

/-- COLL_DEFINE. -/
def collDefine (p : Nat) (s : State) : State :=
  runCmd s p 0x0601 (fun k =>
    if 256 ≤ k.context then fail s p stBadPacket
    else if (getColl s k.context).run.isSome then fail s p stBusy
    else if argAt k 0x10 1 = 0xFF then finish { s with colls := tset s.colls k.context {} } p stOk []
    else
      let d := collDefOf k
      if collOk k d then finish { s with colls := tset s.colls k.context { def? := some d } } p stOk []
      else fail s p stBadPacket)

/-- COLL_START (R102, R355): the engine waits on the contribution knot and on the knot of each peer that sends to this
device, for the values at the start plus the counts. -/
def collStart (p : Nat) (s : State) : State :=
  runCmd s p 0x0602 (fun k =>
    let n := k.context
    match (getColl s n).def?, (getColl s n).run with
    | some d, none =>
      let at_ (q : Nat) : Nat := (tget s.knots q).value.toNat
      let i : Issuer := .reduction n
      let targets := d.peers.map (fun e => at_ e.2.1 + 1)
      let run : CollRun := { packet := p, contribTarget := at_ d.contribKnot + d.contributors.length, peerTargets := targets }
      let s1 := markStarted { s with wakes := s.wakes.filter (fun w => w.issuer != i) } p
      let s2 : State := { s1 with colls := tset s1.colls n { def? := some d, run := some run } }
      let s3 := waitKnot s2 i d.contribKnot run.contribTarget 0
      ((List.range d.peers.length).filter (receivesFrom d)).foldl (fun t j =>
        waitKnot t i (d.peers.getD j default).2.1 (targets.getD j 0) (j + 1)) s3
    | _, _ => fail s p stState)

/-! ### CHECK_RUN (R108, R356) -/

/-- The hub unit of a CHECK_RUN: the one it holds, else the lowest-numbered free one (R108). -/
def freeUnit (s : State) (p : Nat) : Option Nat :=
  match firstThat (fun n => (tget s.chk n).command == some p) (List.range 16) with
  | some n => some n
  | none => firstThat (fun n => (tget s.chk n).owner == 0) (List.range 16)

/-- A unit's computation over bytes with the options of CHK_CTRL [4:0]; the unit is free afterwards. -/
def chkOver (u : ChkUnit) (options : Nat) (b : Bytes) : ChkUnit :=
  b.foldl chkByte (chkWriteCtrl { u with owner := 0, command := none } (options % 32 + 256))

/-- CHECK_RUN: while its data waits it holds its unit with owner 0xFFFF. -/
def checkRun (p : Nat) (host : HostData) (finds : Findings) (s : State) : State :=
  runCmd s p 0x0701 (fun k =>
    let src := bufB k
    let st := bufStatus s p false src
    if st ≠ stOk then fail s p st
    else match freeUnit s p with
      | none => fail s p stBusy
      | some n =>
        let done (t : State) (b : Bytes) (status : Nat) : State :=
          let u := chkOver (tget t.chk n) (argAt k 0x10 4) b
          finish (modChk t n (fun _ => u)) p status (toBytes 8 (chkResult u) ++ toBytes 8 b.length)
        let hold := modChk s n (fun u => { u with owner := 0xFFFF, command := some p })
        if bufWaits s src then hold
        else if src.host then
          match hostBytes s host src.len with
          | none => hold
          | some b => done s b stOk
        else
          let r := issuerRead s (.command p) finds src.addr src.len
          done r.1 r.2.data (readStatus r.2.blocks))

/-! ### The rows of the table -/

/-- MEM_READ. -/
def execMemRead (p : Nat) (finds : Findings) (s : State) : Host.Outcome State Fault Refusal := .next (memRead p finds s)

/-- MEM_WRITE. -/
def execMemWrite (p : Nat) (host : HostData) (finds : Findings) (s : State) : Host.Outcome State Fault Refusal :=
  .next (memWrite p host finds s)

/-- MEM_FILL. -/
def execMemFill (p : Nat) (finds : Findings) (s : State) : Host.Outcome State Fault Refusal := .next (memFill p finds s)

/-- MEM_COPY. -/
def execMemCopy (p : Nat) (host : HostData) (finds : Findings) (s : State) : Host.Outcome State Fault Refusal :=
  .next (memCopy p host finds s)

/-- KNOT_SET. -/
def execKnotSet (p : Nat) (s : State) : Host.Outcome State Fault Refusal := .next (knotSet p s)

/-- KNOT_ADD. -/
def execKnotAdd (p : Nat) (s : State) : Host.Outcome State Fault Refusal := .next (knotAdd p s)

/-- KNOT_WAIT, the command. -/
def execKnotWait (p : Nat) (s : State) : Host.Outcome State Fault Refusal := .next (knotWait p s)

/-- KNOT_WAIT_TIMEOUT. -/
def execKnotWaitTimeout (p : Nat) (s : State) : Host.Outcome State Fault Refusal := .next (knotWaitTimeout p s)

/-- KNOT_QUERY. -/
def execKnotQuery (p : Nat) (s : State) : Host.Outcome State Fault Refusal := .next (knotQuery p s)

/-- COLL_DEFINE. -/
def execCollDefine (p : Nat) (s : State) : Host.Outcome State Fault Refusal := .next (collDefine p s)

/-- COLL_START. -/
def execCollStart (p : Nat) (s : State) : Host.Outcome State Fault Refusal := .next (collStart p s)

/-- CHECK_RUN. -/
def execCheckRun (p : Nat) (host : HostData) (finds : Findings) (s : State) : Host.Outcome State Fault Refusal :=
  .next (checkRun p host finds s)

end Sys2Proof.Machine
end

