-- ==== Sys2Proof/Machine/Vector.lean ====
section
/-!
DEFINITION. The vector unit (spec/04 R134, R135, Table 04-7; spec/05 R147 to R153; spec/06 Table 06-14): every VEC_OP
sub-operation and TOPK, each run from the slot that the vector engine issued.
-/
namespace Sys2Proof.Machine

/-- An operand's code as an FP32 word (R148): an INT32 beyond ±2^24 rounds, a signalling NaN stays one. -/
def inputWord (fmt code : Nat) : Word × Exc :=
  if fmt = 0 then (BitVec.ofNat 32 code, {})
  else match decodeElem fmt code with
    | .nan true => (0x7F800001, {})
    | v => toFp32 v

/-- An FP32 result as a code of the destination's format: nearest even, not saturating (R149, R151; log 26). -/
def outputCode (fmt : Nat) (w : Word) : Nat × Exc :=
  if fmt = 0 then (w.toNat, {}) else encodeElem fmt .nearest false (valOf w)

/-- Sticky flags (Table 04-10). -/
def raiseVec (c : Core) (e : Exc) : Core :=
  { c with
    vecIv := c.vecIv || e.iv, vecDz := c.vecDz || e.dz, vecOf := c.vecOf || e.overflow
    vecUf := c.vecUf || e.uf, vecNx := c.vecNx || e.nx }

/-- All exceptions of a list of results. -/
def excAll {α : Type} (l : List (α × Exc)) : Exc := l.foldl (fun t x => excOr t x.2) {}

/-- The words of row (i1, i2) of an operand. -/
def rowWords (blks : List BlockRead) (o : Opd) (i1 i2 : Nat) : List (Word × Exc) :=
  (rowCodes blks o i1 i2).map (inputWord o.fmt)

/-- What a sub-operation does with one row: A's row, plane p of B's row, C's old row. -/
abbrev RowFn := List Word → (Nat → List Word) → List Word → List (Word × Exc)

/-- The outputs of an executed vector descriptor: cells with fresh tags, RESTARTED 1 (R69), poisoned when an input was
(R75), and the sticky flags. -/
def finishVec (s : State) (core : Nat) (finds : Findings) (x : EngSlot) (blks : List BlockRead)
    (cells : List (Nat × Byte)) (e : Exc) : State :=
  let w := writeCells s finds cells true (anyPoison blks)
  let s1 := modCore w.1 core (fun c => raiseVec c e)
  markExecuted s1 core .vector x.index (engineStatus blks w.2)

/-- Run the issued VEC_OP with a sub-operation on every row of A (R134, R177). B's plane is the row's own, or the one
the function names; `useC` reads C first (FMA). -/
def runVec (core : Nat) (finds : Findings) (sub : Nat) (useC : Bool) (f : Nat → RowFn) (s : State) : State :=
  match issuedVec (getCore s core) sub with
  | none => s
  | some x =>
    let d := x.desc
    let a : Opd := { opd16 d 16 with addr := x.addrA }
    let b : Opd := { opd16 d 32 with addr := x.addrB }
    let c : Opd := { opd16 d 48 with addr := x.addrC }
    let ranges := opdRanges a ++ (if subopUsesB sub then opdRanges b else []) ++ (if useC then opdRanges c else [])
    let r := readOperands s core .vector finds ranges
    let rows := (rowIndices a).map (fun p =>
      let ra := rowWords r.2 a p.1 p.2
      let rb : Nat → List (Word × Exc) := fun q => if subopUsesB sub then rowWords r.2 b p.1 q else []
      let rc := if useC then rowWords r.2 c p.1 p.2 else []
      let res := f p.2 (ra.map (·.1)) (fun q => (rb q).map (·.1)) (rc.map (·.1))
      let outs := res.map (fun y => let o := outputCode c.fmt y.1; (o.1, excOr y.2 o.2))
      (rowCells c p.1 p.2 (outs.map (·.1)),
        excOr (excOr (excAll ra) (excAll (rb p.2))) (excOr (excAll rc) (excAll outs))))
    finishVec r.1 core finds x r.2 (rows.flatMap (·.1)) (excAll rows)

/-- An elementwise function of A and B. -/
def zip2 (g : Word → Word → Word × Exc) (i2 : Nat) : RowFn := fun a b _ => List.zipWith g a (b i2)

/-- An elementwise function of A. -/
def map1 (g : Word → Word × Exc) (_i2 : Nat) : RowFn := fun a _ _ => a.map g

/-- C ← A × B + C. -/
def fmaRow (i2 : Nat) : RowFn := fun a b c =>
  List.zipWith (fun (p : Word × Word) z => fp32Fma p.1 p.2 z) (List.zip a (b i2)) c

/-- One level of the fixed pairwise tree in ascending element order (Table 04-7). -/
def pairUp (g : Word → Word → Word × Exc) : List (Word × Exc) → List (Word × Exc)
  | a :: b :: t => (let r := g a.1 b.1; (r.1, excOr (excOr a.2 b.2) r.2)) :: pairUp g t
  | l => l

/-- A word with a NaN made the default NaN (R135). -/
def quietWord (w : Word) : Word × Exc := if isNan (valOf w) then (defaultNan, { iv := isSnan w }) else (w, {})

/-- The pairwise tree: 17 levels reach one value for any extent of 16 bits. -/
def reduceTree (g : Word → Word → Word × Exc) (l : List Word) : List (Word × Exc) :=
  iterate (pairUp g) 17 (l.map quietWord)

/-- A reduction of a row. -/
def reduceRow (g : Word → Word → Word × Exc) (_i2 : Nat) : RowFn := fun a _ _ => reduceTree g a

/-! ### SOFTMAX, RMSNORM and LAYERNORM (Table 04-7, log 14) -/

/-- A value with whether an operation that led to it was invalid. -/
abbrev Exact := Val × Bool

def exOf (w : Word) : Exact := (valOf w, isSnan w)
def exAdd (a b : Exact) : Exact := let r := addVal a.1 b.1; (r.1, r.2 || a.2 || b.2)
def exMul (a b : Exact) : Exact := let r := mulVal a.1 b.1; (r.1, r.2 || a.2 || b.2)
def exSum (l : List Exact) : Exact := l.foldl exAdd (.fin false 0 0, false)
def exNat (n : Nat) : Exact := (.fin false n 0, false)

/-- A quotient to at least 320 bits; 0 / 0, ∞ / ∞ and x / 0 have no number. -/
def exDiv (a b : Exact) : Exact :=
  match a.1, b.1 with
  | .fin na ma ea, .fin nb mb eb =>
    if mb = 0 then (.nan false, true)
    else
      let k := Nat.log2 mb + 320
      (.fin (xor na nb) (ma * 2 ^ k / mb) (ea - eb - k), a.2 || b.2)
  | .fin na _ _, .inf nb => (.fin (xor na nb) 0 0, a.2 || b.2)
  | .inf na, .fin nb _ _ => (.inf (xor na nb), a.2 || b.2)
  | .inf _, .inf _ => (.nan false, true)
  | _, _ => (.nan false, a.2 || b.2)

/-- A square root to at least 320 bits; a negative number has none. -/
def exSqrt (a : Exact) : Exact :=
  match a.1 with
  | .fin neg m e =>
    if m = 0 then a
    else if neg then (.nan false, true)
    else (.fin false (Nat.sqrt ((if e % 2 = 0 then m else 2 * m) * 2 ^ 640)) ((e - e % 2) / 2 - 320), a.2)
  | .inf true => (.nan false, true)
  | _ => a

/-- e^x of x ≤ 0; what lies below every format is a value that rounds to zero. -/
def exExp (a : Exact) : Exact :=
  match a.1 with
  | .inf true => (.fin false 0 0, a.2)
  | .inf false => a
  | .nan _ => a
  | .fin neg m e => (if 10 ≤ leadExp m e ∧ m ≠ 0 then .fin false 1 (-1500) else expVal neg m e, a.2)

/-- The flags that the manual does not state for a row of SOFTMAX, RMSNORM or LAYERNORM (log 14). -/
def openFlags (op : Nat) (row : List Word) : Exc :=
  let f := Config.rowFlags op row
  { iv := false, dz := f[1], overflow := f[2], uf := f[3], nx := f[4] }

/-- One element of such a row: its formula's value within the accuracy that the manual leaves open, the default NaN where it
has none (R135), and a zero or an infinity as they are. -/
def openElem (op : Nat) (cand : Word) (v : Exact) : Word × Exc :=
  match v.1 with
  | .nan _ => (defaultNan, { iv := v.2 })
  | .inf _ => toFp32 v.1
  | .fin _ m _ => if m = 0 then toFp32 v.1 else boundedResult (Config.rowUlps op) cand v.1

/-- A row of values whose rounding the manual leaves open, with its open flags on the first element. -/
def openRow (op : Nat) (row : List Word) (g : Nat → Word) (vals : List Exact) : List (Word × Exc) :=
  (List.zip (List.range vals.length) vals).map (fun e =>
    let r := openElem op (g e.1) e.2
    (r.1, if e.1 = 0 then excOr r.2 (openFlags op row) else r.2))

/-- The larger of two values; a NaN stays. -/
def exMax (a b : Exact) : Exact :=
  if isNan a.1 || isNan b.1 then (.nan false, a.2 || b.2) else (if ltVal a.1 b.1 then b.1 else a.1, false)

/-- exp(x − max) / sum (Table 04-7). -/
def softmaxVals (row : List Word) : List Exact :=
  let m := (row.map exOf).foldl exMax (.inf true, false)
  let es := row.map (fun w => exExp (exAdd (exOf w) (negVal m.1, m.2)))
  let sum := exSum es
  es.map (fun e => exDiv e sum)

/-- SOFTMAX: a row of −∞ gives +0 and no flag (Table 04-7). -/
def softmaxRow (_i2 : Nat) : RowFn := fun a _ _ =>
  if a.all (fun w => w == 0xFF800000) then a.map (fun _ => (0, {})) else openRow 0x18 a (Config.softmax a) (softmaxVals a)

/-- ε of RMSNORM and LAYERNORM: OPX as BF16 (Table 06-14). -/
def epsOf (d : BitVec 512) : BitVec 16 := BitVec.ofNat 16 (dOpx d)

/-- ε of the issued descriptor of a sub-operation. -/
def issuedEps (s : State) (core sub : Nat) : BitVec 16 :=
  match issuedVec (getCore s core) sub with
  | none => 0
  | some x => epsOf x.desc

/-- ε as a value. -/
def epsVal (eps : BitVec 16) : Exact := (decodeFloat fmtBf16 eps.toNat, false)

/-- x · g / √(mean(x²) + ε) (Table 04-7). -/
def rmsnormVals (row gain : List Word) (eps : BitVec 16) : List Exact :=
  let xs := row.map exOf
  let n := exNat row.length
  let total := exAdd (exSum (xs.map (fun x => exMul x x))) (exMul n (epsVal eps))
  let root := exSqrt (exDiv total n)
  List.zipWith (fun x g => exDiv (exMul x (exOf g)) root) xs gain

def rmsnormRow (eps : BitVec 16) (_i2 : Nat) : RowFn := fun a b _ =>
  openRow 0x19 a (Config.rmsnorm a (b 0) eps) (rmsnormVals a (b 0) eps)

/-- (x − mean) · g / √(var + ε) + b (Table 04-7), with n · x − sum in place of x − mean. -/
def layernormVals (row gain bias : List Word) (eps : BitVec 16) : List Exact :=
  let n := exNat row.length
  let sum := exSum (row.map exOf)
  let ds := row.map (fun w => exAdd (exMul n (exOf w)) (negVal sum.1, sum.2))
  let n2 := exMul n n
  let total := exAdd (exSum (ds.map (fun d => exMul d d))) (exMul (exMul n2 n) (epsVal eps))
  let root := exSqrt (exDiv total n)
  List.zipWith (fun p b => exAdd (exDiv (exMul p.1 (exOf p.2)) root) (exOf b)) (List.zip ds gain) bias

def layernormRow (eps : BitVec 16) (_i2 : Nat) : RowFn := fun a b _ =>
  openRow 0x1A a (Config.layernorm a (b 0) (b 1) eps) (layernormVals a (b 0) (b 1) eps)

/-! ### CONVERT (R147 to R153) -/

/-- Scale record fields (Table 06-14). -/
def cvSrcScale (d : BitVec 512) : Nat := bf d 32 17 0
def cvDstScale (d : BitVec 512) : Nat := bf d 32 35 18

/-- A source element's value: INT32 rounds to FP32 (R148), a block scale applies first (R153). That rounding's NX stays where
the target then clamps, which Table 05-4 marks O alone (DESIGN CHOICE, log 113). -/
def convertInput (blks : List BlockRead) (core : Nat) (d : BitVec 512) (a : Opd) (i1 i2 i0 code : Nat) : Val × Exc :=
  let v : Val × Exc :=
    if a.fmt = 0xB then let w := toFp32 (decodeElem a.fmt code); (valOf w.1, w.2) else (decodeElem a.fmt code, {})
  match scaleExp blks core (cvSrcScale d) a (i0 / 32) i1 i2 with
  | none => (.nan false, {})
  | some e => (scaleVal v.1 e, v.2)

/-- The exponent of a target's largest normal (R147). -/
def emaxOf (fmt : Nat) : Int :=
  match fmt with
  | 3 => 8
  | 4 => 15
  | 5 => 4
  | _ => 2

/-- The leading exponents of the nonzero finite values. -/
def leadOf : Val → Option Int
  | .fin _ m e => if m = 0 then none else some (leadExp m e)
  | _ => none

/-- The larger of two optional exponents. -/
def maxLead (a b : Option Int) : Option Int :=
  match a, b with
  | none, y => y
  | x, none => x
  | some x, some y => some (if x < y then y else x)

/-- The scale byte and the codes of one block of a block-scaled target (R147), each value with its draw. -/
def scaledBlock (fmt : Nat) (f : FloatFmt) (vals : List (Val × Rounding)) : Nat × List (Nat × Exc) :=
  if vals.any (fun v => isNan v.1 || isInf v.1) then
    (0xFF, vals.map (fun v => (0, { overflow := isInf v.1 && !f.ieee })))
  else match vals.foldl (fun t v => maxLead t (leadOf v.1)) none with
    | none => (0x7F, vals.map (fun v => encodeFloat f v.2 true v.1))
    | some lead =>
      let x := lead - emaxOf fmt + 127
      let scale : Int := if x < 0 then 0 else if 254 < x then 254 else x
      (scale.toNat, vals.map (fun v => encodeFloat f v.2 true (scaleVal v.1 (127 - scale))))

/-- A list cut into blocks of 32. -/
def blocks32 {α : Type} : Nat → List α → List (List α)
  | 0, _ => []
  | n + 1, l => if l.isEmpty then [] else l.take 32 :: blocks32 n (l.drop 32)

/-- A converted row: scale bytes and codes. -/
def convertRow (c : Opd) (sat : Bool) (vals : List (Val × Rounding)) : List Nat × List (Nat × Exc) :=
  match c.scaled, floatFmt c.fmt with
  | true, some f =>
    let bs := (blocks32 (vals.length / 32 + 1) vals).map (scaledBlock c.fmt f)
    (bs.map (·.1), bs.flatMap (·.2))
  | _, _ => ([], vals.map (fun v => encodeElem c.fmt v.2 sat v.1))

/-- The effect of an issued CONVERT. With stochastic rounding each element takes one draw of the core's generator, in
ascending element order (R150); the generator cannot be read, so the draws are free values (log 8). -/
def convertRun (core : Nat) (finds : Findings) (s : State) : State :=
  match issuedVec (getCore s core) 0x20 with
  | none => s
  | some x =>
    let d := x.desc
    let a : Opd := { opd16 d 16 with addr := x.addrA }
    let c : Opd := { opd16 d 48 with addr := x.addrC }
    let ranges := opdRanges a ++ scaleRange core (cvSrcScale d) a
    let r := readOperands s core .vector finds ranges
    let stochastic := dOpx d % 4 == 1
    let sat := bitOf (dOpx d) 2
    let rows := (rowIndices a).map (fun p =>
      let ins := (List.zip (List.range a.e0) (rowCodes r.2 a p.1 p.2)).map (fun i =>
        convertInput r.2 core d a p.1 p.2 i.1 i.2)
      let start := s.free + (p.2 * a.e1 + p.1) * a.e0
      let vals := (List.zip (List.range a.e0) ins).map (fun i =>
        (i.2.1, if stochastic then Rounding.stochastic (Config.freeBits 16 (start + i.1)).toNat else Rounding.nearest))
      let out := convertRow c sat vals
      let scales := cellsOf (storeBase core + cvDstScale d + (p.2 * c.e1 + p.1) * (c.e0 / 32)) (out.1.map (BitVec.ofNat 8))
      (rowCells c p.1 p.2 (out.2.map (·.1)) ++ scales, excOr (excAll ins) (excAll out.2)))
    let s1 : State := { r.1 with free := r.1.free + (if stochastic then a.e0 * a.e1 * a.e2 else 0) }
    finishVec s1 core finds x r.2 (rows.flatMap (·.1)) (excAll rows)

/-! ### SPLIT (R133) -/

/-- hi and lo of an FP32 element: hi rounds it to BF16, lo rounds the difference. -/
def splitElem (w : Word) : (Nat × Exc) × (Nat × Exc) :=
  let hi := encodeFloat fmtBf16 .nearest false (valOf w)
  let diff := addVal (valOf w) (negVal (decodeFloat fmtBf16 hi.1))
  let lo := encodeFloat fmtBf16 .nearest false diff.1
  ((hi.1, excOr hi.2 { iv := isSnan w }), (lo.1, excOr lo.2 { iv := diff.2 }))

/-- The effect of an issued SPLIT. -/
def splitRun (core : Nat) (finds : Findings) (s : State) : State :=
  match issuedVec (getCore s core) 0x21 with
  | none => s
  | some x =>
    let d := x.desc
    let a : Opd := { opd16 d 16 with addr := x.addrA }
    let c : Opd := { opd16 d 48 with addr := x.addrC }
    let r := readOperands s core .vector finds (opdRanges a)
    let rows := (rowIndices a).map (fun p =>
      let es := (rowCodes r.2 a p.1 p.2).map (fun k => splitElem (BitVec.ofNat 32 k))
      (rowCells c p.1 0 (es.map (·.1.1)) ++ rowCells c p.1 1 (es.map (·.2.1)),
        excOr (excAll (es.map (·.1))) (excAll (es.map (·.2)))))
    finishVec r.1 core finds x r.2 (rows.flatMap (·.1)) (excAll rows)

/-! ### TOPK (Table 06-12, Table 06-14's text) -/

/-- Whether score `a` ranks above score `b`: NaN below every number, −0 equal to +0. -/
def ranksAbove (a b : Word) : Bool :=
  if isNan (valOf a) then false
  else if isNan (valOf b) then true
  else ltVal (valOf b) (valOf a) && !(isZero (valOf a) && isZero (valOf b))

/-- The indices of the k largest scores, descending, equal scores by ascending index; 0xFFFF_FFFF pads. -/
def topkIndices (k : Nat) (scores : List Word) : List Nat :=
  let order := sortBy (fun (p q : Nat × Word) => !ranksAbove q.2 p.2) (List.zip (List.range scores.length) scores)
  let l := (order.map (·.1)).take k
  l ++ List.replicate (k - l.length) 0xFFFFFFFF

/-- The addresses of the elements of an operand in element order. -/
def elemAddrs (o : Opd) : List Nat :=
  (rowIndices o).flatMap (fun p => (List.range o.e0).map (fun i => (elemAddr o i p.1 p.2).1.toNat))

/-- The effect of an issued TOPK. -/
def topkRun (core : Nat) (finds : Findings) (s : State) : State :=
  match issuedSlot (getCore s core) .vector opTopk with
  | none => s
  | some x =>
    let d := x.desc
    let a : Opd := { opd16 d 16 with addr := x.addrA }
    let c : Opd := { opd16 d 48 with addr := x.addrC }
    let r := readOperands s core .vector finds (opdRanges a)
    let scores := (rowIndices a).flatMap (fun p => (rowCodes r.2 a p.1 p.2).map (BitVec.ofNat 32))
    let cells := (List.zip (elemAddrs c) (topkIndices (dOpx d) scores)).flatMap (fun e => cellsOf e.1 (toBytes 4 e.2))
    finishVec r.1 core finds x r.2 cells {}

/-! ### The rows of the table -/

/-- FMA. -/
def execFma (core : Nat) (finds : Findings) (s : State) : Host.Outcome State Fault Refusal :=
  .next (runVec core finds 0x00 true fmaRow s)

/-- ADD. -/
def execVecAdd (core : Nat) (finds : Findings) (s : State) : Host.Outcome State Fault Refusal :=
  .next (runVec core finds 0x01 false (zip2 fp32Add) s)

/-- SUB. -/
def execSub (core : Nat) (finds : Findings) (s : State) : Host.Outcome State Fault Refusal :=
  .next (runVec core finds 0x02 false (zip2 (fun a b => fp32Add a (fp32Neg b))) s)

/-- MUL. -/
def execVecMul (core : Nat) (finds : Findings) (s : State) : Host.Outcome State Fault Refusal :=
  .next (runVec core finds 0x03 false (zip2 fp32Mul) s)

/-- MIN. -/
def execMin (core : Nat) (finds : Findings) (s : State) : Host.Outcome State Fault Refusal :=
  .next (runVec core finds 0x04 false (zip2 fp32Min) s)

/-- MAX. -/
def execVecMax (core : Nat) (finds : Findings) (s : State) : Host.Outcome State Fault Refusal :=
  .next (runVec core finds 0x05 false (zip2 fp32Max) s)

/-- EXP. -/
def execExp (core : Nat) (finds : Findings) (s : State) : Host.Outcome State Fault Refusal :=
  .next (runVec core finds 0x08 false (map1 vecExp) s)

/-- RCP: within 1 ulp. -/
def execRcp (core : Nat) (finds : Findings) (s : State) : Host.Outcome State Fault Refusal :=
  .next (runVec core finds 0x09 false (map1 (vecRcp 1)) s)

/-- RSQRT. -/
def execRsqrt (core : Nat) (finds : Findings) (s : State) : Host.Outcome State Fault Refusal :=
  .next (runVec core finds 0x0A false (map1 vecRsqrt) s)

/-- SILU. -/
def execSilu (core : Nat) (finds : Findings) (s : State) : Host.Outcome State Fault Refusal :=
  .next (runVec core finds 0x0B false (map1 vecSilu) s)

/-- GELU. -/
def execGelu (core : Nat) (finds : Findings) (s : State) : Host.Outcome State Fault Refusal :=
  .next (runVec core finds 0x0C false (map1 vecGelu) s)

/-- REDUCE_SUM. -/
def execReduceSum (core : Nat) (finds : Findings) (s : State) : Host.Outcome State Fault Refusal :=
  .next (runVec core finds 0x10 false (reduceRow fp32Add) s)

/-- REDUCE_MAX. -/
def execReduceMax (core : Nat) (finds : Findings) (s : State) : Host.Outcome State Fault Refusal :=
  .next (runVec core finds 0x11 false (reduceRow fp32Max) s)

/-- SOFTMAX. -/
def execSoftmax (core : Nat) (finds : Findings) (s : State) : Host.Outcome State Fault Refusal :=
  .next (runVec core finds 0x18 false softmaxRow s)

/-- RMSNORM. -/
def execRmsnorm (core : Nat) (finds : Findings) (s : State) : Host.Outcome State Fault Refusal :=
  .next (runVec core finds 0x19 false (rmsnormRow (issuedEps s core 0x19)) s)

/-- LAYERNORM. -/
def execLayernorm (core : Nat) (finds : Findings) (s : State) : Host.Outcome State Fault Refusal :=
  .next (runVec core finds 0x1A false (layernormRow (issuedEps s core 0x1A)) s)

/-- CONVERT. -/
def execConvert (core : Nat) (finds : Findings) (s : State) : Host.Outcome State Fault Refusal :=
  .next (convertRun core finds s)

/-- SPLIT. -/
def execSplit (core : Nat) (finds : Findings) (s : State) : Host.Outcome State Fault Refusal :=
  .next (splitRun core finds s)

/-- TOPK. -/
def execTopk (core : Nat) (finds : Findings) (s : State) : Host.Outcome State Fault Refusal :=
  .next (topkRun core finds s)

end Sys2Proof.Machine
end

