-- ==== Sys2Proof/Machine/Bobbins.lean ====
section
/-!
DEFINITION. Bobbins (spec/08_bobbins.md R212 to R244): the entry checks of a sequence, every micro-operation of
Table 08-5, processor-mode exit and the RMSN barrier. A micro-operation runs in the bank that a slot of the channel
holds; its column cycles count steps (R224).
-/
namespace Sys2Proof.Machine

/-! ### Fields of a micro-operation (Table 08-5) -/

def uCode (u : Word64) : Nat := bitsOf u.toNat 4 0
def uCounter (u : Word64) : Nat := bitsOf u.toNat 8 8
def uCount (u : Word64) : Nat := bitsOf u.toNat 31 16 + 1
def uTarget (u : Word64) : Nat := bitsOf u.toNat 36 32
def uPointer (u : Word64) : Nat := bitsOf u.toNat 9 8
def uWordIndex (u : Word64) : Nat := bitsOf u.toNat 29 16
def uFirst (u : Word64) : Nat := bitsOf u.toNat 11 8
def uRegs (u : Word64) : Nat := bitsOf u.toNat 15 12 + 1
def uRow (u : Word64) : Nat := bitsOf u.toNat 24 16
def uN (u : Word64) : Nat := bitsOf u.toNat 24 16 + 1
def uElem (u : Word64) : Nat := bitsOf u.toNat 40 32
def uFmt (u : Word64) : Nat := bitsOf u.toNat 11 8
def uScaled (u : Word64) : Bool := bitOf u.toNat 12
def uSat (u : Word64) : Bool := bitOf u.toNat 13
def uEps (u : Word64) : BitVec 16 := BitVec.ofNat 16 (bitsOf u.toNat 47 32)

/-- The bits that a micro-operation's fields take; none for a reserved opcode. -/
def uopMask (code : Nat) : Option Nat :=
  match code with
  | 0x00 => some 0x1F
  | 0x01 => some 0x1F
  | 0x02 => some 0x1FFFFF011F
  | 0x03 => some 0x3FFF031F
  | 0x04 => some 0x1FFFF1F
  | 0x05 => some 0x31F
  | 0x06 => some 0x1FF01FF001F
  | 0x07 => some 0x1FF01FF1F1F
  | 0x08 => some 0x1F
  | 0x09 => some 0x1F
  | 0x0A => some 0x1F
  | 0x0B => some 0x1F
  | 0x0C => some 0x2F1F
  | 0x0D => some 0x1F
  | 0x10 => some 0x1F
  | 0x11 => some 0x1F
  | 0x12 => some 0x1FF001F
  | 0x13 => some 0x1FF001F
  | 0x14 => some 0x1FF001F
  | 0x15 => some 0xFFFF01FF001F
  | _ => none

/-- A compatibility operation (R240). -/
def isCompat (u : Word64) : Bool := decide (0x10 ≤ uCode u)

/-- Whether one micro-operation passes the entry checks of Table 08-8. -/
def uopClean (rilavanik : Bool) (len : Nat) (u : Word64) : Bool :=
  match uopMask (uCode u) with
  | none => false
  | some m =>
    Nat.land u.toNat m == u.toNat && (rilavanik || !isCompat u)
      && (uCode u != 0x02 || decide (uTarget u < len))
      && (uCode u != 0x03 || decide (uPointer u < 3))
      && (uCode u != 0x05 || decide (uPointer u < 3))

/-- The micro-operations that one step of control flow adds to a set of reached ones. -/
def reachStep (uops : List Word64) (l : List Nat) : List Nat :=
  (l ++ l.flatMap (fun i => match uops[i]? with
    | none => []
    | some u =>
      if uCode u = 0x01 then []
      else if uCode u = 0x02 ∧ 2 ≤ uCount u then [i + 1, uTarget u]
      else [i + 1])).eraseDups

/-- Whether a run passes the last micro-operation without END (Table 08-8). -/
def passesEnd (uops : List Word64) : Bool := (iterate (reachStep uops) 34 [0]).contains uops.length

/-- The checks of entry step 6. -/
def sequenceOk (rilavanik : Bool) (uops : List Word64) : Bool :=
  uops.all (uopClean rilavanik uops.length) && !passesEnd uops

/-! ### Running a micro-operation -/

/-- What a micro-operation runs on: its channel, bank, row base, NEAR_ROWS, run, bobbin and encoding. -/
structure UopCtx where
  ch : Nat
  bank : Nat
  rowBase : Nat
  nearRows : Nat
  run : BobRun
  b : Bobbin
  u : Word64
deriving DecidableEq, Repr

/-- INVALID, OVERFLOW and WRAP of BOB_STATUS (R230). -/
abbrev BobFlags := ArrFlags

/-- What it leaves: state, bobbin (UPC included), cycles, flags and whether it read poison; or a fault. -/
inductive UopOut where
  | ok (s : State) (b : Bobbin) (cycles : Nat) (flags : BobFlags) (poison : Bool)
  | fault (s : State) (b : Bobbin) (cause status : Nat)

/-- The next micro-operation follows. -/
def stepNext (b : Bobbin) : Bobbin := { b with upc := b.upc + 1 }

/-- Whether column words from `w` on lie in rows below NEAR_ROWS (Table 08-8). -/
def wordsOk (x : UopCtx) (w n : Nat) : Bool := decide (w + n ≤ 32 * x.nearRows) && decide (w + n ≤ 16384)

/-- The near address of a column word of the bank, relative to the row base (R214). -/
def wordAddr (x : UopCtx) (w : Nat) : Nat :=
  x.ch / 8 * 0x4000000 + x.ch % 8 * 0x800000 + x.bank * 0x80000 + (x.rowBase + w / 32) * 1024 + w % 32 * 32

/-- Read blocks inside the bank with their checks; the data crosses no port (R235). Answers whether one is poisoned. -/
def readInBank (s : State) (finds : Findings) (blks : List Nat) : State × Bool :=
  blks.foldl (fun t b =>
    let r := readBlockVia false t.1 finds b
    (r.1, t.2 || r.2.poison)) (s, false)

/-- The check blocks of column words, each once. -/
def wordBlocks (x : UopCtx) (w n : Nat) : List Nat := ((List.range n).map (fun i => wordAddr x (w + i) / 256)).eraseDups

/-- Column words from `w` on that lie in rows below NEAR_ROWS, of `n`. -/
def wordsInside (x : UopCtx) (w n : Nat) : Nat := Nat.min n (Nat.min (32 * x.nearRows) 16384 - w)

/-- Read column words with their checks (R235, R236), as far as they lie in rows that the bobbin may reach (R232). -/
def readWords (s : State) (x : UopCtx) (finds : Findings) (w n : Nat) : State × Bool :=
  readInBank s finds (wordBlocks x w (wordsInside x w n))

/-- The byte `j` of column word `w`. -/
def wordByte (s : State) (x : UopCtx) (w j : Nat) : Byte := readByte s.mem (wordAddr x w + j)

/-- `n` bytes of a column word from byte `j` on. -/
def wordField (s : State) (x : UopCtx) (w j n : Nat) : Nat := leNat (readBytes s.mem (wordAddr x w + j) n)

/-- The column cycles of a micro-operation that a command runs: from the steps already run to the end, or for so many steps
(R224). -/
structure Span where
  lo : Nat
  hi : Nat
  last : Bool
deriving DecidableEq, Repr

/-- The span of a command that runs `steps` steps of a micro-operation of `total` column cycles; 0 runs it to its end. -/
def spanOf (b : Bobbin) (total steps : Nat) : Span :=
  let hi := if steps = 0 then total else Nat.min total (64 * (b.done + steps))
  { lo := 64 * b.done, hi := hi, last := decide (total ≤ hi) }

/-- After a span: the next micro-operation follows, or the next step of this one. -/
def afterSpan (sp : Span) (b : Bobbin) : Bobbin := if sp.last then { stepNext b with done := 0 } else { b with done := sp.hi / 64 }

/-- Whether a row of a bank belongs to a weight range (R169, R233). -/
def weightRow (s : State) (ch bank row : Nat) : Bool :=
  s.slots.any (fun e => (e.2.phase == .placed || e.2.phase == .reload || e.2.phase == .busy)
    && e.2.tiles.any (fun t => decide (t.kind ≤ 1) && chanOf t.core t.layer == ch && t.bank == bank
      && decide (t.row ≤ row) && decide (row < t.row + t.rows)))

/-- Words of a block that a bobbin's run has written. -/
def wordsWritten (b : Bobbin) (blk : Nat) : Nat := (b.written.filter (fun w => w / 8 == blk)).length

/-- Store one written word with a tag made anew, RESTARTED 1 (R234, R237). Until the run has written all 8 words of the block,
what the block held before is kept for the merge at exit, and a poisoned block stays poisoned (R77). -/
def storeWord (s : State) (b : Bobbin) (addr : Nat) (data : Bytes) : State × Bobbin :=
  let blk := addr / 256
  let was := tagOf s.mem blk
  let b1 := { b with written := if b.written.contains (addr / 32) then b.written else b.written ++ [addr / 32] }
  let full := decide (8 ≤ wordsWritten b1 blk)
  let olds := if full then terase b.olds blk
    else if wordsWritten b blk = 0 then tinsert b.olds blk (blockBytes s blk, was) else b.olds
  let t := makeTag blk (overlay (blockBytes s blk) (addr % 256) data) true (was.poison && !full)
  ({ s with mem := setTag (writeBytes s.mem addr data) blk t }, { b1 with olds := olds })

/-- Merge a block that a run wrote in part (R70, Table 08-3 step 2): its other words are read with their ECC, what it held
before is verified, and a fresh value is stored. -/
def mergePart (finds : Findings) (s : State) (p : Nat × Bytes × Tag) : State :=
  let r := readBlockVia false s finds p.1
  let bad := (checkTag p.1 p.2.1 p.2.2).isNone && !r.2.poison
  let s1 := if bad then checkFailed r.1 p.1 else r.1
  putBlock s1 p.1 r.2.data true (r.2.poison || bad)

/-- Step 2 of Table 08-3: every block that the run wrote in part is merged. -/
def mergeParts (finds : Findings) (s : State) (r : BobRun) : State := (r.banks.flatMap (fun b => b.2.olds)).foldl (mergePart finds) s

/-- Write result word `w`: to the bank, or with RET_EN as the run's next returned word (R237). None is a fault, with its
cause and status. -/
def writeWord (s : State) (x : UopCtx) (b : Bobbin) (w : Nat) (data : Bytes) : (State × Bobbin) ⊕ (Nat × Nat) :=
  match x.run.retAddr with
  | some base =>
    let addr : Int := (base : Int) + (x.ch % 8 : Nat) * x.run.retS2 + (x.bank : Nat) * x.run.retS1 + (32 * b.returned : Nat)
    let lo := storeBase (x.ch / 8)
    if x.run.retS1 < (32 * b.returned + 32 : Nat) ∨ addr < lo ∨ (lo + 0x38000 : Nat) < addr + 32 then .inr (0x04, stBadAddress)
    else
      let r := storeWord s b addr.toNat data
      .inl (r.1, { r.2 with returned := b.returned + 1 })
  | none =>
    if !wordsOk x w 1 then .inr (0x04, stBadAddress)
    else if weightRow s x.ch x.bank (x.rowBase + w / 32) then .inr (0x06, stMode)
    else .inl (storeWord s b (wordAddr x w) data)

/-- Write result words from P1 on; a fault leaves the words before it written. -/
def writeWords (x : UopCtx) : State → Bobbin → Nat → List Bytes → State × Bobbin × Option (Nat × Nat)
  | s, b, _, [] => (s, b, none)
  | s, b, w, d :: rest =>
    match writeWord s x b w d with
    | .inr f => (s, b, some f)
    | .inl r => writeWords x r.1 r.2 (w + 1) rest

/-- The run ends: every bank has executed END (R219). -/
def allEnded (r : BobRun) : Bool := r.banks.all (fun b => b.2.state == .ended)

/-- A score's micro-operation: for each tile of each frame a CLR, a MAC or MACW and a WB32 (R296). -/
def scoreUop (r : BobRun) (bank upc : Nat) : Option Word64 :=
  if upc < 6 * (tget r.frames bank).length then r.uops[upc % 3]? else none

/-- The micro-operation that a bank has reached. -/
def uopOf (r : BobRun) (bank upc : Nat) : Option Word64 := if r.score then scoreUop r bank upc else r.uops[upc]?

/-- The frame and the tile that a bank of a score has reached. -/
def scoreTile (r : BobRun) (bank upc : Nat) : Nat × Nat := ((tget r.frames bank).getD (upc / 6) 0, upc / 3 % 2)

/-- A slot takes the lowest-numbered bank that waits to run (R223, R241). -/
def takeBank (r : BobRun) (slot : Nat) : BobRun :=
  let held := [r.slot0, r.slot1]
  match firstThat (fun e => e.2.state == .ready && !held.contains (some e.1)) r.banks with
  | none => if slot = 0 then { r with slot0 := none } else { r with slot1 := none }
  | some e =>
    let r1 := { r with banks := tmod r.banks e.1 (fun b => { b with state := .active }) }
    if slot = 0 then { r1 with slot0 := some e.1 } else { r1 with slot1 := some e.1 }

/-- Fill the free slots; one slot when the sequence holds a compatibility operation (R223, R240). -/
def fillSlots (r : BobRun) : BobRun :=
  let r1 := if r.slot0.isNone then takeBank r 0 else r
  if r1.slot1.isNone && !r1.compat then takeBank r1 1 else r1

/-- Write a bank's bobbin back into a run. -/
def putBank (r : BobRun) (bank : Nat) (b : Bobbin) : BobRun := { r with banks := tinsert r.banks bank b }

/-- The bank in a slot. -/
def slotBank (r : BobRun) (slot : Nat) : Option Nat := if slot = 0 then r.slot0 else r.slot1

/-- A fault in a running bank (R238): the channel leaves its run under Table 08-3, BOB_FAULT names bank and micro-operation, and
the sequencer faults. -/
def bobFault (s : State) (finds : Findings) (ch bank : Nat) (r : BobRun) (upc cause status : Nat) : State :=
  let t := mergeParts finds s r
  let s1 := modChan (abandonRun (modChan t ch (fun c => { c with run := some { r with banks := [] } })) ch cause status) ch
    (fun c => { c with faultBank := BitVec.ofNat 4 bank, faultUop := BitVec.ofNat 5 upc })
  faultCore s1 r.core r.slotIndex cause status upc

/-- The steps of a micro-operation of so many column cycles (R224). -/
def stepsOf (cycles : Nat) : Nat := Nat.max 1 (ceilDiv cycles 64)

/-- The refreshes that fell due while a bank was active are issued at its step boundary, ahead of its next step (R225). -/
def boundaryRefresh (bank : Nat) (c : Chan) : Chan :=
  let n := tget c.refreshOwed bank
  { c with
    refreshOwed := terase c.refreshOwed bank, refreshes := tmod c.refreshes bank (· + n)
    bobRefAtStep := satAdd c.bobRefAtStep n }

/-- What the bobbin of a score's bank runs its tile on: P0 at the tile's first word, rows as they are in the bank. -/
def scoreBobbin (r : BobRun) (bank : Nat) (b : Bobbin) : Bobbin :=
  let f := scoreTile r bank b.upc
  { b with p0 := frameAddr f.1 % 0x80000 / 32 + 256 * f.2 }

/-- What a micro-operation runs on. -/
def uopCtxOf (s : State) (ch bank : Nat) (r : BobRun) (u : Word64) : UopCtx :=
  let b := tget r.banks bank
  if r.score then { ch := ch, bank := bank, rowBase := 0, nearRows := 512, run := r, b := scoreBobbin r bank b, u := u }
  else
    let c := getCore s r.core
    let near := match c.program with
      | none => 0
      | some p => fieldAt (getSlot s p.slot).header 0x3A 2
    { ch := ch, bank := bank, rowBase := c.rowBase, nearRows := near, run := r, b := b, u := u }

/-- A bank of a score ends after its last frame. -/
def scoreEnds (r : BobRun) (bank : Nat) (b : Bobbin) : Bobbin :=
  if r.score ∧ 6 * (tget r.frames bank).length ≤ b.upc then { b with state := .ended } else b

/-- Run the micro-operation that the bank of a slot has reached, when it has the given opcode. -/
def runUop (ch slot code : Nat) (finds : Findings) (f : State → UopCtx → UopOut) (s : State) : State :=
  match (getChan s ch).run with
  | none => s
  | some r =>
    match slotBank r slot with
    | none => s
    | some bank =>
      let b := tget r.banks bank
      match uopOf r bank b.upc with
      | none => s
      | some u =>
        if uCode u ≠ code then s
        else
          match f (modChan s ch (boundaryRefresh bank)) (uopCtxOf s ch bank r u) with
          | .fault t b' cause status =>
            if (getChan t ch).run.isNone then t else bobFault t finds ch bank (putBank r bank b') b.upc cause status
          | .ok t b' cycles flags poison =>
            if (getChan t ch).run.isNone then t
            else
              let r2 := putBank { r with poisoned := r.poisoned || poison } bank (scoreEnds r bank b')
              let r3 := if (tget r2.banks bank).state = .active then r2
                else takeBank (if slot = 0 then { r2 with slot0 := none } else { r2 with slot1 := none }) slot
              modChan t ch (fun k => { k with
                run := some { r3 with exiting := allEnded r3 }, bobSteps := satAdd k.bobSteps (stepsOf cycles)
                bobInvalid := k.bobInvalid || flags.invalid, bobOverflow := k.bobOverflow || flags.overflow
                bobWrap := k.bobWrap || flags.wrap })

/-! ### Values -/

/-- The format code of a compute format. -/
def cfmtCode : CFmt → Nat
  | .bf16 => 1
  | .fp16 => 2
  | .int16 => 0xA

/-- Element e of the vector chunk; a register file that was never loaded holds zeros. -/
def chunkElem (b : Bobbin) (e : Nat) : Nat := (b.v.getD e 0).toNat

/-- The accumulator of lane L. -/
def laneAcc (b : Bobbin) (l : Nat) : Word := b.acc.getD l 0

/-- Whether the compute format and the accumulators' type match (R229). -/
def typesMatch (b : Bobbin) : Bool := b.typeI == (b.cfmt == .int16)

/-- Flags of a list of lane results. -/
def laneFlags (l : List (Word × BobFlags)) : BobFlags := l.foldl (fun t x => arrOr t x.2) {}

/-- Steps `i0` to `i0 + n - 1` of every lane: lane L folds its steps in ascending order (R230). -/
def lanesFrom (b : Bobbin) (i0 n : Nat) (step : Nat → Nat → Word → Word × BobFlags) : List (Word × BobFlags) :=
  (List.range 32).map (fun l =>
    (rangeFrom i0 n).foldl (fun (t : Word × BobFlags) i => let r := step l i t.1; (r.1, arrOr t.2 r.2)) (laneAcc b l, {}))

/-- All the steps of every lane. -/
def lanes (b : Bobbin) (n : Nat) (step : Nat → Nat → Word → Word × BobFlags) : List (Word × BobFlags) := lanesFrom b 0 n step

/-- One product of a lane: weight code of a format, element of the chunk, optional scale byte. -/
def laneStep (b : Bobbin) (wfmt wcode elem : Nat) (scale : Option Nat) (acc : Word) : Word × BobFlags :=
  if b.typeI then macInt acc [(signed (elemBits wfmt) wcode, signed 16 (chunkElem b elem))] 0 false
  else
    let e : Option Int := match scale with
      | none => some 0
      | some c => if c = 0xFF then none else some ((c : Int) - 127)
    macFloat acc [(decodeElem wfmt wcode, decodeElem (cfmtCode b.cfmt) (chunkElem b elem))] e false

/-- The nibble or byte of a lane's weight in a column word. -/
def nibbleOf (s : State) (x : UopCtx) (w lane k : Nat) : Nat :=
  let v := (wordByte s x w lane).toNat
  if k % 2 = 1 then v / 16 else v % 16

/-- Whether P0 lies on the scale words of a placed bank tile of that bank whose stored format has such words (R228, Table
08-7). -/
def onScaleWord (s : State) (x : UopCtx) (stride : Nat) : Bool :=
  s.slots.any (fun e => e.2.tiles.any (fun t => t.kind == 1 && chanOf t.core t.layer == x.ch && t.bank == x.bank
    && (if stride = 17 then t.fmt == 7 else t.fmt == 3 || t.fmt == 4)
    && decide (x.rowBase ≤ t.row) && decide (32 * (t.row - x.rowBase) ≤ x.b.p0)
    && decide (x.b.p0 < 32 * (t.row - x.rowBase) + t.length / 32)
    && decide ((x.b.p0 - 32 * (t.row - x.rowBase)) % stride = 0)))

/-- Free accumulators and flags: the results that R228 calls undefined (log 15). -/
def freeLanes (s : State) : List (Word × BobFlags) :=
  (List.range 32).map (fun i => (Config.freeBits 32 (s.free + i),
    { invalid := (Config.freeBits 1 (s.free + 32)).getLsbD 0, overflow := (Config.freeBits 1 (s.free + 33)).getLsbD 0 }))

/-- The integer value of a 32-bit word as type I. -/
def intOf (w : Word) : Int := w.toInt

/-- Flags of an FP32 operation in BOB_STATUS. -/
def bobExc (r : Word × Exc) : Word × BobFlags := (r.1, { invalid := r.2.iv, overflow := r.2.overflow })

/-- An integer result kept modulo 2^32. -/
def wrapWord (i : Int) : Word × BobFlags := (BitVec.ofInt 32 i, { wrap := decide (i < -(2 ^ 31)) || decide (2 ^ 31 ≤ i) })

/-! ### The micro-operations -/

/-- NOP. -/
def uopNop (s : State) (x : UopCtx) : UopOut := .ok s (stepNext x.b) 1 {} false

/-- END: the bank's run ends. -/
def uopEnd (s : State) (x : UopCtx) : UopOut := .ok s { x.b with state := .ended } 1 {} false

/-- LOOP: count, then branch or fall through. -/
def uopLoopFn (s : State) (x : UopCtx) : UopOut :=
  let c := if uCounter x.u = 0 then x.b.lc0 + 1 else x.b.lc1 + 1
  let back := decide (c < uCount x.u)
  let v := if back then c else 0
  let b := if uCounter x.u = 0 then { x.b with lc0 := v } else { x.b with lc1 := v }
  .ok s { b with upc := if back then uTarget x.u else x.b.upc + 1 } 1 {} false

/-- SETP. -/
def uopSetp (s : State) (x : UopCtx) : UopOut :=
  let b := match uPointer x.u with
    | 0 => { x.b with p0 := uWordIndex x.u }
    | 1 => { x.b with p1 := uWordIndex x.u }
    | _ => { x.b with p2 := uWordIndex x.u }
  .ok s (stepNext b) 1 {} false

/-- LDV. -/
def uopLdv (finds : Findings) (s : State) (x : UopCtx) : UopOut :=
  let f := uFirst x.u
  let m := uRegs x.u
  let w := 32 * uRow x.u + 2 * f
  if 16 < f + m then .fault s x.b 0x02 stBadPacket
  else if !wordsOk x w (2 * m) then .fault (readWords s x finds w (2 * m)).1 x.b 0x04 stBadAddress
  else
    let r := readWords s x finds w (2 * m)
    let old := if x.b.v.isEmpty then List.replicate 512 0 else x.b.v
    let new := (List.range (32 * m)).map (fun j => BitVec.ofNat 16 (wordField r.1 x (w + j / 16) (2 * (j % 16)) 2))
    .ok r.1 (stepNext { x.b with v := old.take (32 * f) ++ new ++ old.drop (32 * (f + m)) }) (2 * m) {} r.2

/-- CLR. -/
def uopClr (s : State) (x : UopCtx) : UopOut :=
  let c : CFmt := match uPointer x.u with
    | 0 => .bf16
    | 1 => .fp16
    | _ => .int16
  .ok s (stepNext { x.b with cfmt := c, acc := [], typeI := c == .int16 }) 1 {} false

/-- Read the words of a span of a micro-operation that reads from P0 on; a row that it may not reach faults it when it gets
there (R232). -/
def spanWords (s : State) (x : UopCtx) (finds : Findings) (w n : Nat) (f : State → Bool → UopOut) : UopOut :=
  let r := readWords s x finds w n
  if wordsOk x w n then f r.1 r.2 else .fault r.1 x.b 0x04 stBadAddress

/-- MAC: 16-bit weights in the compute format, two words a step. -/
def uopMac (finds : Findings) (steps : Nat) (s : State) (x : UopCtx) : UopOut :=
  let n := uN x.u
  let sp := spanOf x.b (2 * n) steps
  let i0 := sp.lo / 2
  let k := sp.hi / 2 - i0
  if !typesMatch x.b || decide (512 < uElem x.u + n) then .fault s x.b 0x02 stBadPacket
  else spanWords s x finds (x.b.p0 + sp.lo) (sp.hi - sp.lo) (fun t poison =>
    let ls := lanesFrom x.b i0 k (fun l i acc =>
      laneStep x.b (cfmtCode x.b.cfmt) (wordField t x (x.b.p0 + 2 * i + l / 16) (2 * (l % 16)) 2) (uElem x.u + i) none acc)
    .ok t (afterSpan sp { x.b with acc := ls.map (·.1), p0 := if sp.last then x.b.p0 + 2 * n else x.b.p0 }) (sp.hi - sp.lo)
      (laneFlags ls) poison)

/-- The pairings of Table 08-6 for MACW. -/
def macwOk (c : CFmt) (fmt : Nat) (scaled : Bool) : Bool :=
  match c with
  | .int16 => !scaled && (fmt == 8 || fmt == 9)
  | _ => if scaled then fmt == 3 || fmt == 4 || fmt == 7 else fmt == 3 || fmt == 4

/-- Words that a MACW reads: with scales, 33 or 17 for each block of 32 steps. -/
def macwWords (fmt n : Nat) (scaled : Bool) : Nat :=
  if scaled then (if fmt = 7 then 17 * (n / 32) else 33 * (n / 32))
  else if fmt = 9 then ceilDiv n 2 else n

/-- Column cycles of a MACW (Table 08-5). -/
def macwCycles (fmt n : Nat) (scaled : Bool) : Nat := if scaled ∧ fmt ≠ 7 then n + n / 32 else n

/-- K steps that a MACW has done after so many column cycles: of a scaled 8-bit tile the first cycle of each block reads its
scales. -/
def macwSteps (fmt : Nat) (scaled : Bool) (cycles : Nat) : Nat :=
  if scaled ∧ fmt ≠ 7 then cycles / 33 * 32 + (cycles % 33 - 1) else cycles

/-- The word that holds the weights of K step i of a MACW, from P0 on. -/
def macwWordOf (fmt : Nat) (scaled : Bool) (i : Nat) : Nat :=
  if scaled then (if fmt = 7 then 17 * (i / 32) + 1 + i % 32 / 2 else 33 * (i / 32) + 1 + i % 32)
  else if fmt = 9 then i / 2 else i

/-- Lane L's step i of a MACW: its weight code and its scale byte. -/
def macwWeight (s : State) (x : UopCtx) (lane i : Nat) : Nat × Option Nat :=
  let fmt := uFmt x.u
  if uScaled x.u then
    let per := if fmt = 7 then 17 else 33
    let sw := x.b.p0 + per * (i / 32)
    let code := if fmt = 7 then nibbleOf s x (sw + 1 + i % 32 / 2) lane i else (wordByte s x (sw + 1 + i % 32) lane).toNat
    (code, some (wordByte s x sw lane).toNat)
  else if fmt = 9 then (nibbleOf s x (x.b.p0 + i / 2) lane i, none)
  else ((wordByte s x (x.b.p0 + i) lane).toNat, none)

/-- The first word and the number of words, from P0 on, that K steps `i0` to `i0 + k - 1` of a MACW read. -/
def macwReads (fmt : Nat) (scaled : Bool) (i0 k : Nat) : Nat × Nat :=
  if k = 0 then (0, 0)
  else
    let first := if scaled ∧ i0 % 32 = 0 then macwWordOf fmt scaled i0 - 1 else macwWordOf fmt scaled i0
    (first, macwWordOf fmt scaled (i0 + k - 1) + 1 - first)

/-- MACW: narrow stored weights, optionally block-scaled; off the scale words of a tile the results are free (R228). -/
def uopMacw (finds : Findings) (steps : Nat) (s : State) (x : UopCtx) : UopOut :=
  let n := uN x.u
  let fmt := uFmt x.u
  let scaled := uScaled x.u
  let sp := spanOf x.b (macwCycles fmt n scaled) steps
  let i0 := macwSteps fmt scaled sp.lo
  let k := (if sp.last then n else macwSteps fmt scaled sp.hi) - i0
  let words := macwReads fmt scaled i0 k
  if !typesMatch x.b || !macwOk x.b.cfmt fmt scaled || decide (512 < uElem x.u + n)
      || (scaled && (decide (uElem x.u % 32 ≠ 0) || decide (n % 32 ≠ 0))) then .fault s x.b 0x02 stBadPacket
  else spanWords s x finds (x.b.p0 + words.1) words.2 (fun t poison =>
    let open? := scaled && !onScaleWord s x (if fmt = 7 then 17 else 33)
    let ls := if open? then freeLanes t else lanesFrom x.b i0 k (fun l i acc =>
      let w := macwWeight t x l i
      laneStep x.b fmt w.1 (uElem x.u + i) w.2 acc)
    let s1 : State := if open? then { t with free := t.free + 34 } else t
    .ok s1 (afterSpan sp { x.b with
        acc := ls.map (·.1), p0 := if sp.last then x.b.p0 + macwWords fmt n scaled else x.b.p0 }) (sp.hi - sp.lo)
      (laneFlags ls) poison)

/-- The 32 values of 4 words at P0. -/
def values32 (s : State) (x : UopCtx) (lane : Nat) : Word :=
  BitVec.ofNat 32 (wordField s x (x.b.p0 + lane / 8) (4 * (lane % 8)) 4)

/-- SCL, ADD, MUL and MAX: 4 words at P0 against the accumulators. -/
def uopFour (typeAfter : Bool → Bool) (g : Bool → Word → Word → Word × BobFlags) (finds : Findings) (s : State)
    (x : UopCtx) : UopOut :=
  spanWords s x finds x.b.p0 4 (fun t poison =>
    let ls := (List.range 32).map (fun l => g x.b.typeI (laneAcc x.b l) (values32 t x l))
    .ok t (stepNext { x.b with acc := ls.map (·.1), typeI := typeAfter x.b.typeI, p0 := x.b.p0 + 4 }) 4 (laneFlags ls) poison)

/-- SCL: an accumulator of type I is first converted to FP32. -/
def sclLane (typeI : Bool) (a y : Word) : Word × BobFlags :=
  let v := if typeI then (toFp32 (.fin (decide (intOf a < 0)) (intOf a).natAbs 0)).1 else a
  bobExc (fp32Mul v y)

def addLane (typeI : Bool) (a y : Word) : Word × BobFlags :=
  if typeI then wrapWord (intOf a + intOf y) else bobExc (fp32Add a y)

def mulLane (typeI : Bool) (a y : Word) : Word × BobFlags :=
  if typeI then wrapWord (intOf a * intOf y) else bobExc (fp32Mul a y)

def maxLane (typeI : Bool) (a y : Word) : Word × BobFlags :=
  if typeI then (if intOf a < intOf y then y else a, {}) else bobExc (fp32Max a y)

/-- A list of 16-bit codes as 32-byte words. -/
def words16 (codes : List Nat) : List Bytes := chunks (codes.length / 16 + 1) 32 (codes.flatMap (toBytes 2))

/-- A list of 32-bit values as 32-byte words. -/
def words32 (vals : List Word) : List Bytes := chunks (vals.length / 8 + 1) 32 (vals.flatMap (fun w => toBytes 4 w.toNat))

/-- Write result words at P1, which then advances by all of them. -/
def finishWrite (s : State) (x : UopCtx) (ws : List Bytes) (cycles : Nat) (flags : BobFlags) (poison : Bool)
    (after : Bobbin → Bobbin) : UopOut :=
  let r := writeWords x s x.b x.b.p1 ws
  match r.2.2 with
  | some f => .fault r.1 r.2.1 f.1 f.2
  | none => .ok r.1 (stepNext (after { r.2.1 with p1 := x.b.p1 + ws.length })) cycles flags poison

/-- WB16: conversion under R149 and Table 05-3. -/
def uopWb16 (s : State) (x : UopCtx) : UopOut :=
  let fmt := uFmt x.u
  if (x.b.typeI && fmt != 0xA) || (!x.b.typeI && fmt != 1 && fmt != 2) then .fault s x.b 0x02 stBadPacket
  else
    let cs := (List.range 32).map (fun l =>
      let v : Val := if x.b.typeI then .fin (decide (intOf (laneAcc x.b l) < 0)) (intOf (laneAcc x.b l)).natAbs 0
        else valOf (laneAcc x.b l)
      encodeElem fmt .nearest (uSat x.u) v)
    finishWrite s x (words16 (cs.map (·.1))) 2 { overflow := cs.any (fun c => c.2.overflow) } false id

/-- The scores of a tile go to their places in C (R296). -/
def scoreOut (s : State) (x : UopCtx) : State :=
  let f := scoreTile x.run x.bank x.b.upc
  (x.run.outs.filter (fun o => o.1 == f.1 && o.2.1 / 32 == f.2)).foldl (fun t o =>
    (writeRange t [] o.2.2 (toBytes 4 (laneAcc x.b (o.2.1 % 32)).toNat) true false).1) s

/-- WB32. -/
def uopWb32 (s : State) (x : UopCtx) : UopOut :=
  if x.run.score then .ok (scoreOut s x) (stepNext x.b) 4 {} false
  else finishWrite s x (words32 ((List.range 32).map (laneAcc x.b))) 4 {} false id

/-- EXPT and RSQ: type F only. -/
def uopUnary (g : Word → Word × Exc) (s : State) (x : UopCtx) : UopOut :=
  if x.b.typeI then .fault s x.b 0x02 stBadPacket
  else
    let ls := (List.range 32).map (fun l => bobExc (g (laneAcc x.b l)))
    .ok s (stepNext { x.b with acc := ls.map (·.1) }) 4 (laneFlags ls) false

/-- EXPT within 4 ulp, RSQ within 2 ulp (R230). -/
def exptWord (w : Word) : Word × Exc := expWithin 4 (Config.bobExp w) w
def rsqWord (w : Word) : Word × Exc := rsqrtWithin 2 (Config.bobRsq w) w

/-- SUMSQ. -/
def uopSumsq (finds : Findings) (steps : Nat) (s : State) (x : UopCtx) : UopOut :=
  let n := uN x.u
  let sp := spanOf x.b n steps
  if !typesMatch x.b then .fault s x.b 0x02 stBadPacket
  else spanWords s x finds (x.b.p0 + sp.lo) (sp.hi - sp.lo) (fun t poison =>
    let f := cfmtCode x.b.cfmt
    let ls := (List.range 32).map (fun l =>
      if 16 ≤ l then (laneAcc x.b l, ({} : BobFlags))
      else (rangeFrom sp.lo (sp.hi - sp.lo)).foldl (fun (q : Word × BobFlags) i =>
        let c := wordField t x (x.b.p0 + i) (2 * l) 2
        let y := if x.b.typeI then macInt q.1 [(signed 16 c, signed 16 c)] 0 false
          else macFloat q.1 [(decodeElem f c, decodeElem f c)] (some 0) false
        (y.1, arrOr q.2 y.2)) (laneAcc x.b l, {}))
    .ok t (afterSpan sp { x.b with acc := ls.map (·.1), p0 := if sp.last then x.b.p0 + n else x.b.p0 }) (sp.hi - sp.lo)
      (laneFlags ls) poison)

/-- A value rounded once to the compute format, with its flags. -/
def toCfmt (c : CFmt) (v : Val × Bool) : Nat × BobFlags :=
  let e := encodeElem (cfmtCode c) .nearest false v.1
  (e.1, { invalid := v.2, overflow := e.2.overflow })

/-- An elementwise result in the compute format; an integer result outside 16 bits is a value that the manual does not
state (log 15), with WRAP. -/
def elemOp (isMul : Bool) (c : CFmt) (free : BitVec 16) (a b : Nat) : Nat × BobFlags :=
  match c with
  | .int16 =>
    let i := if isMul then signed 16 a * signed 16 b else signed 16 a + signed 16 b
    if -(2 ^ 15) ≤ i ∧ i < 2 ^ 15 then (wrapTo 16 i, {}) else (free.toNat, { wrap := true })
  | _ =>
    let x := decodeElem (cfmtCode c) a
    let y := decodeElem (cfmtCode c) b
    toCfmt c (if isMul then mulVal x y else addVal x y)

/-- Progress through the words of an elementwise micro-operation: the state, the bobbin, the blocks whose reads have been
checked, the flags, and whether a read was poisoned. -/
structure WordRun where
  s : State
  b : Bobbin
  seen : List Nat
  flags : BobFlags
  poison : Bool

/-- Read one column word; a block is checked at its first read of the micro-operation. -/
def readWord (x : UopCtx) (finds : Findings) (p : WordRun) (w : Nat) : WordRun :=
  let blk := wordAddr x w / 256
  if p.seen.contains blk then p
  else
    let r := readInBank p.s finds [blk]
    { p with s := r.1, seen := p.seen ++ [blk], poison := p.poison || r.2 }

/-- One word: word P1 ← f (word P0, word P2) by elements, the pointers advance; none where a row may not be reached or
written. -/
def elemWord (x : UopCtx) (finds : Findings) (f : State → Nat → Nat → Nat → Nat × BobFlags) (p : WordRun) :
    WordRun ⊕ (WordRun × Nat × Nat) :=
  if !wordsOk x p.b.p0 1 then .inr (p, 0x04, stBadAddress)
  else
    let p1 := readWord x finds p p.b.p0
    if !wordsOk x p.b.p2 1 then .inr (p1, 0x04, stBadAddress)
    else
      let p2 := readWord x finds p1 p.b.p2
      let cs := (List.range 16).map (fun j => f p2.s j (wordField p2.s x p.b.p0 (2 * j) 2) (wordField p2.s x p.b.p2 (2 * j) 2))
      match writeWord { p2.s with free := p2.s.free + 16 } x p2.b p.b.p1 (cs.flatMap (fun c => toBytes 2 c.1)) with
      | .inr e => .inr (p2, e)
      | .inl r =>
        .inl { p2 with
          s := r.1, b := { r.2 with p0 := p.b.p0 + 1, p1 := p.b.p1 + 1, p2 := p.b.p2 + 1 }
          flags := cs.foldl (fun t c => arrOr t c.2) p2.flags }

/-- So many words, one after the other: a word that is written is there for the next one's reads. -/
def elemWords (x : UopCtx) (finds : Findings) (f : State → Nat → Nat → Nat → Nat × BobFlags) :
    Nat → WordRun → WordRun ⊕ (WordRun × Nat × Nat)
  | 0, p => .inl p
  | n + 1, p =>
    match elemWord x finds f p with
    | .inr e => .inr e
    | .inl q => elemWords x finds f n q

/-- A span of an elementwise micro-operation of N words at three column cycles each; a word is written in the last of its
three. -/
def uopWords (finds : Findings) (steps : Nat) (f : State → Nat → Nat → Nat → Nat × BobFlags) (after : Bobbin → Bobbin)
    (s : State) (x : UopCtx) : UopOut :=
  let sp := spanOf x.b (3 * uN x.u) steps
  match elemWords x finds f (sp.hi / 3 - sp.lo / 3) { s := s, b := x.b, seen := [], flags := {}, poison := false } with
  | .inr (p, cause, status) => .fault p.s p.b cause status
  | .inl p => .ok p.s (afterSpan sp (if sp.last then after p.b else p.b)) (sp.hi - sp.lo) p.flags p.poison

/-- EADD and EMUL: word P1 ← word P0 op word P2. -/
def uopElementwise (isMul : Bool) (finds : Findings) (steps : Nat) (s : State) (x : UopCtx) : UopOut :=
  uopWords finds steps (fun t j a b => elemOp isMul x.b.cfmt (Config.freeBits 16 (t.free + j)) a b) id s x

/-- An element of RMSN: the product with r and with the third word's element, rounded once (R241 step 5). -/
def rmsnElem (c : CFmt) (r : Word) (a g : Nat) : Nat × BobFlags :=
  let p := mulVal (decodeElem (cfmtCode c) a) (valOf r)
  let q := mulVal p.1 (decodeElem (cfmtCode c) g)
  toCfmt c (q.1, p.2 || q.2)

/-- RMSN (R241): a bank that reaches it releases its slot and waits; once released it writes its normalised words. -/
def uopRmsn (finds : Findings) (steps : Nat) (s : State) (x : UopCtx) : UopOut :=
  if x.b.typeI || x.b.cfmt == .int16 then .fault s x.b 0x02 stBadPacket
  else if !x.b.released then .ok s { x.b with state := .atBarrier } 1 {} false
  else uopWords finds steps (fun _ _ a g => rmsnElem x.b.cfmt (laneAcc x.b 0) a g) (fun b => { b with released := false }) s x

/-! ### The barrier of RMSN -/

/-- r = 1 / √(sum / (16 × N × banks) + ε), within 2 ulp (R241); special values as RSQRT's (Table 04-7). -/
def rmsnScale (sum : Word) (n banks : Nat) (eps : BitVec 16) : Word × Exc :=
  match valOf sum, decodeFloat fmtBf16 eps.toNat with
  | .fin ns ms es, .fin ne me ee =>
    let fx (neg : Bool) (m : Nat) (e : Int) : Int :=
      let k := e + 512
      let v : Int := if 0 ≤ k then (m : Int) * 2 ^ k.toNat else (m : Int) / 2 ^ (-k).toNat
      if neg then -v else v
    let v := fx ns ms es / ((16 * n * banks : Nat) : Int) + fx ne me ee
    if v < 0 then (defaultNan, { iv := true })
    else if v = 0 then (0x7F800000, { dz := true })
    else boundedResult 2 (Config.bobRmsn sum n banks eps) (.fin false (Nat.sqrt (2 ^ 1024 / v.toNat)) (-256))
  | .nan _, _ => (defaultNan, { iv := true })
  | _, .nan _ => (defaultNan, { iv := true })
  | .inf ns, .inf ne => if ns || ne then (defaultNan, { iv := true }) else (0, {})
  | .inf ns, _ => if ns then (defaultNan, { iv := true }) else (0, {})
  | _, .inf ne => if ne then (defaultNan, { iv := true }) else (0, {})

/-- RMSN_BARRIER_RELEASE (R241, steps 2 to 4): when every bank of the run waits at the same RMSN. -/
def barrierRelease (ch : Nat) (s : State) : State :=
  match (getChan s ch).run with
  | none => s
  | some r =>
    match r.banks with
    | [] => s
    | first :: _ =>
      let upc := first.2.upc
      if !(r.banks.all (fun b => b.2.state == .atBarrier && b.2.upc == upc)) then s
      else
        let u := r.uops.getD upc 0
        let accs := r.banks.flatMap (fun b => (List.range 16).map (laneAcc b.2))
        let sum := match accs with
          | [] => (0 : Word)
          | a :: t => t.foldl (fun acc w => (fp32Add acc w).1) a
        let q := rmsnScale sum (uN u) r.banks.length (uEps u)
        let r1 := { r with
          slot0 := none, slot1 := none
          banks := r.banks.map (fun b => (b.1, { b.2 with state := .ready, released := true, acc := List.replicate 32 q.1 })) }
        modChan s ch (fun c => { c with
          run := some (fillSlots r1), bobInvalid := c.bobInvalid || q.2.iv, bobOverflow := c.bobOverflow || q.2.overflow })

/-! ### Processor-mode exit (R219) -/

/-- The blocks that a run wrote or returned. -/
def runBlocks (r : BobRun) : List Nat := (r.banks.flatMap (fun b => b.2.written.map (· / 8))).eraseDups

/-- The channel leaves processor mode; its next waiting request goes to admission (R220). -/
def leaveProcessor (s : State) (ch : Nat) : State :=
  let s1 := releaseChan (modChan s ch (fun c => { c with run := none })) ch
  if (getChan s1 ch).waitAdmit.isEmpty then s1
  else modRegion s1 (ch / 4096) (fun r => { r with admitQueue := r.admitQueue ++ [ch] })

/-- Change the first slot of a core's move engine that satisfies a test. -/
def modMoveSlot (s : State) (core : Nat) (p : EngSlot → Bool) (f : EngSlot → EngSlot) : State :=
  modCore s core (fun c => { c with moveSlots := modFirst p f c.moveSlots })

/-- The issued slot that holds a channel (R220: the oldest of one index first). -/
def holdsChan (index ch : Nat) (x : EngSlot) : Bool := x.index == index && x.state == .issued && x.chans.contains ch

/-- A channel of a BOBBIN_SEQ has exited: after the last one, a poisoned input poisons every block the runs wrote or
returned, and the descriptor has executed (R219, R236). -/
def bobbinChannelDone (s : State) (ch : Nat) (r : BobRun) : State :=
  match firstThat (holdsChan r.slotIndex ch) (getCore s r.core).moveSlots with
  | none => leaveProcessor s ch
  | some x =>
    let y := { x with
      chans := x.chans.filter (· != ch), wrote := (x.wrote ++ runBlocks r).eraseDups, poisoned := x.poisoned || r.poisoned
      state := if x.chans.all (· == ch) then SlotState.executed else x.state }
    let s1 := modMoveSlot (leaveProcessor s ch) r.core (holdsChan r.slotIndex ch) (fun _ => y)
    if !y.chans.isEmpty then s1
    else
      if y.poisoned then y.wrote.foldl poisonBlock s1 else s1

/-! ### The rows of the table -/

/-- NOP. -/
def execNop (ch slot : Nat) (s : State) : Host.Outcome State Fault Refusal := .next (runUop ch slot 0x00 [] uopNop s)

/-- END. -/
def execEndRun (ch slot : Nat) (s : State) : Host.Outcome State Fault Refusal := .next (runUop ch slot 0x01 [] uopEnd s)

/-- LOOP. -/
def execUopLoop (ch slot : Nat) (s : State) : Host.Outcome State Fault Refusal := .next (runUop ch slot 0x02 [] uopLoopFn s)

/-- SETP. -/
def execSetp (ch slot : Nat) (s : State) : Host.Outcome State Fault Refusal := .next (runUop ch slot 0x03 [] uopSetp s)

/-- LDV. -/
def execLdv (ch slot : Nat) (finds : Findings) (s : State) : Host.Outcome State Fault Refusal :=
  .next (runUop ch slot 0x04 finds (uopLdv finds) s)

/-- CLR. -/
def execClr (ch slot : Nat) (s : State) : Host.Outcome State Fault Refusal := .next (runUop ch slot 0x05 [] uopClr s)

/-- MAC. -/
def execMac (ch slot : Nat) (finds : Findings) (s : State) (steps : Nat := 0) : Host.Outcome State Fault Refusal :=
  .next (runUop ch slot 0x06 finds (uopMac finds steps) s)

/-- MACW. -/
def execMacw (ch slot : Nat) (finds : Findings) (s : State) (steps : Nat := 0) : Host.Outcome State Fault Refusal :=
  .next (runUop ch slot 0x07 finds (uopMacw finds steps) s)

/-- SCL. -/
def execScl (ch slot : Nat) (finds : Findings) (s : State) : Host.Outcome State Fault Refusal :=
  .next (runUop ch slot 0x08 finds (uopFour (fun _ => false) sclLane finds) s)

/-- ADD. -/
def execUopAdd (ch slot : Nat) (finds : Findings) (s : State) : Host.Outcome State Fault Refusal :=
  .next (runUop ch slot 0x09 finds (uopFour id addLane finds) s)

/-- MUL. -/
def execMul (ch slot : Nat) (finds : Findings) (s : State) : Host.Outcome State Fault Refusal :=
  .next (runUop ch slot 0x0A finds (uopFour id mulLane finds) s)

/-- MAX. -/
def execMax (ch slot : Nat) (finds : Findings) (s : State) : Host.Outcome State Fault Refusal :=
  .next (runUop ch slot 0x0B finds (uopFour id maxLane finds) s)

/-- WB16. -/
def execWb16 (ch slot : Nat) (s : State) : Host.Outcome State Fault Refusal := .next (runUop ch slot 0x0C [] uopWb16 s)

/-- WB32. -/
def execWb32 (ch slot : Nat) (s : State) : Host.Outcome State Fault Refusal := .next (runUop ch slot 0x0D [] uopWb32 s)

/-- EXPT. -/
def execExpt (ch slot : Nat) (s : State) : Host.Outcome State Fault Refusal :=
  .next (runUop ch slot 0x10 [] (uopUnary exptWord) s)

/-- RSQ. -/
def execRsq (ch slot : Nat) (s : State) : Host.Outcome State Fault Refusal :=
  .next (runUop ch slot 0x11 [] (uopUnary rsqWord) s)

/-- SUMSQ. -/
def execSumsq (ch slot : Nat) (finds : Findings) (s : State) (steps : Nat := 0) : Host.Outcome State Fault Refusal :=
  .next (runUop ch slot 0x12 finds (uopSumsq finds steps) s)

/-- EADD. -/
def execEadd (ch slot : Nat) (finds : Findings) (s : State) (steps : Nat := 0) : Host.Outcome State Fault Refusal :=
  .next (runUop ch slot 0x13 finds (uopElementwise false finds steps) s)

/-- EMUL. -/
def execEmul (ch slot : Nat) (finds : Findings) (s : State) (steps : Nat := 0) : Host.Outcome State Fault Refusal :=
  .next (runUop ch slot 0x14 finds (uopElementwise true finds steps) s)

/-- RMSN. -/
def execRmsn (ch slot : Nat) (finds : Findings) (s : State) (steps : Nat := 0) : Host.Outcome State Fault Refusal :=
  .next (runUop ch slot 0x15 finds (uopRmsn finds steps) s)

/-- RMSN_BARRIER_RELEASE. -/
def execRmsnBarrierRelease (ch : Nat) (s : State) : Host.Outcome State Fault Refusal := .next (barrierRelease ch s)

end Sys2Proof.Machine
end

