-- ==== Sys2Proof/Machine/Pages.lean ====
section
/-!
DEFINITION. The page services (spec/10_sequences_and_kv.md R267 to R285, R294, R295): geometry, home cores, frames,
page tables, allocation and dropping, copy-on-write, parking, swatches, and the page operations that other units ask of
them. Each operation is indivisible (R270).
-/
namespace Sys2Proof.Machine

/-! ### Geometry and home cores (R267, R268) -/

/-- SWATCH_CONFIG (Table 06-7), with its default threshold. -/
structure Geometry where
  layers : Nat
  groups : Nat
  tpp : Nat
  kvFmt : Nat
  swFmt : Nat
  threshold : Nat
  topk : Nat
  sink : Nat
  recent : Nat
deriving DecidableEq, Repr

/-- The page geometry of a slot's draft. -/
def geometryOf (sl : ModelSlot) : Geometry :=
  let b := sectionData sl 7
  let t := fieldAt b 8 4
  { layers := fieldAt b 0 2, groups := fieldAt b 2 2, tpp := Nat.max 1 (fieldAt b 4 2), kvFmt := fieldAt b 6 1 % 16
    swFmt := fieldAt b 7 1 % 16, threshold := if t = 0 then 8192 else t, topk := fieldAt b 12 1, sink := fieldAt b 13 1
    recent := fieldAt b 14 2 }

/-- KB, Dk and Ds (R268, R295). -/
def keyBytes (g : Geometry) : Nat := 8192 / g.tpp
def keyElems (g : Geometry) : Nat := keyBytes g / elemSize g.kvFmt
def swatchCount (g : Geometry) : Nat := 256 / elemSize g.swFmt

/-- Whether SWATCH_FMT is a swatch format whose elements hold a key (R267). -/
def swatchFits (g : Geometry) : Bool := [1, 2, 3, 4].contains g.swFmt && decide (keyElems g * elemSize g.swFmt ≤ 256)

/-- A bit of the draft's CAPS (Table 06-4). -/
def capOf (sl : ModelSlot) (bit : Nat) : Bool := bitOf (fieldAt sl.header 0x10 32) bit

/-- Whether a program names a pair in a gather or a score. -/
def namesPair (prog : List (BitVec 512)) (layer hgroup : Nat) : Bool :=
  prog.any (fun d => (dOpcode d == opGather || dOpcode d == opScore) && scLayer d == layer && scHgroup d == hgroup)

/-- The index of the first list element that satisfies a test. -/
def findIndex {α : Type} (p : α → Bool) : List α → Option Nat
  | [] => none
  | a :: t => if p a then some 0 else (findIndex p t).map (· + 1)

/-- The device core of weave core `w`. -/
def deviceCore (sl : ModelSlot) (w : Nat) : Nat := sl.weave.getD (w / 64) 0 * 64 + w % 64

/-- The home core of a pair: the weave core whose role names it; none for an unused pair. -/
def homeCore (sl : ModelSlot) (layer hgroup : Nat) : Option Nat :=
  match findIndex (fun prog => namesPair prog layer hgroup) sl.programs with
  | none => none
  | some r => (firstThat (fun w => roleOfWeaveCore sl w == r) (List.range (sl.weave.length * 64))).map (deviceCore sl)

/-- The used pairs of a model in the order layer × HEAD_GROUPS + head group. -/
def usedPairs (sl : ModelSlot) : List (Nat × Nat) :=
  let g := geometryOf sl
  ((List.range g.layers).flatMap (fun l => (List.range g.groups).map (fun h => (l, h)))).filter
    (fun p => (homeCore sl p.1 p.2).isSome)

/-- Pages below a length. -/
def pagesBelow (g : Geometry) (length : Nat) : Nat := ceilDiv length g.tpp

/-- Whether a row of a sequence is in retrieval mode (R294). -/
def retrievalMode (sl : ModelSlot) (e : Seq) : Bool := !e.privileged && decide ((geometryOf sl).threshold < e.length)

/-- Whether a page is needed by the next row of a sequence (R283). -/
def neededPage (sl : ModelSlot) (e : Seq) (page : Nat) : Bool :=
  let g := geometryOf sl
  let n := pagesBelow g e.length
  decide (page < n) && (!retrievalMode sl e || decide (page < g.sink) || decide (n - g.recent ≤ page))

/-! ### Frames (R269, R272) -/

/-- The frame number of a near frame. -/
def nearFn (core layer bank slot : Nat) : Nat := core * 4096 + layer * 512 + bank * 32 + slot

/-- The frame number of the far frame at a window offset. -/
def farFn (region offset : Nat) : Nat := 2 ^ 25 + region * 2 ^ 21 + offset / 16384

/-- The frame number of an entry of a region's frame table (R272). -/
def indexFn (region index : Nat) : Nat :=
  if index < 2097152 then region * 2097152 + index else 2 ^ 25 + region * 2097152 + (index - 2097152)

/-- The placed ranges that cover a core: row base and NEAR_ROWS of every placed slot whose weave holds its block
(R169). -/
def placedRanges (s : State) (core : Nat) : List (Nat × Nat) :=
  (s.slots.filter (fun e => (e.2.phase == .placed || e.2.phase == .reload || e.2.phase == .busy)
      && e.2.weave.contains (core / 64))).map (fun e => (e.2.rowBase, fieldAt e.2.header 0x3A 2))

/-- Whether rows of a core's banks meet a placed range. -/
def rowsPlaced (s : State) (core row n : Nat) : Bool :=
  (placedRanges s core).any (fun r => decide (row < r.1 + r.2) && decide (r.1 < row + n))

/-- Whether a core's slice is in service. -/
def sliceUsable (s : State) (core : Nat) : Bool :=
  !(getCore s core).absent && !(getCore s core).fenced && !regionUnavailable s (regionOfCore core)
    && licensedRegion s (regionOfCore core)

/-- Whether a near frame is free for allocation (R269, R491). -/
def nearFree (s : State) (core layer bank slot : Nat) : Bool :=
  !layerAvoided s (dieOfCore core) layer && !bankMappedOut s (chanOf core layer * 16 + bank) && !rowsPlaced s core (16 * slot) 16
    && !(frameOf s (nearFn core layer bank slot)).allocated

/-- The free near frames of a core in ascending frame number. -/
def freeNear (s : State) (core : Nat) : List Nat :=
  if sliceUsable s core then
    (List.range 8).flatMap (fun l => (List.range 16).flatMap (fun b =>
      ((List.range 32).filter (nearFree s core l b)).map (nearFn core l b)))
  else []

/-- Where a window's pool begins (Table 10-6). -/
def poolStart : Nat := 0x48100000

/-- Whether 16 KiB of a window can serve as a frame: data range, no hole. -/
def farUsable (s : State) (region offset : Nat) : Bool :=
  !windowDegraded s (windowBase region + offset) 16384 region && !regionUnavailable s region && licensedRegion s region

/-- The free far frames of a window at or after an offset, at most `want` of them. -/
def freeFarFrom (s : State) (region : Nat) : Nat → Nat → Nat → List Nat
  | 0, _, _ => []
  | fuel + 1, off, want =>
    if want = 0 then []
    else match firstFit 16384 16384 off (windowBytes s region) (getRegion s region).pool with
      | none => []
      | some a =>
        if farUsable s region a then farFn region a :: freeFarFrom s region fuel (a + 16384) (want - 1)
        else freeFarFrom s region fuel (a + 16384) want

/-- Whether new far allocations may be made in a window: its region is in service and no pseudo-channel of its home is a
hole (R255). -/
def windowOpen (s : State) (region : Nat) : Bool :=
  licensedRegion s region && !regionUnavailable s region && !(getRegion s region).windowOut
    && (homePcs s region).all (fun p => !(getPc s p).hole)

/-- At most `want` free far frames of a region in ascending frame number. -/
def freeFar (s : State) (region want : Nat) : List Nat :=
  if windowOpen s region then freeFarFrom s region 1572864 poolStart want else []

/-- Memory of a region's pool, in 2 KiB units, at the lowest free offset (R168, R266, Table 10-6). -/
def poolAlloc (s : State) (region bytes : Nat) : Option (Nat × State) :=
  if !windowOpen s region then none
  else match firstFit 2048 (ceilDiv bytes 2048 * 2048) poolStart (windowBytes s region) (getRegion s region).pool with
    | none => none
    | some a => some (windowBase region + a,
        modRegion s region (fun r => { r with pool := allocInsert r.pool a (ceilDiv bytes 2048 * 2048) }))

/-! ### Page-table entries (R271) -/

def getPte (s : State) (key : Nat) : Pte := tget s.ptes key
def modPte (s : State) (key : Nat) (f : Pte → Pte) : State := { s with ptes := tmod s.ptes key f }

/-- The parts of a key. -/
def ptePage (key : Nat) : Nat := key % 1048576
def pteHgroup (key : Nat) : Nat := key / (1048576 * 2) % 256
def pteLayer (key : Nat) : Nat := key / (1048576 * 2 * 256) % 256

/-- Whether an entry references a frame. -/
def pteHolds (t : Pte) (fn : Nat) : Bool := (t.state == .present || t.state == .recomputing) && t.fn == fn

/-- The keys of the entries that reference a frame. -/
def refKeys (s : State) (fn : Nat) : List Nat := (s.ptes.filter (fun e => pteHolds e.2 fn)).map (·.1)

/-- Page-table memory of a region: 4 KiB units of its page-table area (Table 10-6). -/
def ptAlloc (s : State) (region bytes : Nat) : Option (Nat × State) :=
  let lo := windowBase region + 0x08100000
  let n := ceilDiv bytes 4096 * 4096
  if (getRegion s region).windowOut || decide (windowBytes s region < poolStart) then none
  else match firstFit 4096 n lo (windowBase region + poolStart) (getRegion s region).ptArea with
    | none => none
    | some a => some (a, modRegion s region (fun r => { r with ptArea := allocInsert r.ptArea a n }))

/-- The far frames that a range of a window meets. -/
def framesAt (addr bytes : Nat) : List Nat :=
  let region := (addr - 0x8000000000) / 0x600000000
  let off := addr - windowBase region
  if bytes = 0 then [] else (rangeFrom (off / 16384) ((off + bytes - 1) / 16384 + 1 - off / 16384)).map (fun k => farFn region (16384 * k))

/-- A token log takes the frame-table entries of the frames it meets (KIND 2, Table 10-5); they hold no page, so nothing
allocates, drops or settles them. -/
def takeLogFrames (s : State) (seq slot addr bytes : Nat) : State :=
  (framesAt addr bytes).foldl (fun t fn => modFrame t fn (fun _ => { kind := 2, owner := seq, modelSlot := slot })) s

/-- A token log leaves the entries of the frames that no other open sequence's log meets. -/
def freeLogFrames (s : State) (seq addr bytes : Nat) : State :=
  (framesAt addr bytes).foldl (fun t fn =>
    if t.seqs.any (fun e => e.1 != seq && e.2.phase != .free && (framesAt e.2.tokenLog (tokenLogBytes e.2)).contains fn) then t
    else { t with frames := terase t.frames (frameKey fn) }) s

/-- Free page-table memory. -/
def ptFree (s : State) (addr : Nat) : State :=
  modRegion s ((addr - 0x8000000000) / 0x600000000) (fun r => { r with ptArea := allocErase r.ptArea addr })

/-- The key of a pair of a sequence. -/
def pairKey (seq layer hgroup : Nat) : Nat := (seq * 256 + layer) * 256 + hgroup

/-- The page service of a pair. -/
def pairService (sl : ModelSlot) (layer hgroup : Nat) : Nat :=
  match homeCore sl layer hgroup with
  | none => 0
  | some c => regionOfCore c

/-- The directory and the leaf of an entry exist, allocated where they did not; none when the area has no room. -/
def ensureLeaf (s : State) (region key : Nat) : Option State :=
  let pair := key / (1048576 * 2)
  let dir : Option State :=
    if tget s.dirs pair ≠ 0 then some s
    else (ptAlloc s region 4096).map (fun r => { r.2 with dirs := tset r.2.dirs pair r.1 })
  match dir with
  | none => none
  | some s1 =>
    if tget s1.leaves (key / 512) ≠ 0 then some s1
    else (ptAlloc s1 region 4096).map (fun r => { r.2 with leaves := tset r.2.leaves (key / 512) r.1 })

/-! ### Settling, parking and release (R274, R275, R278, R282) -/

/-- A sequence becomes PARKED for want of a page; its pending command returns ST_NO_PAGE (R282, R346). -/
def parkForPage (s : State) (seq region : Nat) : State :=
  let e := getSeq s seq
  let s1 := match e.pending with
    | some c => fail s c.packet stNoPage 0 0 (if c.prefill then c.done else 0)
    | none => s
  let s2 := modSeq s1 seq (fun x => { x with
    phase := .parked, parkedNoPage := true, pending := none, parkOrder := s1.nextOrder, parkRegion := region })
  { s2 with nextOrder := s2.nextOrder + 1 }

/-- The frame entry follows its references: PRIORITY and, with one reference, OWNER_SEQ and its page (Table 10-5). -/
def refreshFrame (s : State) (fn : Nat) : State :=
  let keys := refKeys s fn
  let pr := keys.foldl (fun m k => Nat.max m (getSeq s (pteSeq k)).priority) 0
  modFrame s fn (fun f => { f with
    priority := pr
    owner := match keys with
      | [k] => pteSeq k
      | _ => f.owner })

/-- Settle a frame after an operation (R278): FREE when REFCOUNT, GPINS and HOLDS are 0. -/
def settle (s : State) (fn : Nat) : State :=
  let f := frameOf s fn
  if !f.allocated then s
  else if f.refcount = 0 ∧ f.gpins = 0 ∧ f.holds = 0 then freeFrame s fn
  else refreshFrame s fn

/-- The hold that a privileged owner takes with each of its frames (R285). -/
def ownerHold (s : State) (seq : Nat) : Nat := b2n (getSeq s seq).privileged

/-- A sequence's reference to a frame ends: PINS and the owner's hold are released and the frame settles. -/
def releasePte (s : State) (key : Nat) (state : PteState) : State :=
  let t := getPte s key
  if t.state = .present ∨ t.state = .recomputing then
    let drop := t.pins + (if pteSwatch key then 0 else ownerHold s (pteSeq key))
    let s1 := modPte s key (fun x => { x with state := state, fn := 0, pins := 0 })
    settle (modFrame s1 t.fn (fun f => { f with refcount := f.refcount - 1, holds := f.holds - drop })) t.fn
  else modPte s key (fun x => { x with state := state, fn := 0, pins := 0 })

/-! ### Allocation and dropping (R281, R285) -/

/-- Whether a frame is droppable for a requester (R281). -/
def droppable (s : State) (requester : Nat) (f : Frame) : Bool :=
  f.allocated && f.kind == 0 && f.refcount == 1 && f.holds == 0 && !f.recomputing && f.gpins == 0
    && !(getSeq s f.owner).privileged && (getSeq s f.owner).phase != .batched
    && f.owner != requester

/-- Drop a frame: its owner's entry becomes ABSENT and the frame is no longer allocated. -/
def dropFrame (s : State) (fn : Nat) : State :=
  let region := frameRegion fn
  let s1 := (refKeys s fn).foldl (fun t k =>
    let due := neededPage (getSlot t (getSeq t (pteSeq k)).modelSlot) (getSeq t (pteSeq k)) (ptePage k)
    modSeq (modPte t k (fun x => { x with state := .absent, fn := 0, drops := Nat.min (x.drops + 1) 255 }))
      (pteSeq k) (fun e => { e with recomputeDue := e.recomputeDue || due })) s
  modRegion (eraseFrame s1 fn) region (fun r => { r with psDrops := r.psDrops + 1 })

/-- The frame numbers that a page service may drop for a requester, near frames of the named cores and far ones, in the
order of R281. -/
def dropOrder (s : State) (requester region : Nat) (cores : List Nat) : List Nat :=
  let mine := s.frames.filterMap (fun e =>
    let fn := indexFn (e.1 / 4194304) (e.1 % 4194304)
    if e.1 / 4194304 = region ∧ (bitOf fn 25 = true ∨ cores.contains (fn / 4096) = true) ∧ droppable s requester e.2 = true then
      some (e.2.priority, e.2.lastUse, fn) else none)
  (sortBy (fun (a b : Nat × Nat × Nat) =>
    decide (a.1 < b.1) || (a.1 == b.1 && (decide (a.2.1 < b.2.1) || (a.2.1 == b.2.1 && decide (a.2.2 ≤ b.2.2))))) mine).map
    (·.2.2)

/-- Frames that a sequence has reserved at a page service and not yet taken (R285); reservations are held by home core. -/
def reservedAt (e : Seq) (region : Nat) : Nat :=
  sumOf ((e.reservations.filter (fun x => regionOfCore x.1 == region)).map (·.2))

/-- Frames that privileged sequences other than the requester have reserved at a page service. -/
def keptBack (s : State) (requester region : Nat) : Nat :=
  sumOf (s.seqs.map (fun e => if e.1 = requester then 0 else reservedAt e.2 region))

/-- The free frame that a privileged sequence takes from its reservation at a home core (R285): the lowest near one, else the
lowest far one. `keep` of R281 guards frames for such a sequence, so it does not keep it from its own (DEDUCED, log 118). -/
def reservedFrame (s : State) (seq core : Nat) : Option Nat :=
  if tget (getSeq s seq).reservations core = 0 then none
  else (freeNear s core).head?.orElse (fun _ => (freeFar s (regionOfCore core) 1).head?)

/-- A frame for a pair of a sequence (R281): free near, free far, then the first droppable one. -/
def chooseFrame (s : State) (seq core : Nat) : Option (Nat × State) :=
  match reservedFrame s seq core with
  | some fn => some (fn, s)
  | none =>
    let region := regionOfCore core
    let keep := keptBack s seq region
    let near := freeNear s core
    if keep < near.length then (near.head?).map (fun fn => (fn, s))
    else
      let far := freeFar s region (keep + 1)
      if keep < far.length then (far.head?).map (fun fn => (fn, s))
      else match dropOrder s seq region [core] with
        | [] => none
        | fn :: _ => some (fn, dropFrame s fn)

/-- The new frame's entry, with no reference yet. A privileged sequence takes it from its reservation (R285). -/
def claimFrame (s : State) (seq core fn kind key : Nat) : State :=
  let s1 := modFrame s fn (fun _ => {
    kind := kind, allocated := true, layer := pteLayer key, hgroup := pteHgroup key, page := ptePage key
    modelSlot := (getSeq s seq).modelSlot, owner := seq, priority := (getSeq s seq).priority })
  let s2 := if bitOf fn 25 then
      modRegion s1 (frameRegion fn) (fun r => { r with pool := allocInsert r.pool (bitsOf fn 20 0 * 16384) 16384 })
    else s1
  modSeq s2 seq (fun e => { e with
    reservations := tmod e.reservations core (fun n => n - b2n (kind == 0)) })

/-- Allocate a KV frame for a pair (R281). -/
def allocateKv (s : State) (seq core key : Nat) : Option (Nat × State) :=
  match chooseFrame s seq core with
  | none => none
  | some (fn, s1) => some (fn, claimFrame s1 seq core fn 0 key)

/-- Allocate the swatch frame `f` of a pair: the lowest free slot of channel f mod 8, bank (f div 8) mod 16 (R295). -/
def allocateSwatch (s : State) (seq core key : Nat) : Option (Nat × State) :=
  let f := ptePage key
  if !sliceUsable s core then none
  else match firstThat (nearFree s core (f % 8) (f / 8 % 16)) (List.range 32) with
    | none => none
    | some slot =>
      let fn := nearFn core (f % 8) (f / 8 % 16) slot
      some (fn, claimFrame s seq core fn 1 key)

/-- Point an entry at a claimed frame: one reference, with a privileged owner's hold on a KV frame. -/
def linkPte (s : State) (key fn : Nat) (state : PteState) : State :=
  let hold := if pteSwatch key then 0 else ownerHold s (pteSeq key)
  let s1 := modPte s key (fun x => { x with state := state, fn := fn })
  refreshFrame (modFrame s1 fn (fun f => { f with
    refcount := f.refcount + 1, holds := f.holds + hold, recomputing := state == .recomputing })) fn

/-- Copy a frame's 64 blocks, verifying each (R71, R277); tags are kept. -/
def copyFrame (s : State) (finds : Findings) (src dst : Nat) : State :=
  (List.range 64).foldl (fun t i =>
    let r := readBlock t finds (frameAddr src / 256 + i)
    putBlock r.1 (frameAddr dst / 256 + i) r.2.data r.2.restarted r.2.poison)
    (noteThrottle s (.pageService (frameRegion src)) (frameAddr src) 16384)

/-- Point a writer's entry at its copy (R277, R279): PINS and a privileged owner's hold move with it. -/
def repoint (s : State) (key new : Nat) : State :=
  let t := getPte s key
  let old := t.fn
  let moved := t.pins + (if pteSwatch key then 0 else ownerHold s (pteSeq key))
  let of := frameOf s old
  let s1 := modPte s key (fun x => { x with fn := new })
  let s2 := modFrame s1 old (fun f => { f with refcount := f.refcount - 1, holds := f.holds - moved })
  let full := of.full && !decide ((getSeq s (pteSeq key)).length
    < (ptePage key + 1) * (geometryOf (getSlot s (getSeq s (pteSeq key)).modelSlot)).tpp)
  let s3 := modFrame s2 new (fun f => { f with refcount := 1, holds := moved, full := full, swatches := of.swatches })
  refreshFrame (settle s3 old) new

/-- Before a write into a shared frame, copy it for the writer (R277); none when no frame can be allocated. -/
def unshare (s : State) (finds : Findings) (core key : Nat) : Option State :=
  let t := getPte s key
  if (frameOf s t.fn).refcount ≤ 1 then some s
  else
    let got := if pteSwatch key then allocateSwatch s (pteSeq key) core key else allocateKv s (pteSeq key) core key
    match got with
    | none => none
    | some (fn, s1) => some (repoint (copyFrame s1 finds t.fn fn) key fn)

/-! ### Swatches (R295) -/

/-- The key of the swatch entry that covers a page. -/
def swatchKey (key : Nat) : Nat := key + 1048576 - ptePage key + ptePage key / 64

/-- Whether a page has a written swatch. -/
def swatchWritten (s : State) (key : Nat) : Bool :=
  let t := getPte s (swatchKey key)
  t.state == .present && (frameOf s t.fn).swatches.contains (ptePage key % 64)

/-- Whether a page is a candidate of a retrieval row, apart from its sets (R294). -/
def candidatePage (s : State) (key : Nat) : Bool :=
  let t := getPte s key
  t.state == .present && (frameOf s t.fn).full && swatchWritten s key

/-- Whether a page is a candidate for a sequence (R294). -/
def isCandidate (s : State) (sl : ModelSlot) (e : Seq) (key : Nat) : Bool :=
  let g := geometryOf sl
  let n := pagesBelow g e.length
  decide (ptePage key < n) && decide (g.sink ≤ ptePage key) && decide (ptePage key < n - g.recent) && candidatePage s key

/-- The mean of element d of the page's keys in FP32, ascending slots, in SWATCH_FMT with saturation. -/
def swatchElem (blks : List BlockRead) (g : Geometry) (base d : Nat) : Nat :=
  let word (t : Nat) : Word :=
    (toFp32 (decodeElem g.kvFmt (leNat (bytesFrom blks (base + t * keyBytes g + d * elemSize g.kvFmt) (elemSize g.kvFmt))))).1
  let sum := (List.range g.tpp).foldl (fun (acc : Word) t => if t = 0 then word 0 else (fp32Add acc (word t)).1) 0
  let mean := (toFp32 (scaleVal (valOf sum) (-(Nat.log2 g.tpp : Int)))).1
  (encodeElem g.swFmt .nearest true (valOf mean)).1

/-- The cells of a lane's swatch in a bank tile (Table 08-7). -/
def swatchCells (g : Geometry) (tile lane : Nat) (elems : List Nat) : List (Nat × Byte) :=
  (List.zip (List.range elems.length) elems).flatMap (fun e =>
    if elemSize g.swFmt = 2 then cellsOf (tile + (2 * e.1 + lane / 16) * 32 + 2 * (lane % 16)) (toBytes 2 e.2)
    else cellsOf (tile + e.1 * 32 + lane) (toBytes 1 e.2))

/-- The elements of a page's swatch. Where SWATCH_FMT is no swatch format, which only a draft without CAPS bit 2 can have
(R267), their values are not stated and are free (log 119). -/
def swatchElems (s : State) (g : Geometry) (blks : List BlockRead) (base : Nat) : List Nat :=
  if swatchFits g then
    (List.range (swatchCount g)).map (fun d => if d < keyElems g then swatchElem blks g base d else 0)
  else (freeBytes s (swatchCount g * elemSize g.swFmt)).map (·.toNat)

/-- The frame that a page's swatch is written into: the sequence's own, one that it shares copied first (R277), one that was
lost allocated again. The leaf or the copy that cannot be had is an error, named by the page service (R271, R278); a new frame
that cannot be had leaves the group without candidates (R295). -/
def swatchHome (s : State) (finds : Findings) (core key : Nat) : Except Nat (Option State) :=
  let k := swatchKey key
  if (getPte s k).state = .present then
    match unshare s finds core k with
    | some t => .ok (some t)
    | none => .error (regionOfCore core)
  else match ensureLeaf s (regionOfCore core) k with
    | none => .error (regionOfCore core)
    | some t => .ok ((allocateSwatch t (pteSeq key) core k).map (fun r => linkPte r.2 k r.1 .present))

/-- Write the swatch of a page that became FULL into its own swatch frame, with fresh tags, RESTARTED 1. -/
def writeSwatch (s : State) (finds : Findings) (sl : ModelSlot) (core key : Nat) : Except Nat State :=
  if (getSeq s (pteSeq key)).privileged then .ok s
  else match swatchHome s finds core key with
    | .error region => .error region
    | .ok none => .ok s
    | .ok (some t) =>
      let g := geometryOf sl
      let base := frameAddr (getPte t key).fn
      let r := readBlocks t finds (blocksOf base 8192)
      let fn := (getPte r.1 (swatchKey key)).fn
      let lane := ptePage key % 64
      let w := writeCells { r.1 with free := r.1.free + 256 } finds
        (swatchCells g (frameAddr fn + 8192 * (lane / 32)) (lane % 32) (swatchElems r.1 g r.2 base)) true (anyPoison r.2)
      .ok (modFrame w.1 fn (fun f => { f with
        swatches := if f.swatches.contains lane then f.swatches else f.swatches ++ [lane] }))

/-! ### Growth at build (R280, R283) -/

/-- A page that a row needs at build: its entry, its home core, and the state the entry gets; a shared page is copied, and
the first new page of each 64 brings a swatch frame. -/
structure PageNeed where
  key : Nat
  core : Nat
  state : PteState
  copy : Bool
  swatch : Bool := false
deriving DecidableEq, Repr

/-- The pages that tokens a to b − 1 of a sequence touch, for every used pair. -/
def tokenKeys (sl : ModelSlot) (seq a b : Nat) : List (Nat × Nat) :=
  let g := geometryOf sl
  if b ≤ a then []
  else (usedPairs sl).flatMap (fun p =>
    match homeCore sl p.1 p.2 with
    | none => []
    | some c => (rangeFrom (a / g.tpp) ((b - 1) / g.tpp + 1 - a / g.tpp)).map (fun q => (pteKey seq p.1 p.2 false q, c)))

/-- What a row of new tokens needs: new pages, and copies of shared ones. -/
def growNeeds (s : State) (sl : ModelSlot) (seq a b : Nat) : List PageNeed :=
  (tokenKeys sl seq a b).filterMap (fun k =>
    let t := getPte s k.1
    let fresh : PageNeed := {
      key := k.1, core := k.2, state := .present, copy := false
      swatch := ptePage k.1 % 64 == 0 && !(getSeq s seq).privileged }
    match t.state with
    | .noPage => some fresh
    | .absent => some fresh
    | .present => if 2 ≤ (frameOf s t.fn).refcount then some { key := k.1, core := k.2, state := .present, copy := true } else none
    | .recomputing => none)

/-- What a recompute row needs: a frame for every ABSENT page in its range. -/
def recomputeNeeds (s : State) (sl : ModelSlot) (seq a b : Nat) : List PageNeed :=
  (tokenKeys sl seq a b).filterMap (fun k =>
    if (getPte s k.1).state = .absent then some { key := k.1, core := k.2, state := .recomputing, copy := false } else none)

/-- The leaves of a need exist: the page's, and the swatch frame's where one comes with it (R271, R280). -/
def needLeaves (s : State) (n : PageNeed) : Option State :=
  (ensureLeaf s (regionOfCore n.core) n.key).bind (fun t =>
    if n.swatch then ensureLeaf t (regionOfCore n.core) (swatchKey n.key) else some t)

/-- Allocate leaves and frames for every need; answers the frames so far and whether all were had. -/
def allocNeeds (seq : Nat) : State → List PageNeed → List (PageNeed × Nat) → State × List (PageNeed × Nat) × Option Nat
  | s, [], got => (s, got, none)
  | s, n :: rest, got =>
    match needLeaves s n with
    | none => (s, got, some (regionOfCore n.core))
    | some s1 => match allocateKv s1 seq n.core n.key with
      | none => (s1, got, some (regionOfCore n.core))
      | some (fn, s2) => allocNeeds seq s2 rest (got ++ [(n, fn)])

/-- A frame claimed for a page that was not linked returns to FREE and to its reservation. -/
def unclaim (s : State) (seq core fn : Nat) : State :=
  let s1 := if (getSeq s seq).privileged then
      modSeq s seq (fun e => { e with reservations := tmod e.reservations core (· + 1) })
    else s
  freeFrame s1 fn

/-- Satisfy a row's needs all or nothing: answers the state, the new PTE keys, and the page service that failed. -/
def takeNeeds (s : State) (finds : Findings) (seq : Nat) (needs : List PageNeed) : State × List Nat × Option Nat :=
  let r := allocNeeds seq s needs []
  match r.2.2 with
  | some region => (r.2.1.foldl (fun t e => unclaim t seq e.1.core e.2) r.1, [], some region)
  | none =>
    (r.2.1.foldl (fun t e =>
      if e.1.copy then repoint (copyFrame t finds (getPte t e.1.key).fn e.2) e.1.key e.2
      else linkPte t e.1.key e.2 e.1.state) r.1,
     (r.2.1.filter (fun e => !e.1.copy)).map (fun e => e.1.key), none)

/-- The swatch frames that the first page of each 64 brings (R280, R295), whose leaves `needLeaves` made: where one cannot be
had, the group has no candidates. Answers the entries that were made. -/
def takeSwatches (s : State) (sl : ModelSlot) (seq : Nat) (newKeys : List Nat) : State × List Nat :=
  if (getSeq s seq).privileged then (s, [])
  else (newKeys.filter (fun k => ptePage k % 64 == 0)).foldl (fun t k =>
    let core := (homeCore sl (pteLayer k) (pteHgroup k)).getD 0
    let sk := swatchKey k
    if (getPte t.1 sk).state = .present then t
    else match allocateSwatch t.1 seq core sk with
      | none => t
      | some (fn, v) => (linkPte v sk fn .present, t.2 ++ [sk])) (s, [])

/-! ### Opening and closing a sequence -/

/-- The bytes of a sequence's page-table root. -/
def rootBytes (sl : ModelSlot) : Nat := 8 * (geometryOf sl).layers * (geometryOf sl).groups

/-- Free an allocation of a window's pool. -/
def poolFree (s : State) (addr : Nat) : State :=
  let region := (addr - 0x8000000000) / 0x600000000
  modRegion s region (fun r => { r with pool := allocErase r.pool (addr - windowBase region) })

/-- Every entry of a sequence. -/
def seqKeys (s : State) (seq : Nat) : List Nat := (s.ptes.filter (fun e => pteSeq e.1 == seq)).map (·.1)

/-- Release everything that a sequence holds (R349): page references with their pins and holds, reservations, page
tables, token log. The entry becomes FREE. -/
def releaseSeq (s : State) (seq : Nat) : State :=
  let e := getSeq s seq
  let s1 := (seqKeys s seq).foldl (fun t k => releasePte t k .noPage) s
  let s2 : State := { s1 with ptes := s1.ptes.filter (fun x => pteSeq x.1 != seq) }
  let mineD := s2.dirs.filter (fun x => x.1 / 65536 == seq)
  let mineL := s2.leaves.filter (fun x => pteSeq (x.1 * 512) == seq)
  let s3 := (mineD ++ mineL).foldl (fun t x => ptFree t x.2) s2
  let s4 : State := { s3 with
    dirs := s3.dirs.filter (fun x => x.1 / 65536 != seq), leaves := s3.leaves.filter (fun x => pteSeq (x.1 * 512) != seq) }
  let s5 := if e.ptRoot = 0 then s4 else ptFree s4 e.ptRoot
  let s6 := if e.tokenLog = 0 then s5 else freeLogFrames (poolFree s5 e.tokenLog) seq e.tokenLog (tokenLogBytes e)
  let s7 := if e.lost then undegrade s6 24 (some (listEntry 0x0E seq)) else s6
  modSeq s7 seq (fun _ => {})

/-- A close completes: every SEQ_CLOSE that waits replies, and the entry is FREE. -/
def completeClose (s : State) (seq : Nat) : State :=
  let e := getSeq s seq
  releaseSeq (e.closers.foldl (fun t p => finish t p stOk []) s) seq

/-! ### Pins, gathers and writes (R278) -/

/-- The serial of the running step-batch that holds a row of a sequence. -/
def batchSerial (s : State) (seq : Nat) : Option Nat :=
  (firstThat (fun b => b.running && b.rows.any (fun r => r.entry.seq == seq)) s.batches).map (·.serial)

/-- pin (R278): a present page's frame gains a gather's pin; none is a page that is skipped. -/
def pinPage (s : State) (key : Nat) : Option (Nat × State) :=
  let t := getPte s key
  if t.state = .present then
    some (t.fn, modFrame s t.fn (fun f => { f with
      gpins := f.gpins + 1, lastUse := (batchSerial s (pteSeq key)).getD f.lastUse }))
  else none

/-- unpin (R278). -/
def unpinFrame (s : State) (fn : Nat) : State :=
  settle (modFrame s fn (fun f => { f with gpins := f.gpins - 1 })) fn

/-- Write bytes into a page of a sequence (R275, R277): a shared frame is copied first, and the writer parks when no
frame can be had. Answers the state and whether the write was done. -/
def pageWriteAt (s : State) (finds : Findings) (key offset : Nat) (b : Bytes) (restarted poison : Bool) : State × Bool :=
  let seq := pteSeq key
  let sl := getSlot s (getSeq s seq).modelSlot
  match homeCore sl (pteLayer key) (pteHgroup key) with
  | none => (s, false)
  | some core =>
    let t := getPte s key
    if t.state ≠ .present ∧ t.state ≠ .recomputing then (s, false)
    else match unshare s finds core key with
      | none => (parkForPage s seq (regionOfCore core), false)
      | some s1 => ((writeRange s1 finds (frameAddr (getPte s1 key).fn + offset) b restarted poison).1, true)

/-! ### Frames that leave service (R284, R506) -/

/-- Whether a frame has left service: its bank, layer, slice or home granules. -/
def frameOut (s : State) (fn : Nat) : Bool :=
  if bitOf fn 25 then windowDegraded s (frameAddr fn) 16384 (frameRegion fn) || regionUnavailable s (frameRegion fn)
  else bankMappedOut s (frameAddr fn / 0x80000) || !sliceUsable s (fn / 4096)

/-- Every entry that references a frame becomes ABSENT, releasing PINS and holds; `lost` marks the sequences LOST, which the
capacity report then lists. A privileged sequence's frame returns to its reservation, from which it is recomputed (R285). -/
def absentFrame (s : State) (fn : Nat) (lost : Bool) : State :=
  (refKeys s fn).foldl (fun t k =>
    let seq := pteSeq k
    let sl := getSlot t (getSeq t seq).modelSlot
    let due := !pteSwatch k && neededPage sl (getSeq t seq) (ptePage k)
    let hold := if pteSwatch k then 0 else ownerHold t seq
    let p := getPte t k
    let t1 := modPte t k (fun x => { x with state := .absent, fn := 0, pins := 0 })
    let t2 := modFrame t1 fn (fun f => { f with refcount := f.refcount - 1, holds := f.holds - (p.pins + hold) })
    let t3 := if hold = 1 then
        let core := (homeCore sl (pteLayer k) (pteHgroup k)).getD 0
        modSeq t2 seq (fun e => { e with reservations := tmod e.reservations core (· + 1) })
      else t2
    let was := (getSeq t3 seq).lost
    let t4 := modSeq t3 seq (fun e => { e with lost := e.lost || lost, recomputeDue := e.recomputeDue || due })
    if lost && !was then degrade t4 24 (some (listEntry 0x0E seq)) else t4) s

/-- FRAME_LOSS_WALK (R284): the entries of a frame out of service become ABSENT and their sequences LOST. -/
def frameLoss (s : State) (region index : Nat) : State :=
  let fn := indexFn region index
  if (frameOf s fn).allocated && frameOut s fn then settle (absentFrame s fn true) fn else s

/-- Whether a frame holds a poisoned block. -/
def framePoisoned (s : State) (fn : Nat) : Bool :=
  (rangeFrom (frameAddr fn / 256) 64).any (fun b => (tagOf s.mem b).poison)

/-- POISON_PAGE_DROP (R506): the page is dropped without LOST, its frame zeroed and freed, and a record written. -/
def poisonDrop (s : State) (region index : Nat) : State :=
  let fn := indexFn region index
  if (frameOf s fn).allocated && framePoisoned s fn then
    let s1 := absentFrame s fn false
    let s2 : State := { s1 with mem := zeroFill s1.mem (frameAddr fn) 16384 }
    recordRegion (settle s2 fn) region 0x0A05 .contained (frameAddr fn) fn stPoison
  else s

/-! ### The rows of the table -/

/-- GATHER_PIN. -/
def execGatherPin (seq layer hgroup page : Nat) (s : State) : Host.Outcome State Fault Refusal :=
  .next (match pinPage s (pteKey seq layer hgroup false page) with
    | none => s
    | some r => r.2)

/-- GATHER_UNPIN: of a frame that a gather holds. -/
def execGatherUnpin (region frame : Nat) (s : State) : Host.Outcome State Fault Refusal :=
  .next (if (frameOf s (indexFn region frame)).gpins = 0 then s else unpinFrame s (indexFn region frame))

/-- PAGE_WRITE: bytes inside one page. -/
def execPageWrite (seq layer hgroup page offset : Nat) (bytes : Bytes) (s : State) : Host.Outcome State Fault Refusal :=
  .next (if 16384 < offset + bytes.length then s
    else (pageWriteAt s [] (pteKey seq layer hgroup false page) offset bytes true false).1)

/-- PAGE_RELEASE: the reference of a sequence to a page ends. -/
def execPageRelease (seq layer hgroup page : Nat) (s : State) : Host.Outcome State Fault Refusal :=
  .next (releasePte s (pteKey seq layer hgroup false page) .noPage)

/-- ROOT_ENTRY_REQUEST (R271): the home region's page service answers with the pair's root entry. -/
def execRootEntryRequest (region seq layer hgroup : Nat) (s : State) : Host.Outcome State Fault Refusal :=
  .next (if (getSeq s seq).phase = .free ∨ (getSeq s seq).homeRegion = region then s
    else { s with delivered := { status := stOk, data := toBytes 8 (tget s.dirs (pairKey seq layer hgroup)), poison := false } })

/-- FRAME_LOSS_WALK. -/
def execFrameLossWalk (region frame : Nat) (s : State) : Host.Outcome State Fault Refusal := .next (frameLoss s region frame)

/-- POISON_PAGE_DROP. -/
def execPoisonPageDrop (region frame : Nat) (s : State) : Host.Outcome State Fault Refusal := .next (poisonDrop s region frame)

end Sys2Proof.Machine
end

