-- ==== Sys2Proof/Machine/Move.lean ====
section
/-!
DEFINITION. The move engine (spec/06 R173, R174; spec/10 R290 to R296; spec/08 R218 to R223): MOVE, ATTN_GATHER,
BOBBIN_SEQ and SWATCH_SCORE, with admission to processor mode and the exit from it.
-/
namespace Sys2Proof.Machine

/-! ### MOVE (R173) -/

/-- The effect of an issued MOVE: an access that a channel holds back waits (R216), and so does one that an earlier descriptor's
writes precede (R54). A MOVE of FP6 copies bits [7:6] as read with the tags kept (R69); R145 writes them 0 where a unit makes
a code (DESIGN CHOICE, log 110). -/
def moveRun (core : Nat) (finds : Findings) (s : State) : State :=
  match issuedSlot (getCore s core) .move opMove with
  | none => s
  | some x =>
    let a : Opd := { opd20 x.desc 16 with addr := x.addrA }
    let c : Opd := { opd20 x.desc 36 with addr := x.addrC }
    if rangesWait s (opdRanges a ++ opdRanges c) || engineOrder s core .move x (opdRanges a ++ opdRanges c) then s
    else
      let r := readOperands s core .move finds (opdRanges a)
      let w := copyBytes r.1 finds r.2 (copyTriples r.2 (elemSize a.fmt) (List.zip (opdByteAddrs c) (opdByteAddrs a)))
      markExecuted w.1 core .move x.index (engineStatus r.2 w.2)

/-! ### ATTN_GATHER (R291 to R293) -/

/-- The row-table entry of a slot's batch row; an empty row where there is none (R287). -/
def rowEntryOf (c : Core) (row : Nat) : RowEntry :=
  match c.rowTable with
  | none => {}
  | some t => t.rows.getD row {}

/-- FIRST's fields with LIST 0 (Table 10-10). -/
def fiPage (d : BitVec 512) : Nat := bitsOf (scFirst d) 28 0
def fiRows (d : BitVec 512) : Nat := bitsOf (scFirst d) 30 29
def fiFromEnd (d : BitVec 512) : Bool := bitOf (scFirst d) 31

/-- Whether a gather or score applies to a row (R292): the row is not empty and ROWS admits it; LIST 1 takes only
retrieval rows. -/
def appliesTo (d : BitVec 512) (e : RowEntry) : Bool :=
  e.seq != 0xFFF
    && (if scList d then e.retrieval
        else match fiRows d with
          | 0 => true
          | 1 => !e.retrieval
          | 2 => e.retrieval
          | _ => false)

/-- The first page that FIRST names when the row has n pages. -/
def firstPage (d : BitVec 512) (n : Nat) : Nat := if fiFromEnd d then n - fiPage d else fiPage d

/-- The pages that a LIST 0 descriptor names when the row has n pages. -/
def namedPages (d : BitVec 512) (n : Nat) : List Nat := rangeFrom (firstPage d n) (dOpx d)

/-- The FP32 bias values of a gather (R292): `real` tokens, E1 positions, NEW append positions. -/
def biasRow (real e1 new : Nat) : Bytes :=
  (List.range (e1 + 64)).flatMap (fun i =>
    if i < real ∨ (e1 ≤ i ∧ i < e1 + new) then toBytes 4 0 else toBytes 4 0xFF800000)

/-- Source and destination byte addresses of one token of a page: KV bit 0 keys, bit 1 values. -/
def tokenPairs (g : Geometry) (kv : Nat) (c : Opd) (frame slot pos : Nat) : List (Nat × Nat) :=
  let kb := keyBytes g
  let dst (p : Nat) : Nat := ((c.addr : Int) + (pos : Nat) * c.s1 + (p : Nat) * c.s2).toNat
  (if bitOf kv 0 then (List.range kb).map (fun i => (dst 0 + i, frame + slot * kb + i)) else [])
    ++ (if bitOf kv 1 then
          (List.range kb).map (fun i => (dst (if bitOf kv 0 then 1 else 0) + i, frame + 8192 + slot * kb + i)) else [])

/-- The token positions of the taken pages in order: (page, slot, position). -/
def gatherTokens (g : Geometry) (length : Nat) (pages : List Nat) : List (Nat × Nat × Nat) :=
  let toks := pages.flatMap (fun p => (List.range (Nat.min g.tpp (length - p * g.tpp))).map (fun t => (p, t)))
  (List.zip (List.range toks.length) toks).map (fun e => (e.2.1, e.2.2, e.1))

/-- The bias row of a gather's destination. -/
def biasAddr (c : Opd) : Nat := ((c.addr : Int) + (c.e2 : Nat) * c.s2).toNat

/-- Record the append positions of the first KV 0b11 gather that applies to a row (R293). -/
def noteAppend (s : State) (core row : Nat) (d : BitVec 512) (c : Opd) : State :=
  if scKv d ≠ 3 then s
  else modCore s core (fun k =>
    if k.appends.any (fun a => a.row == row && a.layer == scLayer d && a.hgroup == scHgroup d) then k
    else { k with appends := k.appends ++ [{
      row := row, layer := scLayer d, hgroup := scHgroup d
      addr := ((c.addr : Int) + (c.e1 : Nat) * c.s1).toNat, stride := c.s1, plane := c.s2 }] })

/-- The effect of an issued ATTN_GATHER (R292). Pages whose frame leaves service between pin and read are delivered
poisoned (R284). -/
def gatherRun (core : Nat) (finds : Findings) (s : State) : State :=
  match issuedSlot (getCore s core) .move opGather with
  | none => s
  | some x =>
    let d := x.desc
    let c : Opd := { opd20 d 24 with addr := x.addrC }
    let k := getCore s core
    let e := rowEntryOf k x.row
    if engineOrder s core .move x (cutRanges x ++ (if scList d then
        [(((storeBase core + scFirst d % 2 ^ 18 : Nat) : Int), 4 * dOpx d)] else [])) then s
    else if !appliesTo d e then
      let w := writeRange s finds (biasAddr c) (biasRow 0 c.e1 0) true false
      markExecuted w.1 core .move x.index w.2
    else
      let sl := getSlot s (getSeq s e.seq).modelSlot
      let g := geometryOf sl
      let n := pagesBelow g e.length
      let ls := if scList d then
          readOperands s core .move finds [(((storeBase core + scFirst d % 2 ^ 18 : Nat) : Int), 4 * dOpx d)]
        else (s, [])
      let listed := (List.range (dOpx d)).map (fun i =>
        leNat (bytesFrom ls.2 (storeBase core + scFirst d % 2 ^ 18 + 4 * i) 4))
      let named := if scList d then (listed.filter (· != 0xFFFFFFFF)).eraseDups else namedPages d n
      let pages := named.filter (fun p =>
        let key := pteKey e.seq (scLayer d) (scHgroup d) false p
        decide (p < n) && (getPte ls.1 key).state == .present
          && (!scList d || isCandidate ls.1 sl { getSeq ls.1 e.seq with length := e.length } key))
      let fnOf (p : Nat) : Nat := (getPte ls.1 (pteKey e.seq (scLayer d) (scHgroup d) false p)).fn
      let frames (l : List Nat) : List (Int × Nat) := l.map (fun p => (((frameAddr (fnOf p) : Nat) : Int), 16384))
      let toks := gatherTokens g e.length pages
      if c.e1 < toks.length then faultCore ls.1 core x.index 0x02 stBadPacket
      else if rangesWait ls.1 (frames pages) || engineOrder ls.1 core .move x (frames pages ++ cutRanges x) then s
      else
        let pinned := pages.foldl (fun t p =>
          match pinPage t (pteKey e.seq (scLayer d) (scHgroup d) false p) with
          | some r => r.2
          | none => t) ls.1
        let gone := pages.filter (fun p => frameOut pinned (fnOf p))
        let live := toks.filter (fun t => !gone.contains t.1)
        let dead := toks.filter (fun t => gone.contains t.1)
        let pairsOf (l : List (Nat × Nat × Nat)) : List (Nat × Nat) :=
          l.flatMap (fun t => tokenPairs g (scKv d) c (frameAddr (fnOf t.1)) t.2.1 t.2.2)
        let lp := pairsOf live
        let slow := live.foldl (fun t p => noteThrottle t (.engine core .move) (frameAddr (fnOf p.1)) 16384) pinned
        let r := readBlocks slow finds ((lp.map (fun p => p.2 / 256)).eraseDups)
        let w1 := copyBytes r.1 finds r.2 (lp.map (fun p => (p.1, p.2, byteFrom r.2 p.2)))
        let dp := pairsOf dead
        let w2 := writeCells { w1.1 with free := w1.1.free + dp.length } finds
          ((List.zip (List.range dp.length) dp).map (fun q => (q.2.1, Config.freeBits 8 (w1.1.free + q.1)))) false true
        let t := k.rowTable.getD {}
        let nPad := t.padTokens / g.tpp
        let extent := if t.path || scList d then 0
          else Nat.min (g.tpp * ((namedPages d nPad).filter (fun p => decide (p < nPad))).length) c.e1
        let padCells := (rangeFrom toks.length (extent - toks.length)).flatMap (fun pos =>
          (tokenPairs g (scKv d) c 0 0 pos).map (fun q => (q.1, (0 : Byte))))
        let w3 := writeCells w2.1 finds padCells true false
        let w4 := writeRange w3.1 finds (biasAddr c) (biasRow toks.length c.e1 e.newTokens) true false
        let s5 := pages.foldl (fun t p => unpinFrame t (fnOf p)) w4.1
        let st := engineStatus (ls.2 ++ r.2) (joinStatus w1.2 (joinStatus w2.2 (joinStatus w3.2 w4.2)))
        markExecuted (noteAppend s5 core x.row d c) core .move x.index (if dead.isEmpty then st else joinStatus st stPoison)

/-! ### Admission to processor mode (R218 to R222) -/

/-- LIMIT of an admission level (Table 08-4). -/
def admitLimit (level : Nat) : Nat := if level = 7 then 4096 else 512 * level

/-- A channel waits for admission on behalf of a descriptor (R220): its request is queued unless it is in processor
mode or already waits. -/
def requestAdmission (s : State) (ch core index : Nat) : State :=
  let c := getChan s ch
  let s1 := modChan s ch (fun k => { k with waitAdmit := k.waitAdmit ++ [(core, index)] })
  if c.run.isSome || (getRegion s1 (ch / 4096)).admitQueue.contains ch then s1
  else modRegion s1 (ch / 4096) (fun r => { r with admitQueue := r.admitQueue ++ [ch] })

/-- The channels of a layer mask of a core. -/
def maskChans (core mask : Nat) : List Nat := ((List.range 8).filter (fun l => bitOf mask l)).map (chanOf core)

/-- An issued slot of an opcode that has not requested its channels. -/
def newSlot (op : Nat) (x : EngSlot) : Bool := x.state == .issued && dOpcode x.desc == op && x.chans.isEmpty

/-- The effect of an issued BOBBIN_SEQ: its channels request admission (Table 08-2, step 2). -/
def bobbinRun (core : Nat) (s : State) : State :=
  match firstThat (newSlot opBobbin) (getCore s core).moveSlots with
  | none => s
  | some x =>
    if engineOrder s core .move x (cutRanges x
        ++ [(((storeBase core + bcOffset x.desc : Nat) : Int), 8 * bcLen x.desc)]
        ++ ((maskChans core (bcMask x.desc)).map (fun ch => (((ch * 0x800000 : Nat) : Int), 0x800000)))) then s
    else
    let chs := maskChans core (bcMask x.desc)
    let s1 := modMoveSlot s core (newSlot opBobbin) (fun y => { y with chans := chs })
    chs.foldl (fun t ch => requestAdmission t ch core x.index) s1

/-- Whether a draft carries the RILAVANIK flag (Table 06-1). -/
def rilavanik (sl : ModelSlot) : Bool := bitOf (fieldAt sl.header 0x33 1) 1

/-- Entry step 6 for a BOBBIN_SEQ: the sequence is read and checked, the bobbins reset (R215), the first banks start. -/
def enterBobbin (s : State) (ch core : Nat) (x : EngSlot) (finds : Findings) : State :=
  let d := x.desc
  let r := readOperands s core .move finds [(((storeBase core + bcOffset d : Nat) : Int), 8 * bcLen d)]
  let uops := (List.range (bcLen d)).map (fun i =>
    BitVec.ofNat 64 (leNat (bytesFrom r.2 (storeBase core + bcOffset d + 8 * i) 8)))
  let banks := (List.range 16).filter (fun b => bitOf (bcArg d) b)
  let ril := match (getCore s core).program with
    | none => false
    | some p => rilavanik (getSlot s p.slot)
  let c : Opd := { opd20 d 24 with addr := x.addrC }
  let ret := bitOf (dOpx d) 0
  let run : BobRun := {
    core := core, slotIndex := x.index, bankMask := BitVec.ofNat 16 (bcArg d), uops := uops
    banks := banks.map (fun b => (b, {})), compat := uops.any isCompat, poisoned := anyPoison r.2
    retAddr := if ret then some x.addrC else none, retS1 := if ret then c.s1 else 0, retS2 := if ret then c.s2 else 0 }
  if !sequenceOk ril uops then
    let bad := (findIndex (fun u => !uopClean ril uops.length u) uops).getD (uops.length - 1)
    bobFault (modChan r.1 ch (fun k => { k with run := some run })) finds ch (banks.headD 0) run bad 0x01 stBadPacket
  else modChan r.1 ch (fun k => { k with run := some (fillSlots run) })

/-! ### SWATCH_SCORE (R296) -/

/-- The pages that a score names, with their position. -/
def scorePages (d : BitVec 512) (n : Nat) : List (Nat × Nat) := List.zip (List.range (dOpx d)) (namedPages d n)

/-- The candidate pages of a score that applies, with position and swatch frame. -/
def scoreCandidates (s : State) (core : Nat) (x : EngSlot) : List (Nat × Nat × Nat) :=
  let d := x.desc
  let e := rowEntryOf (getCore s core) x.row
  if !appliesTo d e || !e.retrieval then []
  else
    let sl := getSlot s (getSeq s e.seq).modelSlot
    let n := pagesBelow (geometryOf sl) e.length
    (scorePages d n).filterMap (fun p =>
      let key := pteKey e.seq (scLayer d) (scHgroup d) false p.2
      if isCandidate s sl { getSeq s e.seq with length := e.length } key then
        some (p.1, p.2, (getPte s (swatchKey key)).fn)
      else none)

/-- The channel of a swatch frame. -/
def fnChan (fn : Nat) : Nat := chanOf (fn / 4096) (fn / 512 % 8)

/-- Write scores at their positions of operand C. -/
def writeScores (s : State) (finds : Findings) (x : EngSlot) (scores : List (Nat × Word)) (poison : Bool) : State :=
  let c : Opd := { opd20 x.desc 44 with addr := x.addrC }
  let addrs := elemAddrs c
  (writeCells s finds (scores.flatMap (fun p => cellsOf (addrs.getD p.1 0) (toBytes 4 p.2.toNat))) true poison).1

/-- The effect of an issued SWATCH_SCORE: NaN everywhere first; the swatch frames of the candidates are pinned and their
channels request admission. -/
def scoreRun (core : Nat) (finds : Findings) (s : State) : State :=
  match firstThat (newSlot opScore) (getCore s core).moveSlots with
  | none => s
  | some x =>
    let cands := scoreCandidates s core x
    let fns := (cands.map (fun c => c.2.2)).eraseDups
    if engineOrder s core .move x (cutRanges x ++ opdRanges { opd20 x.desc 24 with addr := x.addrA }
        ++ fns.map (fun fn => (((frameAddr fn : Nat) : Int), 16384))) then s
    else
    let chs := (fns.map fnChan).eraseDups
    let s1 := writeScores s finds x ((List.range (dOpx x.desc)).map (fun i => (i, defaultNan))) false
    let s2 := fns.foldl (fun t fn => modFrame t fn (fun f => { f with
      gpins := f.gpins + 1, lastUse := (batchSerial s (rowEntryOf (getCore s core) x.row).seq).getD f.lastUse })) s1
    if chs.isEmpty then markExecuted s2 core .move x.index stOk
    else
      let s3 := modMoveSlot s2 core (newSlot opScore) (fun y => { y with chans := chs, pinned := fns })
      chs.foldl (fun t ch => requestAdmission t ch core x.index) s3

/-- The bank of a near frame inside its channel. -/
def fnBank (fn : Nat) : Nat := frameAddr fn / 0x80000 % 16

/-- The micro-operations of a score's tile (R296): a CLR, a MAC or MACW over the swatch's elements, and a WB32. -/
def scoreUops (g : Geometry) (cfmt : CFmt) : List Word64 :=
  let n := (swatchCount g - 1) * 65536
  [BitVec.ofNat 64 (0x05 + 256 * (cfmtCode cfmt - 1)),
   BitVec.ofNat 64 (if elemSize g.swFmt = 2 then 0x06 + n else 0x07 + 256 * g.swFmt + n), 0x0D]

/-- Entry of a channel for a SWATCH_SCORE: each bank that holds frames takes the query into its register file and will run its
tiles in order (R296, log 106). -/
def enterScore (s : State) (ch core : Nat) (x : EngSlot) (finds : Findings) : State :=
  let a : Opd := { opd20 x.desc 24 with addr := x.addrA }
  let c : Opd := { opd20 x.desc 44 with addr := x.addrC }
  let g := geometryOf (getSlot s (getSeq s (rowEntryOf (getCore s core) x.row).seq).modelSlot)
  let mine := (scoreCandidates s core x).filter (fun y => x.pinned.contains y.2.2 && fnChan y.2.2 == ch)
  let fns := (mine.map (fun y => y.2.2)).eraseDups
  let qr := readOperands s core .move finds (rowRanges a 0 0)
  let q := (rowCodes qr.2 a 0 0).map (BitVec.ofNat 16)
  let addrs := elemAddrs c
  let banks := (List.range 16).filter (fun b => fns.any (fun fn => fnBank fn == b))
  let run : BobRun := {
    core := core, slotIndex := x.index, score := true, uops := scoreUops g (if a.fmt = 2 then .fp16 else .bf16)
    banks := banks.map (fun b => (b, { v := q })), frames := banks.map (fun b => (b, fns.filter (fun fn => fnBank fn == b)))
    outs := mine.map (fun y => (y.2.2, y.2.1 % 64, addrs.getD y.1 0)), poisoned := anyPoison qr.2 }
  modChan qr.1 ch (fun k => { k with run := some (fillSlots run) })

/-- Whether a waiting channel can be granted: its band admits it and nothing holds it (R205, R208, R221). -/
def grantable (s : State) (ch : Nat) : Bool :=
  let c := getChan s ch
  !c.waitAdmit.isEmpty && decide (c.band.toNat ≤ 2) && c.run.isNone && !(layerOf s ch).selfRefresh && !(layerOf s ch).inReset
    && !(c.tg.running && !c.tg.cur.readOnly)

/-- ADMISSION_GRANT (R221): the first request that the band admits, when ACTIVE is below LIMIT. -/
def admissionGrant (region : Nat) (finds : Findings) (s : State) : State :=
  let g := getRegion s region
  if g.inReset || decide (admitLimit g.admitLevel.toNat ≤ g.active) then s
  else match firstThat (grantable s) g.admitQueue with
    | none => s
    | some ch =>
      match (getChan s ch).waitAdmit with
      | [] => s
      | (core, index) :: rest =>
        let s1 := modChan s ch (fun k => { k with waitAdmit := rest })
        let s2 := modRegion s1 region (fun r => { r with admitQueue := r.admitQueue.filter (· != ch), active := r.active + 1 })
        match firstThat (holdsChan index ch) (getCore s2 core).moveSlots with
        | none => leaveProcessor s2 ch
        | some x => if dOpcode x.desc = opScore then enterScore s2 ch core x finds else enterBobbin s2 ch core x finds

/-- A channel of a SWATCH_SCORE has exited: its frames are unpinned; after the last channel the descriptor has executed. -/
def scoreChannelDone (s : State) (ch : Nat) (r : BobRun) : State :=
  match firstThat (holdsChan r.slotIndex ch) (getCore s r.core).moveSlots with
  | none => leaveProcessor s ch
  | some x =>
    let mine := x.pinned.filter (fun fn => fnChan fn == ch)
    let s1 := mine.foldl unpinFrame (leaveProcessor s ch)
    let y := { x with
      chans := x.chans.filter (· != ch), pinned := x.pinned.filter (fun fn => fnChan fn != ch)
      poisoned := x.poisoned || r.poisoned
      state := if x.chans.all (· == ch) then SlotState.executed else x.state }
    let s2 := noteConsumed (modMoveSlot s1 r.core (holdsChan r.slotIndex ch) (fun _ => y)) r.core
      (if r.poisoned then stPoison else stOk)
    if !y.chans.isEmpty then s2
    else
      let c : Opd := { opd20 x.desc 44 with addr := x.addrC }
      if y.poisoned then (((elemAddrs c).take (dOpx x.desc)).map (· / 256)).eraseDups.foldl poisonBlock s2 else s2

/-- PROCESSOR_MODE_EXIT (R219, Table 08-3): when every bank of the run has executed END. -/
def processorExit (ch : Nat) (finds : Findings) (s : State) : State :=
  match (getChan s ch).run with
  | none => s
  | some r =>
    if !allEnded r then s
    else if r.score then scoreChannelDone s ch r
    else bobbinChannelDone (mergeParts finds s r) ch r

/-! ### The rows of the table -/

/-- MOVE. -/
def execMove (core : Nat) (finds : Findings) (s : State) : Host.Outcome State Fault Refusal := .next (moveRun core finds s)

/-- ATTN_GATHER. -/
def execAttnGather (core : Nat) (finds : Findings) (s : State) : Host.Outcome State Fault Refusal :=
  .next (gatherRun core finds s)

/-- BOBBIN_SEQ. -/
def execBobbinSeq (core : Nat) (s : State) : Host.Outcome State Fault Refusal := .next (bobbinRun core s)

/-- SWATCH_SCORE. -/
def execSwatchScore (core : Nat) (finds : Findings) (s : State) : Host.Outcome State Fault Refusal :=
  .next (scoreRun core finds s)

/-- ADMISSION_GRANT. -/
def execAdmissionGrant (region : Nat) (finds : Findings) (s : State) : Host.Outcome State Fault Refusal :=
  .next (admissionGrant region finds s)

/-- PROCESSOR_MODE_EXIT. -/
def execProcessorModeExit (ch : Nat) (s : State) (finds : Findings := []) : Host.Outcome State Fault Refusal :=
  .next (processorExit ch finds s)

end Sys2Proof.Machine
end

