-- ==== Sys2Proof/Machine/Sequencer.lean ====
section
/-!
DEFINITION. The sequencer (spec/06_drafts.md R174 to R187): programs held in the queue area, starts and weave switches,
the dispatcher with LOOP and HALT, issue with its waits and run-time checks (Table 06-19, spec/08 Table 08-8, spec/10
R290), completion with its signal, KNOT_ARRIVE and KNOT_WAIT, and the abort of a program.
-/
namespace Sys2Proof.Machine

/-! ### Programs in the queue area (R186) -/

/-- The core-store offset of a descriptor entry. -/
def queueAddr (core entry : Nat) : Nat := storeBase core + 0x38000 + 64 * entry

/-- The descriptor with an index of the program that a core runs, as the queue holds it. -/
def descAt (s : State) (core : Nat) (p : HeldProgram) (index : Nat) : BitVec 512 :=
  BitVec.ofNat 512 (leNat (readBytes s.mem (queueAddr core (p.base + index)) 64))

/-- The data of a role's STEP_PROGRAM section (R162). -/
def programSection (sl : ModelSlot) (role : Nat) : Bytes :=
  match firstThat (fun k => k.type == 3 && fieldAt k.data 0 2 == role) sl.kept with
  | some k => k.data
  | none => []

/-- DESC_COUNT and ENTRY of a role's program. -/
def descCountOf (sl : ModelSlot) (role : Nat) : Nat := fieldAt (programSection sl role) 2 2
def entryOf (sl : ModelSlot) (role : Nat) : Nat := fieldAt (programSection sl role) 4 2

/-- The far-allocation offset of a role's relocated program in the program area (R169). -/
def programOffset (sl : ModelSlot) (role : Nat) : Nat :=
  fieldAt sl.header 0x50 8 + sumOf ((List.range role).map (fun r => ceilDiv (64 * descCountOf sl r) 256 * 256))

/-- The cores of a weave. -/
def weaveCores (sl : ModelSlot) : List Nat := sl.weave.flatMap (fun b => rangeFrom (b * 64) 64)

/-- The cores of a weave that run a program. -/
def roleCores (sl : ModelSlot) : List Nat := (weaveCores sl).filter (fun c => (roleOfCore sl c).isSome)

/-- Evict the least recently started programs until `n` contiguous entries are free (R186). -/
def makeRoom (n : Nat) : Nat → List HeldProgram → List HeldProgram × Nat
  | 0, _ => ([], 0)
  | fuel + 1, q =>
    match firstFit 1 n 0 512 (sortBy (fun a b => decide (a.1 ≤ b.1)) (q.map (fun h => (h.base, h.count)))) with
    | some b => (q, b)
    | none => makeRoom n fuel q.tail

/-- Copy a slot's program into a core's queue area when it is not held there (Table 06-22, step 2). -/
def holdProgram (s : State) (n core : Nat) : State :=
  let sl := getSlot s n
  match roleOfCore sl core with
  | none => s
  | some role =>
    let c := getCore s core
    if c.queue.any (fun h => h.slot == n) then s
    else
      let cnt := descCountOf sl role
      let r := makeRoom cnt (c.queue.length + 1) c.queue
      let src := sl.far.1 + programOffset sl role
      let b := readBlocks (noteThrottle s (.regionCtl (regionOfCore core)) src (64 * cnt)) [] (blocksOf src (64 * cnt))
      let pairs := (List.range (64 * cnt)).map (fun i => (queueAddr core r.2 + i, src + i, byteFrom b.2 (src + i)))
      let s1 := (copyBytes b.1 [] b.2 pairs).1
      modCore s1 core (fun k => { k with
        queue := r.1 ++ [{ slot := n, base := r.2, count := cnt, entry := entryOf sl role }] })

/-- The program that a core holds for a slot. -/
def heldFor (c : Core) (n : Nat) : Option HeldProgram := firstThat (fun h => h.slot == n) c.queue

/-- Load a draft's feeder tables into a core (R156). Where FEEDER_FMT is 0xF the feeder keeps the table it holds (DESIGN CHOICE,
log 114). -/
def loadFeeders (sl : ModelSlot) (c : Core) : Core :=
  let f := fieldAt sl.header 0x32 1
  let c1 := if f % 16 = 0xF then c else { c with warpFmt := BitVec.ofNat 4 (f % 16), warpValid := true }
  if f / 16 = 0xF then c1 else { c1 with weftFmt := BitVec.ofNat 4 (f / 16), weftValid := true }

/-- The EPOCH of a start (R187): step-batches of the model started since its epoch origin, the running one not
counted. -/
def epochOf (s : State) (n : Nat) : Nat :=
  if s.batches.any (fun b => b.slot == n && b.running) then (getSlot s n).epoch - 1 else (getSlot s n).epoch

/-- Whether a core can start a program: IDLE, in service, not self-fenced and not in reset. -/
def startable (s : State) (core : Nat) : Bool :=
  let c := getCore s core
  c.seqr == .idle && !c.absent && !c.fenced && !c.selfFenced && !c.inReset && !(getRegion s (regionOfCore core)).inReset
    && s.thermal.stop == 0 && !(tget s.dies (dieOfCore core)).clocksStopped

/-- Start a held program on a core (R175, R214): local knots, X and TRIP are cleared, the row base is loaded and the
feeder tables that a reset invalidated are reloaded (R156). -/
def startProgram (s : State) (core : Nat) (h : HeldProgram) : State :=
  let sl := getSlot s h.slot
  modCore s core (fun c => loadFeeders sl { c with
    seqr := .running, program := some h, queue := c.queue.filter (· != h) ++ [h], pc := h.entry
    epoch := BitVec.ofNat 48 (epochOf s h.slot), rowBase := sl.rowBase
    localKnots := [], xreg := [], trip := [], halted := false, haltPending := none
    appends := [] })

/-- PROGRAM_START (R175): a core that holds a program and is IDLE starts it again. -/
def programStart (core : Nat) (s : State) : State :=
  match (getCore s core).program with
  | none => s
  | some h => if startable s core && (getCore s core).queue.contains h then startProgram s core h else s

/-- Whether a core of a weave takes feeder tables: it is in service and not in reset. -/
def takesTables (c : Core) : Bool := !c.absent && !c.fenced && !c.selfFenced && !c.inReset

/-- Load the feeders of every weave core (R156), and start each that has a role (Table 06-22, steps 2 to 5). -/
def startWeave (s : State) (n : Nat) : State :=
  let sl := getSlot s n
  let s1 := (weaveCores sl).foldl (fun t core =>
    if takesTables (getCore t core) then modCore t core (loadFeeders sl) else t) s
  (roleCores sl).foldl (fun t core =>
    let t1 := holdProgram t n core
    match heldFor (getCore t1 core) n with
    | some h => startProgram t1 core h
    | none => t1) s1

/-- Whether every core of a slot's weave is IDLE and every core with a role can start (R186). -/
def weaveIdle (s : State) (n : Nat) : Bool :=
  let sl := getSlot s n
  (sl.phase == .placed || sl.phase == .busy)
    && (weaveCores sl).all (fun c => (getCore s c).seqr == .idle)
    && (roleCores sl).all (startable s)

/-- WEAVE_SWITCH (R186). -/
def weaveSwitch (n : Nat) (s : State) : State := if weaveIdle s n then startWeave s n else s

/-! ### Dispatch (R176) -/

/-- The value of an index register. -/
def xValue (c : Core) (r : Nat) : Nat := (tget c.xreg r).toNat

/-- The wait target of a descriptor (R176, step 2). -/
def waitTarget (c : Core) (d : BitVec 512) : Nat :=
  dWaitValue d + (if dWaitTripEn d then (tget c.trip (dWaitTripSel d)).toNat else 0)
    + (if dWaitEpoch d then c.epoch.toNat else 0)

/-- Replace the SEQ field of a descriptor, bits [11:0] of byte 16 on (R287). -/
def withSeq (d : BitVec 512) (seq : Nat) : BitVec 512 :=
  BitVec.ofNat 512 (d.toNat - scSeq d * 2 ^ 128 + seq % 4096 * 2 ^ 128)

/-- Whether a descriptor names a batch row in SEQ: a gather or score of a draft whose CAPS has bit 3 set (R287). -/
def namesRow (sl : ModelSlot) (d : BitVec 512) : Bool :=
  (dOpcode d == opGather || dOpcode d == opScore) && capOf sl 3

/-- The batch row of a gather or score: its SEQ field, or the row whose sequence it names. -/
def rowOf (sl : ModelSlot) (c : Core) (d : BitVec 512) : Nat :=
  if namesRow sl d then scSeq d
  else match c.rowTable with
    | none => 256
    | some t => (findIndex (fun e => e.seq == scSeq d) t.rows).getD 256

/-- The checks that need the model: LAYER, HGROUP and SEQ of a gather or score (R178, R290), and knots reserved to
Pygrim that a descriptor ARRIVEs on (R97). -/
def modelCause (sl : ModelSlot) (d : BitVec 512) : Option (Nat × Nat) :=
  let op := dOpcode d
  let g := geometryOf sl
  if (op = opGather ∨ op = opScore) ∧ ¬ (scLayer d < g.layers ∧ scHgroup d < g.groups) then some (0x02, stBadPacket)
  else if namesRow sl d ∧ 256 ≤ scSeq d then some (0x02, stBadPacket)
  else if dSigEn d ∧ ¬ dSigLocal d ∧ dSigKnot d < 8192 then some (0x04, stBadAddress)
  else if op = opKnotArrive ∧ ¬ kcLocal d ∧ ¬ kcRemote d ∧ kcKnot d < 8192 then some (0x04, stBadAddress)
  else none

/-- The slot that the dispatcher fills for a descriptor (R176, R287). -/
def slotFor (sl : ModelSlot) (core : Nat) (c : Core) (index : Nat) (d : BitVec 512) : EngSlot :=
  let row := rowOf sl c d
  let addr (o : Option Opd) : Nat := (o.map (effAddr core (xValue c))).getD 0
  { index := index, desc := if namesRow sl d then withSeq d (rowEntryOf c row).seq else d
    addrA := addr (operandA d), addrB := addr (operandB d), addrC := addr (operandC d)
    target := waitTarget c d, row := row }

/-- The descriptor that the dispatcher handles next: its program, and the descriptor at PC. -/
def nextDesc (s : State) (core : Nat) : Option (HeldProgram × BitVec 512) :=
  let c := getCore s core
  if c.seqr != .running then none
  else c.program.map (fun h => (h, descAt s core h c.pc))

/-- The sequencer reads the descriptor that it handles next, verified at its source (R71): the state after the read, the
program, and the descriptor as it was delivered. A poisoned one is no fault, and the step's commands answer it (R75, R183). -/
def fetchDesc (s : State) (core : Nat) (finds : Findings) : Option (State × HeldProgram × BitVec 512) :=
  (nextDesc s core).map (fun e =>
    let a := queueAddr core (e.1.base + (getCore s core).pc)
    let r := readBlocks s finds (blocksOf a 64)
    (noteConsumed r.1 core (readStatus r.2), e.1, BitVec.ofNat 512 (leNat (bytesFrom r.2 a 64))))

/-- DESCRIPTOR_DISPATCH (R176): the next descriptor passes the run-time checks and takes a slot in each of its engines;
the dispatcher stops while one has none free. LOOP and HALT have rows of their own. -/
def dispatchStep (core : Nat) (finds : Findings) (s0 : State) : State :=
  match fetchDesc s0 core finds with
  | none => s0
  | some (s, h, d) =>
    let c := getCore s core
    let sl := getSlot s h.slot
    if h.count ≤ c.pc then faultCore s core c.pc 0x08 stBadPacket
    else match descCause h.count d with
      | some cause => faultCore s core c.pc cause (causeStatus cause)
      | none => match modelCause sl d with
        | some (cause, st) => faultCore s core c.pc cause st
        | none =>
          let es := enginesOf d
          if es.isEmpty || es.any (fun e => decide (4 ≤ (slotsOf c e).length)) then s0
          else
            let x := slotFor sl core c c.pc d
            modCore s core (fun k => { es.foldl (fun t e => modSlots t e (fun l => l ++ [x])) k with pc := dNext d })

/-- The effect of LOOP (R179). -/
def loopStep (core : Nat) (finds : Findings) (s0 : State) : State :=
  match fetchDesc s0 core finds with
  | none => s0
  | some (s, h, d) =>
    let c := getCore s core
    if dOpcode d ≠ opLoop then s0
    else match descCause h.count d with
      | some cause => faultCore s core c.pc cause (causeStatus cause)
      | none =>
        let reg := lpReg d
        let t := tget c.trip reg + 1
        let bump (r : Nat) (by_ : Int) (x : Table (BitVec 40)) : Table (BitVec 40) :=
          tset x r (BitVec.ofNat 40 (wrapTo 40 ((tget x r).toNat + by_)))
        if t.toNat < lpCount d then
          modCore s core (fun k => { k with
            trip := tset k.trip reg t
            xreg := if lpReg2En d then bump (lpReg2 d) (lpStride2 d) (bump reg (lpStride d) k.xreg)
              else bump reg (lpStride d) k.xreg
            pc := lpTarget d })
        else
          modCore s core (fun k => { k with
            trip := terase k.trip reg
            xreg := if lpReg2En d then terase (terase k.xreg reg) (lpReg2 d) else terase k.xreg reg
            pc := dNext d })

/-! ### Signals and the end of a program (R177, R180) -/

/-- ARRIVE a descriptor's signal knot by 1, when SIG_EN is 1. -/
def signal (s : State) (core : Nat) (e : Engine) (d : BitVec 512) : State :=
  if !dSigEn d then s
  else if dSigLocal d then
    arriveLocal (clearThrottled s (.engine core e)) core (dSigKnot d) 1 (arriveLag s (.engine core e) false)
  else arriveKnot s (.engine core e) (dSigKnot d) 1 false

/-- When HALT has been dispatched and every slot is empty, the sequencer signals, reports and becomes IDLE (R180). -/
def checkDrained (s : State) (core : Nat) : State :=
  let c := getCore s core
  match c.haltPending with
  | none => s
  | some d =>
    if c.seqr == .draining && c.arraySlots.isEmpty && c.vecSlots.isEmpty && c.moveSlots.isEmpty then
      signal (modCore s core (fun k => { k with seqr := .idle, halted := true, haltPending := none })) core .move d
    else s

/-- The effect of HALT (R180). A wait in its header, which no rule forbids and which R180 gives no part, holds nothing back
(DESIGN CHOICE, log 115). -/
def haltStep (core : Nat) (finds : Findings) (s0 : State) : State :=
  match fetchDesc s0 core finds with
  | none => s0
  | some (s, h, d) =>
    let c := getCore s core
    if dOpcode d ≠ opHalt then s0
    else match descCause h.count d with
      | some cause => faultCore s core c.pc cause (causeStatus cause)
      | none => match modelCause (getSlot s h.slot) d with
        | some (cause, st) => faultCore s core c.pc cause st
        | none => checkDrained (modCore s core (fun k => { k with seqr := .draining, haltPending := some d })) core

/-- Drop the first executed slot with an index. -/
def dropSlot (index : Nat) : List EngSlot → List EngSlot
  | [] => []
  | x :: t => if x.index == index && x.state == .executed then t else x :: dropSlot index t

/-- Whether an earlier descriptor of an engine that has not executed holds back a signal (R57). -/
def signalHeld (c : Core) (e : Engine) (x : EngSlot) : Bool :=
  dSigEn x.desc && ((slotsOf c e).takeWhile (fun y => !(y.index == x.index && y.state == .executed))).any (fun y =>
    y.state == .issued)

/-- DESCRIPTOR_COMPLETE (R177): an executed descriptor frees its slots and ARRIVEs its signal knot, once every earlier
descriptor of the engine has written (R57). -/
def descriptorComplete (core : Nat) (e : Engine) (index : Nat) (s : State) : State :=
  match firstThat (fun x => x.index == index && x.state == .executed) (slotsOf (getCore s core) e) with
  | none => s
  | some x =>
    if signalHeld (getCore s core) e x then s
    else
    let es := enginesOf x.desc
    let s1 := modCore s core (fun k => es.foldl (fun t e' => modSlots t e' (dropSlot index)) k)
    checkDrained (signal s1 core e x.desc) core

/-! ### Issue (R120, R177) -/

/-- Whether an issued drain has shifted its values into the FIFOs: they hold the oldest issued drain (R119). -/
def drainShifted (c : Core) (drain : EngSlot) : Bool :=
  !c.drains.isEmpty && ((issuedSlot c .array opArrayDrain).map (·.index)) == some drain.index

/-- Whether an array descriptor may issue beside an earlier drain that has not completed (R120, R121, R131): an ARRAY_MM, when
neither it nor the drained product is COMPLEX and its accumulator is free of the drain, or the next ARRAY_DRAIN, whose columns
stay frozen until the FIFOs are free. -/
def drainOverlaps (c : Core) (drain x : EngSlot) : Bool :=
  let acc := if drAcc drain.desc = 0 then c.acc0 else c.acc1
  dOpcode drain.desc == opArrayDrain && drain.state == .issued
    && ((dOpcode x.desc == opArrayMm && mmPass x.desc != 1 && !acc.complex
          && (drAcc drain.desc != mmAcc x.desc || drainShifted c drain))
        || (dOpcode x.desc == opArrayDrain && drainShifted c drain))

/-- Whether an engine may issue a slot beside the earlier ones (R120, R177). -/
def mayIssue (c : Core) (e : Engine) (before : List EngSlot) (x : EngSlot) : Bool :=
  let open_ := before.filter (fun y => y.state != .executed)
  let knot (y : EngSlot) : Bool := dOpcode y.desc == opKnotArrive || dOpcode y.desc == opKnotWait
  open_.isEmpty
    || (!knot x && !open_.any knot
        && (match e with
            | .array => open_.all (fun y => drainOverlaps c y x)
            | .vector => false
            | .move => open_.all (fun y => y.state == .issued)))

/-- The first placed slot of an engine with the slots before it. -/
def firstPlaced : List EngSlot → List EngSlot → Option (List EngSlot × EngSlot)
  | _, [] => none
  | before, x :: t => if x.state == .placed then some (before, x) else firstPlaced (before ++ [x]) t

/-- Whether a range lies in the first 224 KiB of a core's own store (R137). -/
def inOwnStore (core : Nat) (r : Int × Nat) : Bool :=
  decide ((storeBase core : Int) ≤ r.1) && decide (r.1 + r.2 ≤ (storeBase core + 0x38000 : Nat))

/-- A cause with the status of a refused operand (Table 06-19, cause 0x04). -/
def refused (st : Nat) : Option (Nat × Nat) := if st = stOk then none else some (0x04, st)

/-- Run-time checks of ARRAY_MM: alignment (R171), the source of a stream (R124), addresses and scales (R137), and the
feeder tables (R126). -/
def mmCheck (s : State) (core : Nat) (x : EngSlot) : Option (Nat × Nat) :=
  let d := x.desc
  let a : Opd := { opd20 d 16 with addr := x.addrA }
  let b : Opd := { opd20 d 36 with addr := x.addrB }
  let c := getCore s core
  let ra := mmRangesA d a
  let rb := mmRangesB d b
  let slice (r : Int × Nat) : Bool := decide (((core * 0x4000000 : Nat) : Int) ≤ r.1)
    && decide (r.1 + r.2 ≤ ((core + 1) * 0x4000000 : Nat))
  let scales := scaleRange core (mmAscale d) a ++ scaleRange core (mmBscale d) b
  if (¬ mmStream d ∧ x.addrA % 32 ≠ 0) ∨ x.addrB % 32 ≠ 0 then some (0x02, stBadPacket)
  else if mmStream d ∧ ¬ ra.all slice then some (0x04, stBadAddress)
  else if ¬ mmStream d ∧ ¬ ra.all (inOwnStore core) then some (0x04, stBadAddress)
  else if ¬ (rb ++ scales).all (inOwnStore core) then some (0x04, stBadAddress)
  else match refused (rangesStatus s (.engine core .array) false (ra ++ rb ++ scales)) with
    | some r => some r
    | none =>
      if (narrowFmt a.fmt ∧ ¬ (c.warpValid ∧ c.warpFmt.toNat = a.fmt))
          ∨ (narrowFmt b.fmt ∧ ¬ (c.weftValid ∧ c.weftFmt.toNat = b.fmt)) then some (0x05, stMode)
      else none

/-- Run-time checks of ARRAY_DRAIN: the output format belongs to the accumulator's class, each column lies inside one
64-byte-aligned range (R119, R142, R172), and the addresses. -/
def drainCheck (s : State) (core : Nat) (x : EngSlot) : Option (Nat × Nat) :=
  let o : Opd := { opd16 x.desc 16 with addr := x.addrC }
  let cols := (List.range 16).map (fun (j : Nat) => ((o.addr : Int) + (j : Int) * o.s1, 16 * elemSize o.fmt))
  let acc := if drAcc x.desc = 0 then (getCore s core).acc0 else (getCore s core).acc1
  if (o.fmt == 0xB) != acc.integer then some (0x02, stBadPacket)
  else if ¬ cols.all (fun r => decide (r.1 % 64 + r.2 ≤ 64)) then some (0x07, stBadPacket)
  else if ¬ cols.all (inOwnStore core) then some (0x04, stBadAddress)
  else refused (rangesStatus s (.engine core .array) true cols)

/-- Run-time checks of VEC_OP and TOPK: every operand and scale in the own store (R134, R137). -/
def vecCheck (s : State) (core : Nat) (x : EngSlot) : Option (Nat × Nat) :=
  let d := x.desc
  let at_ (o : Option Opd) (a : Nat) : List (Int × Nat) := (o.map (fun k => opdRanges { k with addr := a })).getD []
  let conv := dOpcode d == opVec && dSubop d == 0x20
  let reads := at_ (operandA d) x.addrA ++ at_ (operandB d) x.addrB
    ++ (if conv then scaleRange core (cvSrcScale d) (opd16 d 16) else [])
  let writes := at_ (operandC d) x.addrC ++ (if conv then scaleRange core (cvDstScale d) (opd16 d 48) else [])
  if ¬ (reads ++ writes).all (inOwnStore core) then some (0x04, stBadAddress)
  else refused (worstStatus [rangesStatus s (.engine core .vector) false reads,
    rangesStatus s (.engine core .vector) true writes])

/-- Run-time checks of MOVE. -/
def moveCheck (s : State) (core : Nat) (x : EngSlot) : Option (Nat × Nat) :=
  let reads := opdRanges { opd20 x.desc 16 with addr := x.addrA }
  let writes := opdRanges { opd20 x.desc 36 with addr := x.addrC }
  refused (worstStatus [rangesStatus s (.engine core .move) false reads, rangesStatus s (.engine core .move) true writes])

/-- Whether a sequence is open on a model slot (R174). -/
def openOn (s : State) (seq slot : Nat) : Bool :=
  (getSeq s seq).phase != .free && (getSeq s seq).modelSlot == slot

/-- Whether a gather or score names a sequence that is not open on the weave's model (R174); an empty row of a draft whose CAPS
has bit 3 is handled under R292. -/
def seqClosed (s : State) (core : Nat) (x : EngSlot) : Bool :=
  match (getCore s core).program with
  | none => true
  | some h => !(namesRow (getSlot s h.slot) x.desc && scSeq x.desc == 0xFFF) && !openOn s (scSeq x.desc) h.slot

/-- Run-time checks of ATTN_GATHER (R290). -/
def gatherCheck (s : State) (core : Nat) (x : EngSlot) : Option (Nat × Nat) :=
  let d := x.desc
  let c : Opd := { opd20 d 24 with addr := x.addrC }
  let n := ((getCore s core).program.map (·.slot)).getD 0
  let g := geometryOf (getSlot s n)
  let whole : Int × Nat := ((c.addr : Int), (((c.e2 : Nat) : Int) * c.s2).toNat + 4 * (c.e1 + 64))
  let list : Int × Nat := (((storeBase core + scFirst d % 2 ^ 18 : Nat) : Int), 4 * dOpx d)
  if c.scaled ∨ c.fmt ≠ g.kvFmt ∨ c.e0 ≠ keyElems g ∨ c.s0 ≠ 0 ∨ c.s1 < keyBytes g
      ∨ c.e2 ≠ (if scKv d = 3 then 2 else 1) ∨ c.s2 < (c.e1 + 64 : Nat) * c.s1 then some (0x02, stBadPacket)
  else if ¬ inOwnStore core whole ∨ (scList d ∧ ¬ inOwnStore core list) then some (0x04, stBadAddress)
  else match refused (rangesStatus s (.engine core .move) true [whole]) with
    | some r => some r
    | none => if seqClosed s core x then some (0x09, stBadPacket) else none

/-- Run-time checks of SWATCH_SCORE (R178, R296). -/
def scoreCheck (s : State) (core : Nat) (x : EngSlot) : Option (Nat × Nat) :=
  let d := x.desc
  let a : Opd := { opd20 d 24 with addr := x.addrA }
  let c : Opd := { opd20 d 44 with addr := x.addrC }
  let n := ((getCore s core).program.map (·.slot)).getD 0
  let g := geometryOf (getSlot s n)
  if (a.fmt ≠ 1 ∧ a.fmt ≠ 2) ∨ a.scaled ∨ a.e0 ≠ keyElems g ∨ c.fmt ≠ 0 ∨ c.scaled ∨ c.e0 * c.e1 * c.e2 < dOpx d
      ∨ (elemSize g.swFmt = 2 ∧ a.fmt ≠ g.swFmt) then some (0x02, stBadPacket)
  else if ¬ (opdRanges a).all (inOwnStore core) then some (0x04, stBadAddress)
  else match refused (worstStatus [rangesStatus s (.engine core .move) false (opdRanges a),
      rangesStatus s (.engine core .move) true (opdRanges c)]) with
    | some r => some r
    | none => if seqClosed s core x then some (0x09, stBadPacket) else none

/-- Checks of a BOBBIN_SEQ at issue (Table 08-8). -/
def bobbinCheck (s : State) (core : Nat) (x : EngSlot) : Option (Nat × Nat) :=
  let d := x.desc
  let arg := bcArg d
  let banks := (List.range 16).filter (fun b => bitOf arg b)
  let chs := maskChans core (bcMask d)
  let returns := bitOf (dOpx d) 0
  if 65536 ≤ arg ∨ 2 ≤ dOpx d then some (0x01, stBadPacket)
  else if bcMask d = 0 ∨ banks.isEmpty ∨ bcLen d = 0 ∨ 32 < bcLen d then some (0x02, stBadPacket)
  else if bcOffset d % 8 ≠ 0 ∨ 0x38000 < bcOffset d + 8 * bcLen d ∨ (returns = true ∧ ¬ inOwnStore core ((x.addrC : Int), 1)) then
    some (0x04, stBadAddress)
  else if chs.any (fun ch => (getChan s ch).chOut || banks.any (fun b => bankMappedOut s (ch * 16 + b))) then
    some (0x04, stDegraded)
  else none

/-- The run-time check of a descriptor at issue. -/
def issueCheck (s : State) (core : Nat) (x : EngSlot) : Option (Nat × Nat) :=
  let op := dOpcode x.desc
  if op = opArrayMm then mmCheck s core x
  else if op = opArrayDrain then drainCheck s core x
  else if op = opVec ∨ op = opTopk then vecCheck s core x
  else if op = opMove then moveCheck s core x
  else if op = opGather then gatherCheck s core x
  else if op = opScore then scoreCheck s core x
  else if op = opBobbin then bobbinCheck s core x
  else none

/-- Whether a slot has a header wait of its own; the wait of KNOT_WAIT is on its body knot (Table 06-12). -/
def headerWait (x : EngSlot) : Bool := dWaitEn x.desc && dOpcode x.desc != opKnotWait

/-- Change the first placed slot of an engine. -/
def modPlaced (s : State) (core : Nat) (e : Engine) (f : EngSlot → EngSlot) : State :=
  modCore s core (fun c => modSlots c e (modFirst (fun y => y.state == .placed) f))

/-- Register the wait of a slot: local, or in the knot store (R96, R175). -/
def registerWait (s : State) (core : Nat) (e : Engine) (x : EngSlot) (isLocal : Bool) (knot : Nat)
    (mark : State → (EngSlot → EngSlot) → State) : State :=
  if isLocal then
    if x.target ≤ (tget (getCore s core).localKnots knot).value.toNat then mark s (fun y => { y with met := true })
    else modCore (mark s (fun y => { y with waiting := true })) core (fun c => { c with
      localWaits := c.localWaits ++ [(e, knot, x.target)] })
  else waitKnot (mark s (fun y => { y with waiting := true })) (.engine core e) knot x.target x.index

/-- Issue the first placed slot of an engine when it may: the run-time checks pass, or the descriptor faults. -/
def issueNow (s : State) (core : Nat) (e : Engine) (x : EngSlot) : State :=
  match issueCheck s core x with
  | some (cause, st) => faultCore s core x.index cause st
  | none => modPlaced s core e (fun y => { y with state := .issued, met := false })

/-- DESCRIPTOR_ISSUE (R177): the engine takes its next descriptor in slot order; a wait that is not yet satisfied is
registered, and one that is satisfied lets it issue. -/
def issueStep (core : Nat) (e : Engine) (s : State) : State :=
  let c := getCore s core
  if c.seqr != .running && c.seqr != .draining then s
  else match firstPlaced [] (slotsOf c e) with
    | none => s
    | some (before, x) =>
      if !mayIssue c e before x || x.waiting then s
      else if !headerWait x || x.met then issueNow s core e x
      else
        let s1 := registerWait s core e x (dWaitLocal x.desc) (dWaitKnot x.desc) (fun t f => modPlaced t core e f)
        match firstPlaced [] (slotsOf (getCore s1 core) e) with
        | some (_, y) => if y.met then issueNow s1 core e y else s1
        | none => s1

/-! ### KNOT_ARRIVE and KNOT_WAIT (R177) -/

/-- Change the issued slot of a knot descriptor in every engine it names. -/
def modKnotSlots (s : State) (core op : Nat) (es : List Engine) (f : EngSlot → EngSlot) : State :=
  modCore s core (fun c => es.foldl (fun t e =>
    modSlots t e (modFirst (fun y => y.state == .issued && dOpcode y.desc == op) f)) c)

/-- The knot descriptor that is issued in every engine it names. -/
def knotSlot (c : Core) (op : Nat) : Option (EngSlot × List Engine) :=
  let found := [Engine.array, .vector, .move].filterMap (fun e => issuedSlot c e op)
  match firstThat (fun x => (enginesOf x.desc).all (fun e =>
      match issuedSlot c e op with
      | some y => y.index == x.index
      | none => false)) found with
  | none => none
  | some x => some (x, enginesOf x.desc)

/-- The knot that a knot descriptor names on another device; none for a local or own knot. -/
def remoteOf (s : State) (d : BitVec 512) : Option Nat :=
  if kcRemote d ∧ ownDevice s ≠ some (kcDevice d) then some (kcDevice d) else none

/-- KNOT_ARRIVE: one ARRIVE that releases the writes of every engine named (R57, R177, R260). -/
def knotArrive (core : Nat) (s : State) : State :=
  match knotSlot (getCore s core) opKnotArrive with
  | none => s
  | some (x, es) =>
    if x.waiting then s
    else
      let d := x.desc
      let e := es.headD .array
      let lag := kcLagging d || es.any (fun k => s.throttled.contains (.engine core k))
      let s1 := es.foldl (fun t k => clearThrottled t (.engine core k)) s
      match remoteOf s d with
      | some dev =>
        remoteKnotOp (modKnotSlots s1 core opKnotArrive es (fun y => { y with waiting := true }))
          (.engine core e) x.index dev (kcKnot d) (.arrive (kcCount d) lag)
      | none =>
        let s2 := modKnotSlots s1 core opKnotArrive es (fun y => { y with state := .executed })
        if ¬ kcLocal d ∧ kcKnot d < 8192 then faultCore s core x.index 0x04 stBadAddress
        else if kcLocal d then arriveLocal s2 core (kcKnot d) (kcCount d) lag
        else knotStep s2 (kcKnot d) (.arrive (kcCount d) lag)

/-- KNOT_WAIT: the named engines are held until the wait on the body knot is satisfied. -/
def knotWaitStep (core : Nat) (s : State) : State :=
  match knotSlot (getCore s core) opKnotWait with
  | none => s
  | some (x, es) =>
    let d := x.desc
    let e := es.headD .array
    let done (t : State) : State := modKnotSlots t core opKnotWait es (fun y => { y with state := .executed, met := false })
    if x.met then done s
    else if x.waiting then s
    else match remoteOf s d with
      | some dev =>
        remoteKnotOp (modKnotSlots s core opKnotWait es (fun y => { y with waiting := true }))
          (.engine core e) x.index dev (kcKnot d) (.wait x.target)
      | none =>
        let s1 := registerWait s core e x (kcLocal d) (kcKnot d) (fun t f => modKnotSlots t core opKnotWait [e] f)
        match issuedSlot (getCore s1 core) e opKnotWait with
        | some y => if y.met then done s1 else s1
        | none => s1

/-! ### Abort (R183, R184) -/

/-- PROGRAM_ABORT: every slot is cut, the batch that the core serves commits no row, and the sequencer passes through
ABORTING to IDLE; a self-fenced core stays FAULTED until its reset (R503). -/
def programAbort (core : Nat) (s : State) : State :=
  let c := getCore s core
  if c.seqr == .idle || c.selfFenced then s
  else
    let s1 := modCore (cutCore s core) core (fun k => { k with seqr := .idle })
    match slotOfCore c with
    | none => s1
    | some n => failBatches s1 (fun b => b.slot == n) stAborted

/-! ### The rows of the table -/

/-- PROGRAM_START. -/
def execProgramStart (core : Nat) (s : State) : Host.Outcome State Fault Refusal := .next (programStart core s)

/-- WEAVE_SWITCH. -/
def execWeaveSwitch (slot : Nat) (s : State) : Host.Outcome State Fault Refusal := .next (weaveSwitch slot s)

/-- DESCRIPTOR_DISPATCH. -/
def execDescriptorDispatch (core : Nat) (s : State) (finds : Findings := []) : Host.Outcome State Fault Refusal :=
  .next (dispatchStep core finds s)

/-- DESCRIPTOR_ISSUE. -/
def execDescriptorIssue (core : Nat) (e : Engine) (s : State) : Host.Outcome State Fault Refusal :=
  .next (issueStep core e s)

/-- DESCRIPTOR_COMPLETE. -/
def execDescriptorComplete (core : Nat) (e : Engine) (index : Nat) (s : State) : Host.Outcome State Fault Refusal :=
  .next (descriptorComplete core e index s)

/-- PROGRAM_ABORT. -/
def execProgramAbort (core : Nat) (s : State) : Host.Outcome State Fault Refusal := .next (programAbort core s)

/-- KNOT_ARRIVE. -/
def execKnotArrive (core : Nat) (s : State) : Host.Outcome State Fault Refusal := .next (knotArrive core s)

/-- The KNOT_WAIT descriptor. -/
def execDescKnotWait (core : Nat) (s : State) : Host.Outcome State Fault Refusal := .next (knotWaitStep core s)

/-- LOOP. -/
def execLoop (core : Nat) (s : State) (finds : Findings := []) : Host.Outcome State Fault Refusal := .next (loopStep core finds s)

/-- HALT. -/
def execHalt (core : Nat) (s : State) (finds : Findings := []) : Host.Outcome State Fault Refusal := .next (haltStep core finds s)

end Sys2Proof.Machine
end

