-- ==== Sys2Proof/Machine/Batches.lean ====
section
/-!
DEFINITION. Step-batches (spec/10_sequences_and_kv.md R280, R283, R286 to R289; spec/12_command_reference.md R344, R346; spec/06_drafts.md
R187): building, starting, committing, and what a row that commits nothing releases.
-/
namespace Sys2Proof.Machine

/-! ### Rows -/

/-- The bucket of a length (R286). -/
def bucketOf (len : Nat) : Nat := (firstThat (fun b => decide (len ≤ 256 * 2 ^ b)) (List.range 13)).getD 12

/-- New tokens of the next row of a pending command: one, or a chunk of up to 64 (R346). -/
def rowTokens (c : PendingCmd) : Nat := if c.prefill then Nat.min 64 (c.total - c.done) else 1

/-- The batch, built or running, that holds a row of a sequence that was not struck. -/
def holdsSeq (seq : Nat) (b : Batch) : Bool := b.rows.any (fun r => r.entry.seq == seq && r.struck.isNone)

/-- The ready rows of a model, oldest first: open sequences with a pending command that no batch holds (R265, R286). -/
def readyRows (s : State) (slot : Nat) : List (Nat × PendingCmd) :=
  let l := s.seqs.filterMap (fun e => match e.2.pending with
    | some c => if e.2.phase == .opened && e.2.modelSlot == slot && !s.batches.any (holdsSeq e.1) then some (e.1, c) else none
    | none => none)
  sortBy (fun a b => decide (a.2.order ≤ b.2.order)) l

/-- The length of a sequence after its next row. -/
def lenAfter (s : State) (e : Nat × PendingCmd) : Nat := (getSeq s e.1).length + rowTokens e.2

/-- Whether 8 or more rows share the oldest row's bucket and their lengths lie within a factor of 2 (R286). -/
def bucketPath (s : State) (same : List (Nat × PendingCmd)) : Bool :=
  let lens := same.map (lenAfter s)
  decide (8 ≤ same.length) && decide (lens.foldl Nat.max 0 ≤ 2 * lens.foldl Nat.min (lens.headD 0))

/-- The rows that a build takes and whether it is on the bucket path (R286). -/
def chooseRows (s : State) (slot : Nat) : List (Nat × PendingCmd) × Bool :=
  match readyRows s slot with
  | [] => ([], false)
  | r0 :: t =>
    let same := ((r0 :: t).filter (fun e => bucketOf (lenAfter s e) == bucketOf (lenAfter s r0))).take 256
    if bucketPath s same then (same, true) else ((r0 :: t).take 256, false)

/-! ### What a row needs (R283) -/

/-- The keys of the needed pages of a sequence that are not present, by page. -/
def missingPages (s : State) (sl : ModelSlot) (seq : Nat) : List Nat :=
  let e := getSeq s seq
  let pages := (List.range (pagesBelow (geometryOf sl) e.length)).filter (neededPage sl e)
  pages.filter (fun p => (usedPairs sl).any (fun q => (getPte s (pteKey seq q.1 q.2 false p)).state != .present))

/-- The first token of a page that no recompute row of the sequence has carried. -/
def carriedTo (e : Seq) (g : Geometry) (page : Nat) : Nat :=
  match firstThat (fun r => r.1 == page) e.recomputed with
  | some r => r.2
  | none => page * g.tpp

/-- The tokens a to b − 1 of the next recompute row of a sequence; none when every page is carried (R283). -/
def recomputeRange (s : State) (sl : ModelSlot) (seq : Nat) : Option (Nat × Nat × Nat) :=
  let g := geometryOf sl
  let e := getSeq s seq
  let endOf (p : Nat) : Nat := Nat.min ((p + 1) * g.tpp) e.length
  let absent (p : Nat) : Bool := (usedPairs sl).any (fun q => (getPte s (pteKey seq q.1 q.2 false p)).state == .absent)
  match firstThat (fun p => absent p || decide (carriedTo e g p < endOf p)) (missingPages s sl seq) with
  | none => none
  | some p =>
    let a := if carriedTo e g p < endOf p then carriedTo e g p else p * g.tpp
    some (p, a, Nat.min (endOf p) (a + 64))

/-! ### Rows that commit nothing (R280, R289) -/

/-- A page that a row's build gave a sequence leaves it again, also one that was lost since; a privileged sequence's frame
returns to its reservation. -/
def giveBack (s : State) (key : Nat) (state : PteState) : State :=
  let t := getPte s key
  if t.state = .present ∨ t.state = .recomputing then
    let s1 := if (getSeq s (pteSeq key)).privileged && !pteSwatch key then
        let sl := getSlot s (getSeq s (pteSeq key)).modelSlot
        let core := (homeCore sl (pteLayer key) (pteHgroup key)).getD 0
        modSeq s (pteSeq key) (fun e => { e with reservations := tmod e.reservations core (· + 1) })
      else s
    releasePte s1 key state
  else modPte s key (fun x => { x with state := state })

/-- A row that commits nothing releases what its build gave it; a recompute row leaves its RECOMPUTING pages ABSENT. -/
def releaseRow (s : State) (slot : Nat) (r : BatchRow) : State :=
  if r.entry.recompute then
    let sl := getSlot s slot
    let keys := (tokenKeys sl r.entry.seq r.entry.length (r.entry.length + r.entry.newTokens)).map (·.1)
    let s1 := (keys.filter (fun k => (getPte s k).state == .recomputing)).foldl (fun t k => giveBack t k .absent) s
    modSeq s1 r.entry.seq (fun e => { e with
      recomputed := e.recomputed.filter (fun x => x.1 != r.entry.length / (geometryOf sl).tpp) })
  else
    let s1 := r.newSwatches.foldl (fun t k => giveBack t k .noPage) s
    r.newPages.foldl (fun t k => giveBack t k .noPage) s1

/-- A sequence leaves its batch: OPEN, PARKED when SEQ_PARK waited for it (R282), FREE when CLOSING (R349). -/
def leaveBatch (s : State) (seq : Nat) : State :=
  let e := getSeq s seq
  if e.phase = .closing then completeClose s seq
  else if e.phase = .batched then
    if e.parkAfter then
      { modSeq s seq (fun x => { x with
          phase := .parked, parkedHost := true, parkAfter := false, parkOrder := s.nextOrder }) with nextOrder := s.nextOrder + 1 }
    else modSeq s seq (fun x => { x with phase := .opened })
  else s

/-- A row's command fails: a prefill tells the tokens committed in PROGRESS (R346). -/
def failRow (s : State) (seq status : Nat) : State :=
  match (getSeq s seq).pending with
  | none => s
  | some c => modSeq (fail s c.packet status 0 0 (if c.prefill then c.done else 0)) seq (fun x => { x with pending := none })

/-- Whether a row still stands for its sequence's pending command: a recompute row's command stays pending (R283). -/
def endRowFailed (slot status : Nat) (s : State) (r : BatchRow) : State :=
  let s1 := releaseRow s slot r
  match r.struck with
  | some _ => leaveBatch s1 r.entry.seq
  | none => leaveBatch (failRow s1 r.entry.seq status) r.entry.seq

/-- Strike a sequence's row: from a batch that is not started it is removed, from a running one its commit is. -/
def strikeRow (s : State) (seq status : Nat) : State :=
  match firstThat (holdsSeq seq) s.batches with
  | none => s
  | some b =>
    if b.running then
      { s with batches := modFirst (holdsSeq seq) (fun x => { x with
          rows := x.rows.map (fun r => if r.entry.seq = seq then { r with struck := some status } else r) }) s.batches }
    else
      let s1 := (b.rows.filter (fun r => r.entry.seq == seq)).foldl (fun t r => releaseRow t b.slot r) s
      let rest := b.rows.filter (fun r => r.entry.seq != seq)
      { s1 with batches := if rest.isEmpty then s1.batches.filter (fun x => x.serial != b.serial)
                           else modFirst (fun x => x.serial == b.serial) (fun x => { x with rows := rest }) s1.batches }

/-- A batch that is built and has not started is dropped with everything its build gave. -/
def dropBuilt (s : State) (slot : Nat) : State :=
  let s1 := (s.batches.filter (fun b => b.slot == slot && !b.running)).foldl (fun t b =>
    b.rows.foldl (fun u r => releaseRow u b.slot r) t) s
  { s1 with batches := s1.batches.filter (fun b => !(b.slot == slot && !b.running)) }

/-- A pending command that ends before its row commits (ABORT, SEQ_CLOSE, MODEL_EVICT, an orderly stop): its row is struck
and the command replies. -/
def endPending (s : State) (seq status : Nat) : State :=
  match (getSeq s seq).pending with
  | none => s
  | some _ => failRow (strikeRow s seq status) seq status

/-! ### Building (R286) -/

/-- Host bytes that the prefill rows of a batch need: those whose buffer lies in the host. -/
def hostNeed (s : State) (rows : List (Nat × PendingCmd)) : Nat :=
  sumOf (rows.map (fun e => match getPacket s e.2.packet with
    | some k => if e.2.prefill && (bufA k).host then 4 * rowTokens e.2 else 0
    | none => 0))

/-- The state of a build: the device, the host bytes not yet used, the rows. -/
structure Build where
  s : State
  host : Bytes
  rows : List BatchRow := []

/-- The tokens that bytes spell. -/
def tokensOf (b : Bytes) (n : Nat) : List Nat := (List.range n).map (fun i => fieldAt b (4 * i) 4)

/-- The tokens of the next row, with the state after reading them, the host bytes left, and whether a block was poisoned. -/
def readTokens (s : State) (finds : Findings) (host : Bytes) (c : PendingCmd) : State × Bytes × List Nat × Bool :=
  if !c.prefill then (s, host, [c.token], false)
  else
    let n := rowTokens c
    match getPacket s c.packet with
    | none => (s, host, List.replicate n 0, false)
    | some k =>
      if (bufA k).host then (s, host.drop (4 * n), tokensOf host n, false)
      else
        let r := issuerRead s (.command c.packet) finds ((bufA k).addr + 4 * c.done) (4 * n)
        (r.1, host, tokensOf r.2.data n, anyPoison r.2.blocks)

/-- Build the row of a sequence whose needed pages are present: its pages grow, or it parks. -/
def growRow (sl : ModelSlot) (finds : Findings) (b : Build) (seq : Nat) (c : PendingCmd) : Build :=
  let r := readTokens b.s finds b.host c
  let e := getSeq b.s seq
  let n := rowTokens c
  if r.2.2.2 then { b with s := failRow r.1 seq stPoison, host := r.2.1 }
  else
    let g := takeNeeds r.1 finds seq (growNeeds r.1 sl seq e.length (e.length + n))
    match g.2.2 with
    | some region => { b with s := parkForPage g.1 seq region, host := r.2.1 }
    | none =>
      let w := takeSwatches g.1 sl seq g.2.1
      { b with
        s := modSeq w.1 seq (fun x => { x with recomputeDue := false }), host := r.2.1
        rows := b.rows ++ [{
          entry := { seq := seq, retrieval := retrievalMode sl e, newTokens := n, length := e.length }
          tokens := r.2.2.1, packet := some c.packet, newPages := g.2.1, newSwatches := w.2 }] }

/-- One chosen row: it grows, or stays ready where a page that it needs is not present (R283). -/
def buildRow (sl : ModelSlot) (finds : Findings) (b : Build) (e : Nat × PendingCmd) : Build :=
  if (missingPages b.s sl e.1).isEmpty then growRow sl finds b e.1 e.2
  else
    let host := match getPacket b.s e.2.packet with
      | some k => if e.2.prefill && (bufA k).host then b.host.drop (4 * rowTokens e.2) else b.host
      | none => b.host
    { b with host := host }

/-- The sequences of a model that are due for a recompute row, oldest first: ready ones, chosen or not, that need a page which
is not present (R283, R286). -/
def dueRows (sl : ModelSlot) (slot : Nat) (b : Build) : List Nat :=
  ((readyRows b.s slot).filter (fun e => !(missingPages b.s sl e.1).isEmpty
    && !b.rows.any (fun r => r.entry.seq == e.1))).map (·.1)

/-- A recompute row of a sequence, while the batch has room (R283). -/
def addRecompute (sl : ModelSlot) (finds : Findings) (b : Build) (seq : Nat) : Build :=
  if 256 ≤ b.rows.length then b
  else match recomputeRange b.s sl seq with
    | none => b
    | some (page, lo, hi) =>
      let e := getSeq b.s seq
      let g := takeNeeds b.s finds seq (recomputeNeeds b.s sl seq lo hi)
      match g.2.2 with
      | some region => { b with s := parkForPage g.1 seq region }
      | none =>
        let r := readRange g.1 finds (e.tokenLog + 4 * lo) (4 * (hi - lo))
        if anyPoison r.2.blocks then { b with s := failRow r.1 seq stPoison }
        else { b with
          s := modSeq r.1 seq (fun x => { x with recomputed := (x.recomputed.filter (fun y => y.1 != page)) ++ [(page, hi)] })
          rows := b.rows ++ [{
            entry := { seq := seq, recompute := true, retrieval := retrievalMode sl e, newTokens := hi - lo, length := lo }
            tokens := tokensOf r.2.data (hi - lo), newPages := g.2.1 }] }

/-- The region of a weave's block ordinal 0, whose controller leads the model. -/
def leadRegion (sl : ModelSlot) : Nat := sl.weave.headD 0 / 8

/-- Whether step-batches of a slot are admitted: the device is ready and not stopping, the slot is PLACED and is not being
evicted, and its lead region controller is in service. -/
def batchAdmitted (s : State) (slot : Nat) : Bool :=
  let sl := getSlot s slot
  s.pcie.ready && s.thermal.stop == 0 && sl.phase == .placed && !sl.evicting && !(getRegion s (leadRegion sl)).inReset

/-- STEP_BATCH_BUILD: the lead region controller builds the next batch of a model, while no other waits to start. -/
def stepBatchBuild (slot : Nat) (host : HostData) (finds : Findings) (s : State) : State :=
  let ch := chooseRows s slot
  if !batchAdmitted s slot || s.batches.any (fun b => b.slot == slot && !b.running) || ch.1.isEmpty then s
  else match hostBytes s host (hostNeed s ch.1) with
    | none => s
    | some h =>
      let sl := getSlot s slot
      let b0 := bucketOf (lenAfter s (ch.1.headD (0, { packet := 0, prefill := false })))
      let b1 := ch.1.foldl (buildRow sl finds) { s := s, host := h }
      let b2 := (dueRows sl slot b1).foldl (addRecompute sl finds) b1
      if b2.rows.isEmpty then b2.s
      else { b2.s with
        nextSerial := b2.s.nextSerial + 1
        batches := b2.s.batches ++ [{
          slot := slot, serial := b2.s.nextSerial % 2 ^ 32, path := !ch.2, bucket := if ch.2 then b0 else 0
          padTokens := if ch.2 then 256 * 2 ^ b0 else 0, rows := b2.rows }] }

/-! ### Starting (R288, step 2) -/

/-- The knots that a model's KNOT relocations name, after relocation (R187). -/
def modelKnots (sl : ModelSlot) : List Nat :=
  ((List.range sl.programs.length).flatMap (fun role =>
    match firstThat (fun k => k.type == 4 && fieldAt k.data 0 2 == role) sl.kept with
    | none => []
    | some k => (List.range (fieldAt k.data 4 4)).filterMap (fun i =>
        let v := fieldAt k.data (16 + 4 * i) 4
        let d := (sl.programs.getD role []).getD (v % 512) 0
        if bitsOf v 15 12 ≠ 3 then none
        else match bitsOf v 11 9 with
          | 3 => some (dWaitKnot d)
          | 4 => some (dSigKnot d)
          | 5 => some (kcKnot d)
          | _ => none))).eraseDups

/-- Write each row's input tokens into the row I/O area of a draft whose CAPS has bit 3 set (R344). -/
def writeInputs (s : State) (sl : ModelSlot) (rows : List BatchRow) : State :=
  if !capOf sl 3 then s
  else (List.zip (List.range rows.length) rows).foldl (fun t e =>
    (writeRange t [] (sl.far.1 + 256 * e.1) (e.2.tokens.flatMap (toBytes 4)) true false).1) s

/-- STEP_BATCH_START: every weave core gets the row table and starts; the rows' sequences become BATCHED. -/
def stepBatchStart (slot : Nat) (s : State) : State :=
  let sl := getSlot s slot
  match firstThat (fun b => b.slot == slot && !b.running) s.batches with
  | none => s
  | some b =>
    if !batchAdmitted s slot || !weaveIdle s slot
        || s.batches.any (fun x => x.running && (getSlot s x.slot).weave.any sl.weave.contains) then s
    else
      let s1 := if sl.knotsToClear then (modelKnots sl).foldl (fun t n => knotStep t n (.set 0)) s else s
      let s2 := writeInputs s1 sl b.rows
      let table : RowTable := { path := b.path, bucket := b.bucket, padTokens := b.padTokens, rows := b.rows.map (·.entry) }
      let s3 := (weaveCores sl).foldl (fun t c => modCore t c (fun k => { k with rowTable := some table })) s2
      let s4 := b.rows.foldl (fun t r => modSeq t r.entry.seq (fun e => { e with phase := .batched })) s3
      let s5 := modSlot s4 slot (fun x => { x with epoch := x.epoch + 1, knotsToClear := false })
      startWeave { s5 with batches := modFirst (fun x => x.serial == b.serial) (fun x => { x with running := true }) s5.batches } slot

/-! ### Commit (R289) -/

/-- The append record of a row and a pair (R293). -/
def appendOf (s : State) (core row layer hgroup : Nat) : Option AppendRec :=
  firstThat (fun a => a.row == row && a.layer == layer && a.hgroup == hgroup) (getCore s core).appends

/-- The bytes that a row commits for one pair: per token, the destination key and offset in its page, and the source. -/
def commitPieces (g : Geometry) (seq layer hgroup first n : Nat) (a : AppendRec) : List (Nat × Nat × Nat) :=
  (List.range n).flatMap (fun j =>
    let t := first + j
    let key := pteKey seq layer hgroup false (t / g.tpp)
    let src : Int := (a.addr : Int) + a.stride * (j : Int)
    [(key, t % g.tpp * keyBytes g, src.toNat), (key, 8192 + t % g.tpp * keyBytes g, (src + a.plane).toNat)])

/-- The pieces of every used pair; none where an append record is missing. -/
def rowPieces (s : State) (sl : ModelSlot) (row : Nat) (r : BatchRow) : Option (List (Nat × Nat × Nat)) :=
  (usedPairs sl).foldr (fun p acc =>
    match acc, (homeCore sl p.1 p.2).bind (fun c => appendOf s c row p.1 p.2) with
    | some l, some a => some (commitPieces (geometryOf sl) r.entry.seq p.1 p.2 r.entry.length r.entry.newTokens a ++ l)
    | _, _ => none) (some [])

/-- Read the blocks of a row's pieces. -/
def readPieces (s : State) (finds : Findings) (g : Geometry) (pieces : List (Nat × Nat × Nat)) : State × List BlockRead :=
  readBlocks s finds (blocksOfRanges (pieces.map (fun p => ((p.2.2 : Int), keyBytes g))))

/-- Write one piece into its page, copying a shared frame first; a recompute row writes only RECOMPUTING pages. The error is
the page service that had no frame for a copy (R277). -/
def writePiece (finds : Findings) (g : Geometry) (blks : List BlockRead) (recompute : Bool) (s : State)
    (p : Nat × Nat × Nat) : Except Nat State :=
  let t := getPte s p.1
  if recompute && t.state != .recomputing then .ok s
  else
    let core := (homeCore (getSlot s (getSeq s (pteSeq p.1)).modelSlot) (pteLayer p.1) (pteHgroup p.1)).getD 0
    match unshare s finds core p.1 with
    | none => .error (regionOfCore core)
    | some s1 =>
      let base := frameAddr (getPte s1 p.1).fn + p.2.1
      .ok (copyBytes s1 finds blks (copyTriples blks 256 ((List.range (keyBytes g)).map (fun i => (base + i, p.2.2 + i))))).1

/-- A page that a row filled becomes FULL and gets its swatch (R289, R295). -/
def fillPage (finds : Findings) (sl : ModelSlot) (s : State) (key : Nat) : Except Nat State :=
  let s1 := modFrame s (getPte s key).fn (fun f => { f with full := true })
  match homeCore sl (pteLayer key) (pteHgroup key) with
  | none => .ok s1
  | some core => writeSwatch s1 finds sl core key

/-- The keys of every pair's pages that tokens a to b − 1 touch and whose last slot lies below `len`. -/
def filledKeys (sl : ModelSlot) (seq a b len : Nat) : List Nat :=
  ((tokenKeys sl seq a b).map (·.1)).filter (fun k =>
    decide ((ptePage k + 1) * (geometryOf sl).tpp ≤ len) && decide ((ptePage k + 1) * (geometryOf sl).tpp ≤ b))

/-- The 8-byte output of a batch row (R344), verified at its source and at reply generation (R71): the state, the bytes and the
status of the reads. A draft without CAPS bit 3 has no stated output. -/
def rowOutput (s : State) (finds : Findings) (sl : ModelSlot) (row : Nat) : State × Bytes × Nat :=
  if capOf sl 3 then
    let a := sl.far.1 + 0x10000 + 16 * row
    let r := readRange s finds a 8
    let e := exitRange r.1 finds .reply a 8 r.2
    (e.1, e.2.data, readStatus e.2.blocks)
  else ({ s with free := s.free + 8 }, freeBytes s 8, stOk)

/-- Whether the block of a row's output is poisoned. -/
def outputPoisoned (s : State) (sl : ModelSlot) (row : Nat) : Bool :=
  capOf sl 3 && (tagOf s.mem ((sl.far.1 + 0x10000 + 16 * row) / 256)).poison

/-- The pages of a recompute row whose last slot below LENGTH is committed become present (Table 10-7). -/
def finishRecompute (finds : Findings) (sl : ModelSlot) (seq hi : Nat) (s : State) (key : Nat) : Except Nat State :=
  let e := getSeq s seq
  let g := geometryOf sl
  if (getPte s key).state = .recomputing ∧ Nat.min ((ptePage key + 1) * g.tpp) e.length ≤ hi then
    let fn := (getPte s key).fn
    let s1 := refreshFrame (modFrame (modPte s key (fun t => { t with state := .present })) fn
      (fun f => { f with recomputing := false })) fn
    let s2 := modRegion s1 (frameRegion fn) (fun r => { r with psRecomputed := r.psRecomputed + 1 })
    let s3 := modSeq s2 seq (fun x => { x with recomputed := x.recomputed.filter (fun y => y.1 != ptePage key) })
    if (ptePage key + 1) * g.tpp ≤ e.length then fillPage finds sl s3 key else .ok s3
  else .ok s

/-- The reply of a row that committed: of a step, or of a prefill whose last row this is (Table 12-6). `status` is what the
batch's descriptors consumed, which the reply carries (R75). -/
def replyRow (s : State) (finds : Findings) (sl : ModelSlot) (serial status row seq n : Nat) : State :=
  match (getSeq s seq).pending with
  | none => s
  | some c =>
    let worst := joinStatus c.status status
    if c.prefill && decide (c.done + n < c.total) then
      modSeq s seq (fun x => { x with pending := some { c with done := c.done + n, status := worst } })
    else
      let o := rowOutput s finds sl row
      let last := if c.prefill then c.done + n else serial
      modSeq (finish o.1 c.packet (joinStatus worst o.2.2) (o.2.1 ++ toBytes 4 (getSeq s seq).length ++ toBytes 4 last)) seq
        (fun x => { x with pending := none })

/-- Run page-service operations in order; the first that fails, by the page service that could not supply it, ends them. -/
def eachPage {α : Type} (f : State → α → Except Nat State) : State → List α → Except Nat State
  | s, [] => .ok s
  | s, a :: rest => match f s a with
    | .error region => .error region
    | .ok t => eachPage f t rest

/-- A row that commits writes its pages, the token log and the sequence's entry; the error is the page service that could not
supply a copy or a leaf. -/
def commitRow (finds : Findings) (sl : ModelSlot) (serial status row : Nat) (s : State) (r : BatchRow)
    (pieces : List (Nat × Nat × Nat)) (blks : List BlockRead) : Except Nat State :=
  let g := geometryOf sl
  let seq := r.entry.seq
  let lo := r.entry.length
  let hi := lo + r.entry.newTokens
  match eachPage (writePiece finds g blks r.entry.recompute) s pieces with
  | .error region => .error region
  | .ok s1 =>
    if r.entry.recompute then
      (eachPage (finishRecompute finds sl seq hi) s1 ((tokenKeys sl seq lo hi).map (·.1))).map (fun t => leaveBatch t seq)
    else
      let s2 := (writeRange s1 finds ((getSeq s1 seq).tokenLog + 4 * lo) (r.tokens.flatMap (toBytes 4)) true false).1
      let s3 := modSeq s2 seq (fun e =>
        let x := { e with length := hi, bucket := bucketOf hi, steps := (e.steps + 1) % 2 ^ 32, lastBatch := serial }
        { x with retrieval := retrievalMode sl x })
      (eachPage (fillPage finds sl) s3 (filledKeys sl seq lo hi hi)).map (fun t =>
        leaveBatch (replyRow t finds sl serial status row seq r.entry.newTokens) seq)

/-- A row whose commit a page service could not supply commits nothing and its sequence parks (R277, R282, R289); a CLOSING
sequence ends instead. -/
def parkRow (slot region : Nat) (s : State) (r : BatchRow) : State :=
  let s1 := releaseRow s slot r
  if (getSeq s1 r.entry.seq).phase = .closing then leaveBatch (failRow s1 r.entry.seq stNoPage) r.entry.seq
  else
    modSeq (parkForPage s1 r.entry.seq region) r.entry.seq (fun e => { e with
      parkedHost := e.parkedHost || e.parkAfter, parkAfter := false })

/-- Whether the pages that a row writes are still there; a page that left service was delivered poisoned (R284). -/
def pagesThere (s : State) (recompute : Bool) (pieces : List (Nat × Nat × Nat)) : Bool :=
  recompute || pieces.all (fun p => (getPte s p.1).state == .present)

/-- End one row of a batch whose cores all completed HALT. -/
def endRow (finds : Findings) (slot serial status : Nat) (s : State) (e : Nat × BatchRow) : State :=
  let sl := getSlot s slot
  let r := e.2
  if r.struck.isSome then endRowFailed slot stAborted s r
  else match rowPieces s sl e.1 r with
    | none => endRowFailed slot stBadPacket s r
    | some pieces =>
      let b := readPieces s finds (geometryOf sl) pieces
      if anyPoison b.2 || !pagesThere b.1 r.entry.recompute pieces || (!r.entry.recompute && outputPoisoned b.1 sl e.1) then
        endRowFailed slot stPoison b.1 r
      else match commitRow finds sl serial status e.1 b.1 r pieces b.2 with
        | .ok t => t
        | .error region => parkRow slot region b.1 r

/-- A step-batch that does not end with every core completing HALT makes an epoch origin (R187). -/
def newOrigin (s : State) (slot : Nat) : State :=
  modSlot s slot (fun x => { x with epoch := 0, origins := x.origins + 1, knotsToClear := true })

/-- The cores of a failed batch are aborted and return to IDLE (R183, Table 06-18). -/
def quietWeave (s : State) (slot : Nat) : State :=
  (roleCores (getSlot s slot)).foldl (fun t c =>
    let k := getCore t c
    if k.seqr = .idle ∨ k.selfFenced = true then t
    else modCore (cutCore t c) c (fun x => { x with seqr := .idle })) s

/-- A running batch fails as a whole: its cores are cut and no row commits. -/
def endBatchFailed (s : State) (b : Batch) (status : Nat) : State :=
  let s1 := quietWeave s b.slot
  let s2 := b.rows.foldl (endRowFailed b.slot status) s1
  newOrigin { s2 with batches := s2.batches.filter (fun x => x.serial != b.serial) } b.slot

/-- STEP_BATCH_COMMIT: after every core of the weave has completed HALT, each row commits; after a fault, none does. -/
def stepBatchCommit (slot : Nat) (finds : Findings) (s : State) : State :=
  match firstThat (fun b => b.slot == slot && b.running) s.batches with
  | none => s
  | some b =>
    match b.failed with
    | some status => endBatchFailed s b status
    | none =>
      if (roleCores (getSlot s slot)).all (fun c => (getCore s c).halted && (getCore s c).seqr == .idle) then
        let s1 := (List.zip (List.range b.rows.length) b.rows).foldl (endRow finds slot b.serial b.status) s
        { s1 with batches := s1.batches.filter (fun x => x.serial != b.serial) }
      else s

/-! ### The rows of the table -/

/-- STEP_BATCH_BUILD. -/
def execStepBatchBuild (slot : Nat) (host : HostData) (finds : Findings) (s : State) : Host.Outcome State Fault Refusal :=
  .next (stepBatchBuild slot host finds s)

/-- STEP_BATCH_START. -/
def execStepBatchStart (slot : Nat) (s : State) : Host.Outcome State Fault Refusal := .next (stepBatchStart slot s)

/-- STEP_BATCH_COMMIT. -/
def execStepBatchCommit (slot : Nat) (finds : Findings) (s : State) : Host.Outcome State Fault Refusal :=
  .next (stepBatchCommit slot finds s)

end Sys2Proof.Machine
end

