-- ==== Sys2Proof/Machine/Mailbox.lean ====
section
/-!
DEFINITION. The rescue mailboxes (spec/12_command_reference.md R368 to R371, Tables 12-14 to 12-16): mailbox 0 at BAR0
0x0_4000, mailbox 1 behind the I3C target.
-/
namespace Sys2Proof.Machine

def getMailbox (s : State) (m : Nat) : Mailbox := tget s.mailboxes m
def modMailbox (s : State) (m : Nat) (f : Mailbox → Mailbox) : State := { s with mailboxes := tmod s.mailboxes m f }

/-- The mailboxes are served from the end of bring-up phase 1, by the boot ROM when Pygrim failed to verify (R301, R468),
while H's clocks run (R455). -/
def rescueServed (s : State) : Bool := hubRuns s && (decide (2 ≤ s.pcie.phase.toNat) || s.pcie.rescueOnly)

/-- HUB_RSC_STATUS (Table 12-16). -/
def rscStatus (s : State) (m : Nat) : Nat :=
  let x := getMailbox s m
  b2n x.busy + 2 * b2n x.done + 4 * b2n x.refused + 8 * b2n s.pcie.rescueOnly

/-- The byte at an offset of a mailbox (Table 12-14). -/
def mailboxByte (s : State) (m off : Nat) : Byte :=
  let x := getMailbox s m
  if 0x004 ≤ off ∧ off < 0x008 then (toBytes 4 (rscStatus s m)).getD (off - 4) 0
  else if 0x040 ≤ off ∧ off < 0x080 then x.request.getD (off - 0x40) 0
  else if 0x080 ≤ off ∧ off < 0x0A0 then x.reply.getD (off - 0x80) 0
  else if 0x100 ≤ off ∧ off < 0x1000 then x.data.getD (off - 0x100) 0
  else 0

/-- Bytes of a mailbox from an offset on. -/
def mailboxBytes (s : State) (m off n : Nat) : Bytes := (rangeFrom off n).map (mailboxByte s m)

/-- The request header of a mailbox as a packet. -/
def rescuePacket (s : State) (m : Nat) : Packet := packetOf 0 (.mailbox m) (padTo 64 (getMailbox s m).request) 0 0

/-- The rescue opcodes, and those that the boot ROM serves (R371). -/
def rescueOps : List Nat := [0xF001, 0xF002, 0xF003, 0xF004, 0xF005, 0xF006, 0xF007]
def romOps : List Nat := [0xF001, 0xF002, 0xF005]

/-- Bits of a rescue request's ARGS that its opcode defines (Table 12-17). -/
def rescueArgMask (op : Nat) : Nat :=
  if op = 0xF002 then 2 ^ 64 - 1 else if op = 0xF003 ∨ op = 0xF004 ∨ op = 0xF006 then 2 ^ 32 - 1 else if op = 0xF007 then 1 else 0

/-- The status that refuses a request before it executes (R321, R368, R371). -/
def rescueRefusal (s : State) (m : Nat) : Nat :=
  let b := padTo 64 (getMailbox s m).request
  let k := rescuePacket s m
  let args := leNat k.args
  if crc32c (b.take 60) ≠ fieldAt b 0x3C 4 then stCheckFail
  else if fieldAt b 2 2 ≠ 0 ∨ fieldAt b 0x0C 4 ≠ 0 ∨ fieldAt b 8 4 ≠ 0 ∨ ¬ rescueOps.contains k.opcode
      ∨ Nat.land args (rescueArgMask k.opcode) ≠ args then stBadPacket
  else if s.pcie.rescueOnly ∧ ¬ romOps.contains k.opcode then stState
  else stOk

/-- An in-band interrupt with mandatory byte 0x01, when the controller has enabled them (R369). -/
def raiseIbi (s : State) : State :=
  if bitOf s.i3c.events.toNat 0 then { s with i3c := { s.i3c with ibis := s.i3c.ibis ++ [1] } } else s

/-- Write a mailbox's reply: BUSY falls, DONE rises and is signalled; the next request is served. -/
def mailboxReply (s : State) (m status : Nat) (result : Bytes) : State :=
  let s1 := modMailbox s m (fun x => { x with
    reply := replyBytes (rescuePacket s m).tag status 0 false 0 result, busy := false, done := true })
  let s2 : State := { s1 with rescueOrder := s1.rescueOrder.filter (· != m) }
  if m = 0 then sendVector s2 3 else raiseIbi s2

/-- Answer the request in front while it is one that is refused. -/
def rescuePump : Nat → State → State
  | 0, s => s
  | n + 1, s =>
    match s.rescueOrder with
    | [] => s
    | m :: _ =>
      let st := rescueRefusal s m
      if st = stOk then s
      else
        let s1 := if st = stCheckFail then recordMgmt s 0x0503 .contained 0 0 stCheckFail else s
        rescuePump n (mailboxReply s1 m st (failResult 0 0 0))

/-- A reply with its data, after which the next request is served. -/
def rescueAnswer (s : State) (m status : Nat) (result data : Bytes) : State :=
  let s1 := if data.isEmpty then s else modMailbox s m (fun x => { x with data := padTo 3840 data })
  rescuePump 2 (mailboxReply s1 m status result)

/-- RESCUE_GO: a write of GO; while BUSY it is refused (Table 12-16). -/
def rescueGo (m : Nat) (s : State) : State :=
  if !rescueServed s || decide (2 ≤ m) then s
  else if (getMailbox s m).busy then modMailbox s m (fun x => { x with refused := true })
  else
    let s1 := modMailbox s m (fun x => { x with busy := true })
    rescuePump 2 { s1 with rescueOrder := s1.rescueOrder ++ [m] }

/-- Write one byte of a mailbox: the request area while BUSY is 0, STATUS by its codes, GO. -/
def mailboxPut (m : Nat) (s : State) (e : Nat × Byte) : State :=
  let off := e.1
  if off = 0 then (if bitOf e.2.toNat 0 then rescueGo m s else s)
  else if off = 4 then modMailbox s m (fun x => { x with
    done := x.done && !bitOf e.2.toNat 1, refused := x.refused && !bitOf e.2.toNat 2 })
  else if 0x040 ≤ off ∧ off < 0x080 then
    modMailbox s m (fun x => if x.busy then x else { x with request := overlay (padTo 64 x.request) (off - 0x40) [e.2] })
  else s

/-- Write bytes to a mailbox from an offset on. -/
def mailboxWrite (m off : Nat) (b : Bytes) (s : State) : State :=
  if rescueServed s then (List.zip (rangeFrom off b.length) b).foldl (mailboxPut m) s else s

/-- RESCUE_GO. -/
def execRescueGo (m : Nat) (s : State) : Host.Outcome State Fault Refusal := .next (rescueGo m s)

end Sys2Proof.Machine
end

