-- ==== Sys2Proof/Machine/Queue.lean ====
section
/-!
DEFINITION. The queues of accesses that a near channel or a pseudo-channel holds back (spec/07_near_memory.md R189, R191, R206,
R208; spec/08_bobbins.md R216; spec/09_far_memory.md R255, R259, R261): an access enters behind what is queued, and what is
queued is served in order once its controller serves again.
-/
namespace Sys2Proof.Machine

/-- What an access gives its issuer. -/
def deliver (s : State) (status : Nat) (data : Bytes) (poison : Bool) : State :=
  { s with delivered := { status := status, data := data, poison := poison } }

/-- Accesses that a channel queue holds (R189). -/
def queueRoom : Nat := 32

/-- A queue: that of a near channel, or of a pseudo-channel. -/
inductive QueueAt where
  | near (ch : Nat)
  | far (pc : Nat)
deriving DecidableEq, Repr

/-- Whether a near channel serves no access: its controller holds them back, or its die's clocks have stopped (R454). -/
def nearHeld (s : State) (ch : Nat) : Bool := chanHeld s ch || (tget s.dies (ch / 16384)).clocksStopped

/-- The queues that a range's access passes. -/
def queuesOf (s : State) (a n : Nat) : List QueueAt :=
  (touched a n 0 0x8000000000 0x800000).map .near ++ (windowsTouched a n).flatMap (fun r =>
    let g := getRegion s r
    let gs := touched a n (windowBase r) (windowBase (r + 1)) 2048
    let ps := if g.homeN ≤ gs.length then homePcs s r else gs.map (fun x => (homePcs s r).getD (x % g.homeN) 0)
    ps.eraseDups.map .far)

/-- What a queue holds, oldest first. -/
def queueOf (s : State) : QueueAt → List Queued
  | .near ch => (getChan s ch).queue
  | .far pc => (getPc s pc).queue

/-- Replace what a queue holds. -/
def setQueue (s : State) (x : QueueAt) (l : List Queued) : State :=
  match x with
  | .near ch => modChan s ch (fun c => { c with queue := l })
  | .far pc => modPc s pc (fun p => { p with queue := l })

/-- Whether the accesses of a queue wait. -/
def queueHeld (s : State) : QueueAt → Bool
  | .near ch => nearHeld s ch
  | .far pc => pcHeld s pc

/-- The first queue on a range's way that holds its access back. -/
def heldAt (s : State) (a n : Nat) : Option QueueAt := firstThat (queueHeld s) (queuesOf s a n)

/-- An access enters a queue; one that finds it full stays with its issuer. -/
def enqueue (s : State) (x : QueueAt) (q : Queued) : State :=
  match x with
  | .near ch => if queueRoom ≤ (getChan s ch).queue.length then s else setQueue s x ((getChan s ch).queue ++ [q])
  | .far pc => setQueue s x ((getPc s pc).queue ++ [q])

/-- Serve a queued access: refused as a new one would be (R41, R45, R206, R255), else its read or its write. -/
def serve (s : State) (q : Queued) : State :=
  let st := accessStatus s q.issuer q.write.isSome q.addr q.length
  if st ≠ stOk then deliver s st [] false
  else match heldAt s q.addr q.length, q.write with
    | some x, _ => enqueue s x q
    | none, none =>
      let r := issuerRead s q.issuer q.finds q.addr q.length
      deliver r.1 (readStatus r.2.blocks) r.2.data (anyPoison r.2.blocks)
    | none, some w =>
      let r := writeRange s q.finds q.addr w.1 w.2 false
      deliver r.1 r.2 [] (r.2 == stPoison)

/-- Serve everything in a queue, in order. -/
def drainQueue (s : State) (x : QueueAt) : State :=
  if (queueOf s x).isEmpty then s else (queueOf s x).foldl serve (setQueue s x [])

/-- The queues that hold accesses. -/
def queuesInUse (s : State) : List QueueAt :=
  (s.chans.filter (fun e => !e.2.queue.isEmpty)).map (fun e => .near e.1)
    ++ (s.pcs.filter (fun e => !e.2.queue.isEmpty)).map (fun e => .far e.1)

/-- Serve every queue whose controller serves, and answer what a reset or a map-out refuses. -/
def drainQueues (s : State) : State := (queuesInUse s).foldl drainQueue s

end Sys2Proof.Machine
end

