-- ==== Sys2Proof/Machine/Capacity.lean ====
section
/-!
DEFINITION. The capacity report (spec/17_errors_and_resets.md R513, R514, Tables 17-10 to 17-12), the record rings' heads
and vector timer (R500, R502), and the darn-map extension (spec/16_bring_up.md R485, R488).
-/
namespace Sys2Proof.Machine

/-! ### Registers that the report copies -/

/-- HUB_DIE_STRAPSd (Table 01-4), valid from the end of phase 2 (R24). -/
def strapsReg (s : State) (d : Nat) : Nat :=
  let x : Die := if s.pcie.phase.toNat ≤ 2 then {} else tget s.dies d
  x.dieType.toNat + 4 * x.pos.toNat + 16 * b2n x.posMatch + 32 * b2n x.heldOut + 256 * x.ladderOk.toNat
    + 65536 * x.hbmPresent.toNat + 2 ^ 24 * x.stepMinor.toNat + 2 ^ 28 * x.stepMajor.toNat

/-- WL_STATUS (Table 13-15). -/
def wlStatus (s : State) (l : Nat) : Nat :=
  let x := getLink s l
  x.state.toNat + 4 * x.width.toNat + 16 * b2n x.degraded + 32 * b2n x.disabled + 64 * b2n x.stall + 128 * b2n x.test
    + 256 * x.lanes.toNat

/-- PCI_READY (Table 11-5). -/
def pciReady (s : State) : Nat :=
  let p := s.pcie
  b2n p.ready + 2 * p.phase.toNat + 16 * b2n p.degradedShown + 32 * b2n p.topology + 64 * b2n p.rescueOnly + 128 * b2n p.warm
    + 65536 * p.resetCount.toNat

/-- Whether a region is enabled and in service. -/
def regionOn (s : State) (r : Nat) : Bool := (getRegion s r).enabled && !(getRegion s r).outOfService

/-- Cores of a region that are absent, or fenced and bound. -/
def coresAbsent (s : State) (r : Nat) : Nat := (s.cores.filter (fun e => regionOfCore e.1 == r && e.2.absent)).length
def coresFenced (s : State) (r : Nat) : Nat :=
  (s.cores.filter (fun e => regionOfCore e.1 == r && !e.2.absent && e.2.fenced)).length

/-- Near bytes of a channel that are mapped out. -/
def chanLost (c : Chan) : Nat :=
  if c.chOut then 0x800000 else ((List.range 16).filter (bitOf c.bankOut.toNat)).length * 0x80000

/-- Usable near bytes of a region: 64 MiB for each core in service, less what is mapped out. -/
def nearUsable (s : State) (r : Nat) : Nat :=
  if regionOn s r then
    (512 - coresAbsent s r - coresFenced s r) * 0x4000000
      - sumOf ((s.chans.filter (fun e => regionOfCore (e.1 / 8) == r
          && !(getCore s (e.1 / 8)).absent && !(getCore s (e.1 / 8)).fenced)).map (fun e => chanLost e.2))
  else 0

/-- Pseudo-channels of a region's home that are holes. -/
def holesOf (s : State) (r : Nat) : Nat := ((nominalHome r).filter (fun p => (getPc s p).hole && !(getPc s p).out)).length

/-- Addressable far bytes of a window, holes excluded. -/
def farUsableBytes (s : State) (r : Nat) : Nat :=
  let g := getRegion s r
  if g.windowOut || decide (g.homeN < 16) then 0 else (g.homeN - holesOf s r) * 756 * 1048576

/-- The REGIONS entry of a region. -/
def regionEntry (s : State) (r : Nat) : Bytes :=
  let g := getRegion s r
  toBytes 2 (b2n g.enabled + 2 * b2n (licensedRegion s r) + 4 * b2n (g.outOfService || g.darnOut) + 8 * b2n g.inReset)
    ++ toBytes 2 (512 - coresAbsent s r - coresFenced s r) ++ toBytes 2 (coresAbsent s r) ++ toBytes 2 (coresFenced s r)
    ++ toBytes 8 (nearUsable s r) ++ toBytes 1 g.homeN ++ toBytes 1 (holesOf s r) ++ toBytes 2 0
    ++ toBytes 8 (if g.windowOut then 0 else windowBytes s r) ++ toBytes 4 0

/-- The port of die d: a hub port, or 6 for the chiplet site; H has none of its own. -/
def portOfDie (d : Nat) : Option Nat := if d < 4 then some d else if d = 5 then some 6 else none

/-- The side link of a C-die: 4 west (C0, C1), 5 east (C2, C3). -/
def sideOf (pos : Nat) : Nat := 4 + pos / 2

/-- Layers of a compute stack that are mapped out. -/
def layersOut (s : State) (pos : Nat) : Nat :=
  sumOf ((List.range 8).map (fun l => if (getChan s (chanOf (pos * 2048) l)).chOut
    && (getChan s (chanOf (pos * 2048 + 2047) l)).chOut then 2 ^ l else 0))

/-- The DIES entry of die d. -/
def dieEntry (s : State) (d : Nat) : Bytes :=
  toBytes 4 (strapsReg s d) ++ toBytes 1 (((portOfDie d).map (fun p => (getPort s p).modules)).getD 0)
    ++ toBytes 1 (if d < 4 then (getPort s (sideOf d)).modules else 0) ++ toBytes 1 (tget s.dies d).holdCause.toNat
    ++ toBytes 1 (if d < 4 then layersOut s d else 0) ++ toBytes 8 0

/-- The STACKS entry of an HBM4 stack. -/
def stackEntry (s : State) (n : Nat) : Bytes :=
  let x := tget s.hbmStacks n
  let pcs := (rangeFrom (n * 64) 64).map (getPc s)
  toBytes 1 (if x.out then 2 else if x.rate6g4 then 1 else 0) ++ toBytes 1 (pcs.filter (·.out)).length
    ++ toBytes 1 (pcs.filter (fun p => p.hole && !p.out)).length ++ toBytes 5 0

/-- The LINKS entry of a weft link. -/
def linkEntryBytes (s : State) (l : Nat) : Bytes :=
  let w := (s.weft.table.map (leWidth · l)).getD 0
  let opt := (s.weft.table.map (leFlags · l)).getD 0
  toBytes 1 (wlStatus s l) ++ toBytes 1 w
    ++ toBytes 2 (b2n (w != 0 && bitOf opt 0 && !linkInService s l) + 2 * b2n (s.weft.discrepancies.contains l))

/-- Offsets 0x20 to 0x31F of the report. -/
def summaryBytes (s : State) : Bytes :=
  toBytes 8 (sumOf ((List.range 16).map (nearUsable s))) ++ toBytes 8 (sumOf ((List.range 16).map (farUsableBytes s)))
    ++ toBytes 16 0 ++ (List.range 16).flatMap (regionEntry s) ++ (List.range 6).flatMap (dieEntry s)
    ++ (List.range 8).flatMap (stackEntry s) ++ (List.range 16).flatMap (linkEntryBytes s)

/-- A 4-byte word of the capacity report (Table 17-10). -/
def capacityWord (s : State) (off : Nat) : Nat :=
  let c := s.capacity
  if off < 0x20 then
    fieldAt (toBytes 4 0x52504143 ++ toBytes 2 0x0100 ++ toBytes 1 s.pcie.speed ++ toBytes 1 s.pcie.width
      ++ toBytes 4 c.generation.toNat ++ toBytes 4 c.list.length ++ toBytes 8 c.causes.toNat ++ toBytes 4 c.lost) off 4
  else if off < 0x320 then fieldAt c.summary (off - 0x20) 4
  else if off < 0x400 then 0
  else fieldAt (toBytes 8 ((c.list.getD ((off - 0x400) / 8) 0).toNat)) (off % 8) 4

/-! ### The update (R513) -/

/-- Order of the list: by KIND and then by ITEM. -/
def entryLe (a b : Word64) : Bool :=
  decide (a.toNat % 256 < b.toNat % 256) || (a.toNat % 256 == b.toNat % 256 && decide (a.toNat ≤ b.toNat))

/-- A state joins those that the report shows. -/
def showState (c : Capacity) (e : Nat × Option Word64) : Capacity :=
  if c.standing.contains e then c
  else
    let d := { c with standing := c.standing ++ [e] }
    match e.2 with
    | none => d
    | some w =>
      if d.list.contains w then d
      else if d.list.length < 3968 then { d with list := insertBy entryLe w d.list } else { d with lost := d.lost + 1 }

/-- A state ends, with its entry. -/
def hideState (c : Capacity) (e : Nat × Option Word64) : Capacity :=
  let d := { c with standing := c.standing.erase e }
  match e.2 with
  | none => d
  | some w => { d with list := d.list.erase w }

/-- CAUSES: the bits of the states shown. -/
def causesOf (c : Capacity) : Word64 :=
  c.standing.foldl (fun m e => m ||| BitVec.ofNat 64 (2 ^ e.1)) 0

/-- CAPACITY_REPORT_UPDATE: the states that began or ended enter the report, GENERATION passes its odd value, and vector 0
follows a change of DEGRADED. -/
def capacityUpdate (s : State) : State :=
  let c0 := s.capacity
  let c1 := c0.pendingSet.foldl showState (c0.pendingClear.foldl hideState c0)
  let c2 := { c1 with
    causes := causesOf c1, pendingSet := [], pendingClear := [], generation := c1.generation + 2, summary := summaryBytes s
    valid := true }
  let deg := causesOf c1 != 0
  let s1 : State := { s with capacity := c2, pcie := { s.pcie with degradedShown := deg } }
  if deg != s.pcie.degradedShown then sendVector s1 0 else s1

/-! ### Ring heads (R500, R502) -/

/-- Whether the ring-index registers are served: from the end of bring-up phase 2 (R301). -/
def indexServed (s : State) : Bool := decide (3 ≤ s.pcie.phase.toNat)

/-- A write of HUB_ERR_HEAD: discarded when it moves backward or past the tail. -/
def errHead (v : Word) (s : State) : State :=
  let e := s.errors
  if indexServed s && decide ((v - e.head).toNat ≤ (e.tail - e.head).toNat) then { s with errors := { e with head := v } } else s

/-- A write of HUB_TLM_HEAD, in multiples of 64. -/
def tlmHead (v : Word) (s : State) : State :=
  let e := s.errors
  if indexServed s && decide ((v - e.tlmHead).toNat ≤ (e.tlmTail - e.tlmHead).toNat) && v.toNat % 64 == 0 then
    { s with errors := { e with tlmHead := v } }
  else s

/-- ERROR_VECTOR_TIMER: TIME has passed since the oldest record without a message. -/
def errorVector (s : State) : State :=
  if s.errors.unsignalled = 0 then s else sendVector { s with errors := { s.errors with unsignalled := 0 } } 1

/-! ### The darn-map extension (R488) -/

/-- KIND and the layer of a re-weave entry. -/
def darnKind (e : Word64) : Nat := e.toNat % 16
def darnLayer (e : Word64) : Nat := bitsOf e.toNat 20 16

/-- Drop the marks of finished re-weaves: those that a REWEAVE_END of their layer follows. -/
def dropMarks : List Word64 → List Word64
  | [] => []
  | e :: t =>
    if darnKind e = 0xC ∧ t.any (fun x => darnKind x == 0xD && darnLayer x == darnLayer e) = true then dropMarks t
    else e :: dropMarks t

/-- DARN_APPEND: the oldest entry that waits is written, or the extension is full. -/
def darnAppend (s : State) : State :=
  match s.boot.appendQueue with
  | [] => s
  | e :: rest =>
    let s1 : State := { s with boot := { s.boot with appendQueue := rest } }
    let old := if s.flash.darn.length < 16380 then s.flash.darn else dropMarks s.flash.darn
    if old.length < 16380 then { s1 with flash := { s1.flash with darn := old ++ [e], darnValid := true, darnSeq := s1.flash.darnSeq + 1 } }
    else degrade (recordMgmt s1 0x0905 .contained) 19 none

/-! ### The rows of the table -/

/-- CAPACITY_REPORT_UPDATE. -/
def execCapacityReportUpdate (s : State) : Host.Outcome State Fault Refusal := .next (capacityUpdate s)

/-- HUB_ERR_HEAD. -/
def execHubErrHead (value : Word) (s : State) : Host.Outcome State Fault Refusal := .next (errHead value s)

/-- HUB_TLM_HEAD. -/
def execHubTlmHead (value : Word) (s : State) : Host.Outcome State Fault Refusal := .next (tlmHead value s)

/-- ERROR_VECTOR_TIMER. -/
def execErrorVectorTimer (s : State) : Host.Outcome State Fault Refusal := .next (errorVector s)

/-- DARN_APPEND. -/
def execDarnAppend (s : State) : Host.Outcome State Fault Refusal := .next (darnAppend s)

end Sys2Proof.Machine
end

