-- ==== Sys2Proof/Machine/Drafts.lean ====
section
/-!
DEFINITION. The draft container and the checks that MODEL_LOAD makes of it (spec/06_drafts.md R160 to R167, R178, R533;
spec/05_number_formats.md R154, R155; spec/10_sequences_and_kv.md R267): each check answers none, or its status with the
step, the section index and the entry or descriptor index.
-/
namespace Sys2Proof.Machine

/-- A failed check: status, step of Table 06-8, section index, entry or descriptor index. -/
structure DraftFail where
  status : Nat
  step : Nat
  sec : Nat := 0
  idx : Nat := 0
deriving DecidableEq, Repr

/-- DETAIL of a failed check (R341). -/
def failDetail (f : DraftFail) : Nat := f.step % 256 + f.sec % 1024 * 256 + f.idx % 16384 * 262144

/-- A draft as it was read: header, section table and the bytes of each section. -/
structure Draft where
  hdr : Bytes
  tbl : Bytes := []
  secs : List Bytes := []
deriving DecidableEq, Repr

/-- Header fields (Table 06-1). -/
def hCaps (h : Bytes) : Nat := fieldAt h 0x10 32
def hWeaveBlocks (h : Bytes) : Nat := fieldAt h 0x34 2
def hRoles (h : Bytes) : Nat := fieldAt h 0x36 2
def hSections (h : Bytes) : Nat := fieldAt h 0x38 2
def hNearRows (h : Bytes) : Nat := fieldAt h 0x3A 2
def hTotal (h : Bytes) : Nat := fieldAt h 0x08 8
def hFarBytes (h : Bytes) : Nat := fieldAt h 0x50 8
def hStaging (h : Bytes) : Nat := fieldAt h 0x58 4
def hSigned (h : Bytes) : Bool := bitOf (fieldAt h 0x33 1) 0

/-- Section-table fields (Table 06-2). -/
def eType (t : Bytes) (i : Nat) : Nat := fieldAt t (32 * i) 2
def eFlags (t : Bytes) (i : Nat) : Nat := fieldAt t (32 * i + 2) 2
def eOffset (t : Bytes) (i : Nat) : Nat := fieldAt t (32 * i + 8) 8
def eLength (t : Bytes) (i : Nat) : Nat := fieldAt t (32 * i + 16) 8
def eCrc (t : Bytes) (i : Nat) : Nat := fieldAt t (32 * i + 24) 4

/-- Whether every byte of a field is 0. -/
def zeroField (b : Bytes) (off n : Nat) : Bool := fieldAt b off n == 0

/-- The first failure of a list of tests. -/
def firstFail (l : List (Bool × DraftFail)) : Option DraftFail := (firstThat (fun e => !e.1) l).map (·.2)

/-- The first failure over indices 0 to n − 1. -/
def firstOver (n : Nat) (f : Nat → Option DraftFail) : Option DraftFail := (List.range n).findSome? f

/-- Steps 1 to 4: the header alone; `len` is the buffer's LENGTH. -/
def headerFail (h : Bytes) (len : Nat) : Option DraftFail :=
  firstFail [
    (fieldAt h 0 4 == 0x54465244 && fieldAt h 5 1 == 1 && decide (256 ≤ len), { status := stBadPacket, step := 1 }),
    (fieldAt h 6 2 == 4, { status := stWrongFamily, step := 2 }),
    (crc32c (h.take 0xFC) == fieldAt h 0xFC 4, { status := stCheckFail, step := 3 }),
    (fieldAt h 0x33 1 / 4 == 0 && zeroField h 0x4D 3 && zeroField h 0x5C 160
      && decide (1 ≤ hWeaveBlocks h) && decide (hWeaveBlocks h ≤ 128)
      && decide (1 ≤ hRoles h) && decide (hRoles h ≤ 255) && decide (3 ≤ hSections h) && decide (hSections h ≤ 1024)
      && decide (hNearRows h ≤ 512) && hStaging h % 65536 == 0 && decide (hStaging h ≤ 44 * 1048576)
      && hFarBytes h % 2048 == 0 && decide (hTotal h ≤ len) && decide (0x100 + 32 * hSections h ≤ hTotal h),
      { status := stBadPacket, step := 4 })]

/-- Whether a section type is one of Table 06-3. -/
def knownType (t : Nat) : Bool := decide (1 ≤ t ∧ t ≤ 7) || t == 9 || t == 0xFF

/-- Indices of the sections of a type. -/
def ofType (h t : Bytes) (type : Nat) : List Nat := (List.range (hSections h)).filter (fun i => eType t i == type)

/-- Whether two sections share a byte. -/
def sectionsMeet (t : Bytes) (i j : Nat) : Bool :=
  decide (eOffset t i < eOffset t j + eLength t j) && decide (eOffset t j < eOffset t i + eLength t i)

/-- Whether the layout obeys R160 and the section counts Table 06-3. -/
def layoutOk (h t : Bytes) : Bool :=
  let n := hSections h
  let count (type : Nat) : Nat := (ofType h t type).length
  (List.range n).all (fun i =>
      decide (eFlags t i < 2) && zeroField t (32 * i + 4) 4 && zeroField t (32 * i + 28) 4
        && (knownType (eType t i) || eFlags t i == 0)
        && eOffset t i % 256 == 0 && decide (0x100 + 32 * n ≤ eOffset t i) && decide (eOffset t i + eLength t i ≤ hTotal h)
        && (eType t i != 0xFF || (i + 1 == n && eOffset t i + eLength t i == hTotal h && eLength t i == 16240 && eCrc t i == 0))
        && (List.range i).all (fun j => !sectionsMeet t i j))
    && count 1 == 1 && count 2 == 1 && count 3 == hRoles h && decide (count 4 ≤ hRoles h) && decide (count 6 ≤ 1)
    && decide (count 7 ≤ 1) && decide (count 0xFF ≤ 1)

/-- Steps 5 and 6: the section table. -/
def tableFail (h t : Bytes) : Option DraftFail :=
  firstFail [
    (crc32c t == fieldAt h 0x3C 4, { status := stCheckFail, step := 5 }),
    (layoutOk h t, { status := stBadPacket, step := 6 })]

/-! ### Step 8: the signature (R163) -/

/-- The data of the first section of a type of a Pygrim image (Tables 16-5, 16-6). -/
def imageSection (image : Bytes) (type : Nat) : Bytes :=
  match firstThat (fun i => fieldAt image (0x200 + 48 * i) 2 == type) (List.range (fieldAt image 0x18 2)) with
  | some i => (image.drop (fieldAt image (0x200 + 48 * i + 4) 4)).take (fieldAt image (0x200 + 48 * i + 8) 4)
  | none => []

/-- The compiler verification key with a number that the running image carries (R470). -/
def compilerKey (s : State) (number : Nat) : Option Bytes :=
  let b := imageSection s.boot.image 5
  (firstThat (fun i => fieldAt b (16 + 64 * i) 2 == number) (List.range (fieldAt b 0 2))).map
    (fun i => (b.drop (16 + 64 * i + 16)).take 48)

/-- Whether a signature section over the bytes before it verifies. -/
def signatureOk (s : State) (covered sig : Bytes) : Bool :=
  zeroField sig 2 14 &&
  match compilerKey s (fieldAt sig 0 2) with
  | none => false
  | some key => Config.slhVerify key covered ((sig.drop 16).take 16224)

/-! ### Programs -/

/-- The descriptors of a STEP_PROGRAM section (R162). -/
def programOf (b : Bytes) : List (BitVec 512) :=
  (List.range (Nat.min (fieldAt b 2 2) ((b.length - 64) / 64))).map (fun i => BitVec.ofNat 512 (fieldAt b (64 + 64 * i) 64))

/-- The bytes of a section. -/
def secOf (d : Draft) (i : Nat) : Bytes := d.secs.getD i []

/-- The index of the section of a type, where there is one. -/
def firstOf (d : Draft) (type : Nat) : Option Nat := (ofType d.hdr d.tbl type).head?

/-- Every descriptor of a draft. -/
def allDescs (d : Draft) : List (BitVec 512) := (ofType d.hdr d.tbl 3).flatMap (fun i => programOf (secOf d i))

/-- The program of a role. -/
def roleProgram (d : Draft) (role : Nat) : List (BitVec 512) :=
  match firstThat (fun i => fieldAt (secOf d i) 0 2 == role) (ofType d.hdr d.tbl 3) with
  | some i => programOf (secOf d i)
  | none => []

/-! ### Step 9: capabilities (Table 06-4, R164) -/

/-- Whether an operand names an address that the chiplet port serves. -/
def namesChiplet (d : BitVec 512) : Bool :=
  [operandA d, operandB d, operandC d].any (fun o => match o with
    | some x => !x.store && decide (0xF800000000 ≤ x.addr) && decide (x.addr < 0xF900000000)
    | none => false)

/-- The CAPS bits whose features a descriptor uses; what runs in the banks is not seen here. -/
def featuresOf (d : BitVec 512) : List Nat :=
  let op := dOpcode d
  (if op = opBobbin then [1] else [])
    ++ (if op = opScore ∨ op = opTopk then [2] else [])
    ++ (if op = opGather then [3] else [])
    ++ (if op = opVec ∧ dSubop d = 0x20 ∧ dOpx d % 4 = 1 then [5] else [])
    ++ (if (op = opKnotArrive ∨ op = opKnotWait) ∧ kcRemote d = true then [6] else [])
    ++ (if namesChiplet d then [7] else [])

/-- Step 9. -/
def capsFail (s : State) (d : Draft) : Option DraftFail :=
  let caps := hCaps d.hdr
  let lic (f : Licence → Bool) : Bool := s.boot.licence.any f
  firstFail [
    (bitOf caps 0 && decide (caps < 256) && bitOf (fieldAt d.hdr 0x33 1) 1 == bitOf caps 4
      && (!(bitOf caps 2 || bitOf caps 3) || (firstOf d 7).isSome)
      && (allDescs d).all (fun x => (featuresOf x).all (bitOf caps)), { status := stBadPacket, step := 9 }),
    ((!bitOf caps 4 || lic (·.rilavanik)) && (!bitOf caps 6 || anyLinkLicensed s) && (!bitOf caps 7 || lic (·.chiplet)),
      { status := stNotLicensed, step := 9 })]

/-! ### Step 10: format tables (R154, R155) -/

/-- Entry n of the table of a narrow format (R154). -/
def formatEntry (fmt n : Nat) : Nat :=
  let w := match floatFmt fmt with
    | some f => 1 + f.eb + f.mb
    | none => 4
  if 2 ^ w ≤ n then 0
  else
    let sign := n / 2 ^ (w - 1) % 2 * 65536
    match decodeElem fmt n with
    | .nan _ => sign + 0x40000
    | .inf _ => sign + 0x20000
    | .fin _ mag exp => sign + mag % 256 + wrapTo 8 exp * 256

/-- Whether one 1,040-byte part of a FORMAT_TABLES section is the table of a narrow format. -/
def formatTableOk (b : Bytes) : Bool :=
  let fmt := fieldAt b 0 1
  narrowFmt fmt && zeroField b 1 15 && (List.range 256).all (fun n => fieldAt b (16 + 4 * n) 4 == formatEntry fmt n)

/-- Whether a FEEDER_FMT nibble names no table or a narrow format of FORMAT_MASK. -/
def feederOk (mask f : Nat) : Bool := f == 15 || (narrowFmt f && bitOf mask f)

/-- Step 10. A FORMAT_TABLES section holds one table or two; one that holds none is refused (DESIGN CHOICE, log 117). -/
def formatFail (d : Draft) : Option DraftFail :=
  let mask := fieldAt d.hdr 0x30 2
  let feeders := fieldAt d.hdr 0x32 1
  let tables := match firstOf d 6 with
    | none => true
    | some i =>
      let b := secOf d i
      let parts := chunks 3 1040 b
      (b.length == 1040 || b.length == 2080) && parts.all formatTableOk
        && (parts.map (fun p => fieldAt p 0 1)).eraseDups.length == parts.length
  firstFail [(tables && decide (mask < 8192) && feederOk mask (feeders % 16) && feederOk mask (feeders / 16),
    { status := stBadPacket, step := 10 })]

/-! ### Step 11: role map, tile map, relocations, swatch configuration -/

/-- A failure of step 11 at a section and an entry. -/
def fail11 (sec idx : Nat) : DraftFail := { status := stBadPacket, step := 11, sec := sec, idx := idx }

/-- The role map (R162). -/
def roleMapFail (d : Draft) (i : Nat) : Option DraftFail :=
  let b := secOf d i
  let n := 64 * hWeaveBlocks d.hdr
  if b.length ≠ 16 + n ∨ zeroField b 0 16 = false then some (fail11 i 0)
  else firstOver n (fun w =>
    let r := fieldAt b (16 + w) 1
    if r = 0xFF ∨ r < hRoles d.hdr then none else some (fail11 i w))

/-- The preambles of the programs: one program for each role (R162). -/
def programsFail (d : Draft) : Option DraftFail :=
  let secs := ofType d.hdr d.tbl 3
  secs.findSome? (fun i =>
    let b := secOf d i
    let n := fieldAt b 2 2
    if decide (fieldAt b 0 2 < hRoles d.hdr) && decide (1 ≤ n) && decide (n ≤ 512) && b.length == 64 + 64 * n
        && zeroField b 6 58 && (secs.filter (fun j => fieldAt (secOf d j) 0 2 == fieldAt b 0 2)).length == 1 then none
    else some (fail11 i 0))

/-- A tile-map entry's fields (Table 06-5). -/
structure TileEntry where
  src : Nat
  length : Nat
  kind : Nat
  fmt : Nat
  sec : Nat
  core : Nat
  place : Nat
  row : Nat
  far : Nat
deriving DecidableEq, Repr

/-- Entry n of a tile map. -/
def tileEntry (b : Bytes) (n : Nat) : TileEntry :=
  let o := 16 + 32 * n
  { src := fieldAt b o 8, length := fieldAt b (o + 8) 4, kind := fieldAt b (o + 12) 1, fmt := fieldAt b (o + 13) 1
    sec := fieldAt b (o + 14) 2, core := fieldAt b (o + 16) 2, place := fieldAt b (o + 18) 1, row := fieldAt b (o + 20) 2
    far := fieldAt b (o + 24) 8 }

/-- The entries of a tile map. -/
def tileEntries (b : Bytes) : List TileEntry := (List.range (fieldAt b 0 4)).map (tileEntry b)

/-- Rows that a tile takes (R165). -/
def tileRows (t : TileEntry) : Nat := ceilDiv t.length 1024

/-- Whether two near tiles overlap. -/
def tilesMeet (a b : TileEntry) : Bool :=
  a.kind != 3 && b.kind != 3 && a.core == b.core && a.place == b.place
    && decide (a.row < b.row + tileRows b) && decide (b.row < a.row + tileRows a)

/-- Formats of a bank tile (R231: the MACW and MAC weight formats). -/
def bankTileFmt (f : Nat) : Bool := f == 1 || f == 2 || f == 0xA || f == 3 || f == 4 || f == 8 || f == 9 || f == 7

/-- Whether a tile-map entry obeys Table 06-5 and R165. -/
def tileOk (d : Draft) (b : Bytes) (n : Nat) : Bool :=
  let t := tileEntry b n
  let o := 16 + 32 * n
  let want := if t.kind ≤ 1 then 9 else 5
  t.length % 256 == 0 && decide (t.kind ≤ 3) && decide (t.fmt < 16) && zeroField b (o + 0x13) 1 && zeroField b (o + 0x16) 2
    && decide (t.sec < hSections d.hdr) && eType d.tbl t.sec == want && decide (t.src + t.length ≤ eLength d.tbl t.sec)
    && (if t.kind = 3 then
          t.core == 0 && t.place == 0 && t.row == 0 && decide (t.far + t.length ≤ hFarBytes d.hdr)
        else
          decide (t.core / 64 < hWeaveBlocks d.hdr) && !bitOf t.place 3 && t.far == 0
            && decide (t.row + tileRows t ≤ hNearRows d.hdr)
            && (t.kind != 1 || bankTileFmt t.fmt))

/-- The tile map. -/
def tileMapFail (d : Draft) (i : Nat) : Option DraftFail :=
  let b := secOf d i
  let n := fieldAt b 0 4
  if b.length ≠ 16 + 32 * n ∨ zeroField b 4 12 = false then some (fail11 i 0)
  else firstOver n (fun k =>
    if tileOk d b k && (List.range k).all (fun j => !tilesMeet (tileEntry b j) (tileEntry b k)) then none
    else some (fail11 i k))

/-- The place and width, in bits of the descriptor, of the field that a relocation names (R533); none where the
descriptor has no such field. -/
def relocField (d : BitVec 512) (field : Nat) : Option (Nat × Nat) :=
  let op := dOpcode d
  match field with
  | 0 =>
    if op = opArrayMm ∨ op = opMove then some (128, 40)
    else if op = opScore then some (192, 40)
    else none
  | 1 => if op = opArrayMm then some (288, 40) else none
  | 2 =>
    if op = opMove then some (288, 40)
    else if op = opScore then some (352, 40)
    else if op = opGather ∨ op = opBobbin then some (192, 40)
    else none
  | 3 => if dWaitEn d ∧ ¬ dWaitLocal d ∧ op ≠ opKnotWait then some (16, 16) else none
  | 4 => if dSigEn d ∧ ¬ dSigLocal d then some (32, 16) else none
  | 5 => if (op = opKnotArrive ∨ op = opKnotWait) ∧ ¬ kcLocal d ∧ ¬ kcRemote d then some (128, 16) else none
  | _ => none

/-- Whether a relocation entry obeys R533. -/
def relocOk (d : Draft) (prog : List (BitVec 512)) (v : Nat) : Bool :=
  let field := bitsOf v 11 9
  let kind := bitsOf v 15 12
  decide (v < 65536) && decide (v % 512 < prog.length)
    && (relocField (prog.getD (v % 512) 0) field).isSome
    && (if field ≤ 2 then decide (kind ≤ 2) && (kind != 2 || decide (1 ≤ hStaging d.hdr)) else kind == 3)

/-- The relocation sections. -/
def relocsFail (d : Draft) : Option DraftFail :=
  let secs := ofType d.hdr d.tbl 4
  secs.findSome? (fun i =>
    let b := secOf d i
    let role := fieldAt b 0 2
    let n := fieldAt b 4 4
    if !(decide (role < hRoles d.hdr) && b.length == 16 + 4 * n && zeroField b 2 2 && zeroField b 8 8
        && (secs.filter (fun j => fieldAt (secOf d j) 0 2 == role)).length == 1) then some (fail11 i 0)
    else firstOver n (fun k => if relocOk d (roleProgram d role) (fieldAt b (16 + 4 * k) 4) then none else some (fail11 i k)))

/-- The weave cores that hold a role. -/
def holdersOf (d : Draft) (role : Nat) : Nat :=
  match firstOf d 2 with
  | none => 0
  | some i => ((List.range (64 * hWeaveBlocks d.hdr)).filter (fun w => fieldAt (secOf d i) (16 + w) 1 == role)).length

/-- Whether every pair that a draft names has exactly one home core (R267). -/
def pairsOk (d : Draft) : Bool :=
  let roles := List.range (hRoles d.hdr)
  let pairs := ((allDescs d).filter (fun x => dOpcode x == opGather || dOpcode x == opScore)).map (fun x => (scLayer x, scHgroup x))
  pairs.eraseDups.all (fun q =>
    sumOf (roles.map (fun r => if namesPair (roleProgram d r) q.1 q.2 then holdersOf d r else 0)) == 1)

/-- A slot that holds a draft's header, table and small sections: the model's view of the draft. -/
def slotOfDraft (d : Draft) (keep : List Nat) : ModelSlot :=
  { header := d.hdr, table := d.tbl
    kept := keep.map (fun i => { index := i, type := eType d.tbl i, data := secOf d i }) }

/-- The swatch configuration (Table 06-7, R267). -/
def swatchFail (d : Draft) : Option DraftFail :=
  match firstOf d 7 with
  | none => none
  | some i =>
    let b := secOf d i
    let g := geometryOf (slotOfDraft d [i])
    let score := bitOf (hCaps d.hdr) 2
    let tpp := fieldAt b 4 2
    if b.length == 64 && zeroField b 0x12 46 && decide (fieldAt b 6 1 < 16) && decide (fieldAt b 7 1 < 16)
        && fieldAt b 0x10 2 == 256 && decide (1 ≤ g.topk) && decide (g.topk ≤ 64)
        && [8, 16, 32, 64, 128, 256].contains tpp && [1, 2, 3, 4, 8].contains g.kvFmt
        && (!score || ([1, 2, 3, 4].contains g.swFmt && decide (keyElems g * elemSize g.swFmt ≤ 256)))
        && decide (1 ≤ g.recent) && decide ((g.sink + g.recent) * g.tpp < g.threshold) && pairsOk d then none
    else some (fail11 i 0)

/-- Step 11. -/
def mapsFail (d : Draft) : Option DraftFail :=
  ((firstOf d 2).bind (roleMapFail d)).orElse (fun _ => (programsFail d).orElse (fun _ =>
    ((firstOf d 1).bind (tileMapFail d)).orElse (fun _ => (relocsFail d).orElse (fun _ => swatchFail d))))

/-! ### Step 12: descriptors (R178) -/

/-- Whether the sequence control of a gather or score names a layer and a head group of the model and, with CAPS bit 3,
a batch row, and a gather's C has the format of the model's KV tiles and no scales (R178, R290). -/
def seqControlOk (sl : ModelSlot) (d : BitVec 512) : Bool :=
  !(dOpcode d == opGather || dOpcode d == opScore)
    || (decide (scLayer d < (geometryOf sl).layers) && decide (scHgroup d < (geometryOf sl).groups)
        && !(namesRow sl d && decide (256 ≤ scSeq d))
        && (dOpcode d != opGather || (!(opd20 d 24).scaled && (opd20 d 24).fmt == (geometryOf sl).kvFmt)))

/-- A failure of step 12. -/
def fail12 (sec idx : Nat) : DraftFail := { status := stBadPacket, step := 12, sec := sec, idx := idx }

/-- Step 12. -/
def descsFail (d : Draft) : Option DraftFail :=
  let sl := slotOfDraft d (ofType d.hdr d.tbl 7)
  (ofType d.hdr d.tbl 3).findSome? (fun i =>
    let b := secOf d i
    let prog := programOf b
    if prog.length ≤ fieldAt b 4 2 then some (fail12 i 0)
    else
      (firstOver prog.length (fun k =>
        let x := prog.getD k 0
        if (descCause prog.length x).isNone && seqControlOk sl x then none else some (fail12 i k))).orElse (fun _ =>
      if prog.any (fun x => dOpcode x == opHalt) then none else some (fail12 i prog.length)))

end Sys2Proof.Machine
end

