-- ==== Sys2Proof/Machine/Seqs.lean ====
section
/-!
DEFINITION. Sequence and page commands (spec/12_command_reference.md R344 to R351; spec/10_sequences_and_kv.md R266, R276, R279, R282,
R285).
-/
namespace Sys2Proof.Machine

/-! ### Buffers that a command fills -/

/-- Write bytes that the device composed into a buffer (R69: RESTARTED 1). -/
def putBuffer (s : State) (u : Buf) (b : Bytes) : State × Nat :=
  if u.host then (hostWrite s u.addr b false, stOk) else writeRange s [] u.addr b true false

/-- Fill a buffer with composed bytes, unless it is refused or its channel holds accesses back. -/
def fillBuffer (s : State) (p : Nat) (u : Buf) (b : Bytes) (result : Bytes) : State :=
  let v : Buf := { u with len := b.length }
  if bufStatus s p true v ≠ stOk then fail s p (bufStatus s p true v)
  else if bufWaits s v then s
  else
    let w := putBuffer s v b
    if w.2 = stOk then finish w.1 p stOk result else fail w.1 p w.2

/-! ### SEQ_OPEN (R266, R285, R345) -/

/-- The lowest-numbered FREE sequence entry. -/
def freeEntry (s : State) : Option Nat := firstThat (fun n => (getSeq s n).phase == .free) (List.range 4096)

/-- Privileged sequences that are open. -/
def openPrivileged (s : State) : Nat := (s.seqs.filter (fun e => e.2.phase != .free && e.2.privileged)).length

/-- Privileged slots that the licence grants, at most 64. -/
def grantedPrivileged (s : State) : Nat := Nat.min ((s.boot.licence.map (·.privSlots)).getD 0) 64

/-- The home cores of a model's used pairs that a page service serves, one for each pair. -/
def servedCores (sl : ModelSlot) (region : Nat) : List Nat :=
  ((usedPairs sl).filterMap (fun q => homeCore sl q.1 q.2)).filter (fun c => regionOfCore c == region)

/-- Frames that a home core must supply to a privileged sequence: ceil(MAX_LENGTH / TPP) for each pair that it serves. -/
def reserveNeed (sl : ModelSlot) (maxLength core : Nat) : Nat :=
  ceilDiv maxLength (geometryOf sl).tpp * ((servedCores sl (regionOfCore core)).filter (· == core)).length

/-- Frames that every open sequence, and a new one, have reserved at a home core. -/
def reservedOn (s : State) (core need : Nat) : Nat := need + sumOf (s.seqs.map (fun e => tget e.2.reservations core))

/-- The frames that a reservation lacks at each core of a page service once its free near frames are counted: a pair's frames
lie in its home core's slice or in the window (R269). -/
def nearShort (s : State) (region : Nat) (needs : List (Nat × Nat)) : Table Nat :=
  ((needs.map (·.1) ++ (s.seqs.flatMap (fun e => e.2.reservations.map (·.1))).filter (fun c => regionOfCore c == region)).eraseDups.map
    (fun c => (c, reservedOn s c (tget needs c) - (freeNear s c).length))).filter (fun e => e.2 != 0)

/-- The frames to drop, in the order of R281, until nothing is lacking: a near frame serves its own core, a far one any. None
when they do not suffice. -/
def pickDrops (short : Table Nat) : Nat → List Nat → Option (List Nat)
  | 0, _ => some []
  | _ + 1, [] => none
  | n + 1, fn :: rest =>
    if bitOf fn 25 then (pickDrops short n rest).map (fn :: ·)
    else if tget short (fn / 4096) = 0 then pickDrops short (n + 1) rest
    else (pickDrops (tmod short (fn / 4096) (· - 1)) n rest).map (fn :: ·)

/-- A page service meets its part of a reservation: it drops normal frames as needed. None when it cannot. -/
def reserveAt (sl : ModelSlot) (seq maxLength : Nat) (s : State) (region : Nat) : Option State :=
  let needs := (servedCores sl region).eraseDups.map (fun c => (c, reserveNeed sl maxLength c))
  let short := nearShort s region needs
  let lack := sumOf (short.map (·.2))
  (pickDrops short (lack - (freeFar s region lack).length) (dropOrder s seq region (needs.map (·.1)))).map (fun drops =>
    modSeq (drops.foldl dropFrame s) seq (fun e => { e with
      reservations := needs.foldl (fun t n => tset t n.1 n.2) e.reservations }))

/-- Every page service reserves, or none does. -/
def reserveAll (sl : ModelSlot) (seq maxLength : Nat) (s : State) : Option State :=
  (List.range 16).foldl (fun acc r => acc.bind (fun t =>
    if (servedCores sl r).isEmpty then some t else reserveAt sl seq maxLength t r)) (some s)

/-- The token log and the page-table root of a new sequence. -/
def allocSeq (s : State) (sl : ModelSlot) (seq slot region maxLength : Nat) : Option (Nat × Nat × State) :=
  match (poolAlloc s region (4 * maxLength)).map (fun r => (r.1, takeLogFrames r.2 seq slot r.1 (4 * maxLength))) with
  | none => none
  | some (log, s1) =>
    if rootBytes sl = 0 then some (log, 0, s1)
    else match ptAlloc s1 region (rootBytes sl) with
      | none => none
      | some (root, s2) => some (log, root, s2)

/-- Open a sequence on a slot whose checks have passed. -/
def openSeq (s : State) (p slot region maxLength priority : Nat) (priv : Bool) : State :=
  let sl := getSlot s slot
  match freeEntry s with
  | none => fail s p stBusy
  | some n => match allocSeq s sl n slot region maxLength with
    | none => fail s p stNoPage
    | some (log, root, s1) =>
      let s2 := modSeq s1 n (fun _ => {
        phase := .opened, privileged := priv, modelSlot := slot, maxLength := maxLength, priority := priority
        homeRegion := region, ptRoot := root, tokenLog := log, parent := 0xFFFF })
      if priv then
        match reserveAll sl n maxLength s2 with
        | none => fail s p stNoPage
        | some s3 =>
          finish (modSeq s3 n (fun e => { e with reservedFrames := sumOf (e.reservations.map (·.2)) })) p stOk (toBytes 4 n)
      else finish s2 p stOk (toBytes 4 n)

/-- SEQ_OPEN. -/
def seqOpen (p : Nat) (s : State) : State :=
  runCmd s p 0x0201 (fun k =>
    let slot := k.context
    let priv := bitOf (argAt k 0x10 1) 0
    let home := argAt k 0x12 2
    let maxLength := argAt k 0x14 4
    let sl := getSlot s slot
    if 1024 ≤ slot ∨ (16 ≤ home ∧ home ≠ 0xFF) ∨ maxLength = 0 ∨ (if priv then 131072 else 1048576) < maxLength then
      fail s p stBadPacket
    else if sl.phase ≠ .placed ∨ sl.evicting = true then fail s p stState
    else if priv ∧ grantedPrivileged s ≤ openPrivileged s then fail s p stNotLicensed
    else openSeq s p slot (if home = 0xFF then leadRegion sl else home) maxLength
      (if bitOf (argAt k 0x10 1) 1 then fieldAt sl.header 0x4C 1 else argAt k 0x11 1) priv)

/-! ### SEQ_STEP and SEQ_PREFILL (R346) -/

/-- The refusal of a step by the state of its sequence. -/
def stepRefusal (s : State) (seq tokens : Nat) : Nat :=
  let e := getSeq s seq
  if e.phase = .free ∨ e.phase = .closing ∨ (getSlot s e.modelSlot).phase ≠ .placed then stState
  else if e.phase = .parked ∧ e.parkedHost = true then stState
  else if e.phase = .parked then stNoPage
  else if e.pending.isSome then stBusy
  else if e.maxLength < e.length + tokens then stBadPacket
  else stOk

/-- A step or prefill becomes pending (R265). -/
def makePending (s : State) (seq : Nat) (c : PendingCmd) : State :=
  let s1 := modSeq (markStarted s c.packet) seq (fun e => { e with pending := some { c with order := s.nextOrder } })
  { s1 with nextOrder := s1.nextOrder + 1 }

/-- SEQ_STEP. -/
def seqStep (p : Nat) (s : State) : State :=
  runCmd s p 0x0203 (fun k =>
    if 4096 ≤ k.context then fail s p stBadPacket
    else if stepRefusal s k.context 1 ≠ stOk then fail s p (stepRefusal s k.context 1)
    else makePending s k.context { packet := p, prefill := false, token := argAt k 0x10 4 })

/-- SEQ_PREFILL. -/
def seqPrefill (p : Nat) (s : State) : State :=
  runCmd s p 0x0202 (fun k =>
    let n := (bufA k).len / 4
    if 4096 ≤ k.context ∨ (bufA k).len % 4 ≠ 0 ∨ n = 0 ∨ 1048576 < n then fail s p stBadPacket
    else if stepRefusal s k.context n ≠ stOk then fail s p (stepRefusal s k.context n)
    else if bufStatus s p false (bufA k) ≠ stOk then fail s p (bufStatus s p false (bufA k))
    else makePending s k.context { packet := p, prefill := true, total := n })

/-! ### SEQ_FORK (R276, R347) -/

/-- Share one entry of the parent with the child: the same frame, or ABSENT; none when no leaf can be had. -/
def shareEntry (sl : ModelSlot) (parent child : Nat) (acc : Option State) (key : Nat) : Option State :=
  match acc with
  | none => none
  | some s =>
    let onto := key + (child * 65536 - parent * 65536) * (1048576 * 2)
    let onto' := if parent ≤ child then onto else key - (parent - child) * 65536 * (1048576 * 2)
    let t := getPte s key
    match ensureLeaf s (pairService sl (pteLayer key) (pteHgroup key)) onto' with
    | none => none
    | some s1 =>
      if t.state = .present then
        let s2 := modPte s1 onto' (fun x => { x with state := .present, fn := t.fn })
        some (refreshFrame (modFrame s2 t.fn (fun f => { f with refcount := f.refcount + 1 })) t.fn)
      else if pteSwatch key then some s1
      else some (modPte s1 onto' (fun x => { x with state := .absent }))

/-- The keys of the parent's pages below P, and of the swatch frames that cover them. -/
def forkKeys (s : State) (sl : ModelSlot) (parent tokens : Nat) : List Nat :=
  let n := pagesBelow (geometryOf sl) tokens
  (usedPairs sl).flatMap (fun q =>
    (List.range n).map (pteKey parent q.1 q.2 false)
      ++ ((List.range (ceilDiv n 64)).map (pteKey parent q.1 q.2 true)).filter (fun k => (getPte s k).state == .present))

/-- Copy the first tokens of a token log. -/
def copyLog (s : State) (src dst n : Nat) : State :=
  let r := readBlocks s [] (blocksOf src (4 * n))
  (copyBytes r.1 [] r.2 (copyTriples r.2 256 ((List.range (4 * n)).map (fun i => (dst + i, src + i))))).1

/-- Create the child of a fork whose checks have passed. -/
def forkSeq (s : State) (p parent tokens maxLength priority : Nat) : State :=
  let e := getSeq s parent
  let sl := getSlot s e.modelSlot
  match freeEntry s with
  | none => fail s p stBusy
  | some child => match allocSeq s sl child e.modelSlot e.homeRegion maxLength with
    | none => fail s p stNoPage
    | some (log, root, s1) =>
      let s2 := modSeq s1 child (fun _ => {
        phase := .opened, modelSlot := e.modelSlot, length := tokens, maxLength := maxLength, priority := priority
        bucket := bucketOf tokens, homeRegion := e.homeRegion, ptRoot := root, tokenLog := log, parent := parent
        forkPoint := tokens })
      match (forkKeys s2 sl parent tokens).foldl (shareEntry sl parent child) (some s2) with
      | none => fail s p stNoPage
      | some s3 =>
        let s4 := modSeq (copyLog s3 e.tokenLog log tokens) child (fun c => { c with
          retrieval := retrievalMode sl c })
        let s5 := modSeq s4 child (fun c => { c with recomputeDue := !(missingPages s4 sl child).isEmpty })
        finish s5 p stOk (toBytes 4 child)

/-- SEQ_FORK: of a BATCHED parent it waits for the commit. -/
def seqFork (p : Nat) (s : State) : State :=
  runCmd s p 0x0204 (fun k =>
    let e := getSeq s k.context
    let tokens := argAt k 0x10 4
    let word := argAt k 0x14 4
    let maxLength := if argAt k 0x18 4 = 0 then e.maxLength else argAt k 0x18 4
    if 4096 ≤ k.context then fail s p stBadPacket
    else if e.phase = .free ∨ e.phase = .closing then fail s p stState
    else if e.phase = .batched then s
    else if e.length < tokens ∨ maxLength < tokens ∨ 1048576 < maxLength then fail s p stBadPacket
    else forkSeq s p k.context tokens maxLength (if bitOf word 8 then e.priority else word % 256))

/-! ### SEQ_PARK, SEQ_RESUME, SEQ_CLOSE, SEQ_QUERY (R282, R348, R349) -/

/-- SEQ_PARK: at once, or after the commit of a BATCHED sequence. -/
def seqPark (p : Nat) (s : State) : State :=
  runCmd s p 0x0205 (fun k =>
    let seq := k.context
    let e := getSeq s seq
    if 4096 ≤ seq then fail s p stBadPacket
    else if e.phase = .free ∨ e.phase = .closing then fail s p stState
    else if e.phase = .batched then modSeq s seq (fun x => { x with parkAfter := true })
    else
      let s1 := modSeq (strikeRow s seq stOk) seq (fun x => { x with
        phase := .parked, parkedHost := true, parkOrder := if x.phase = .parked then x.parkOrder else s.nextOrder })
      finish { s1 with nextOrder := s1.nextOrder + 1 } p stOk [])

/-- SEQ_RESUME. -/
def seqResume (p : Nat) (s : State) : State :=
  runCmd s p 0x0206 (fun k =>
    let seq := k.context
    let e := getSeq s seq
    if 4096 ≤ seq then fail s p stBadPacket
    else if e.phase = .free ∨ e.phase = .closing then fail s p stState
    else if e.phase = .parked then
      finish (modSeq s seq (fun x => { x with phase := .opened, parkedHost := false, parkedNoPage := false })) p stOk []
    else finish s p stOk [])

/-- SEQ_CLOSE: of a BATCHED sequence it completes when the step-batch ends. -/
def seqClose (p : Nat) (s : State) : State :=
  runCmd s p 0x0207 (fun k =>
    let seq := k.context
    let e := getSeq s seq
    if 4096 ≤ seq then fail s p stBadPacket
    else if e.phase = .free ∨ e.phase = .closing then fail s p stState
    else if e.phase = .batched then
      markStarted (modSeq s seq (fun x => { x with phase := .closing, closers := x.closers ++ [p] })) p
    else finish (completeClose (endPending s seq stAborted) seq) p stOk [])

/-- SEQ_QUERY. -/
def seqQuery (p : Nat) (s : State) : State :=
  runCmd s p 0x0208 (fun k =>
    let seq := k.context
    let e := getSeq s seq
    if 4096 ≤ seq then fail s p stBadPacket
    else if e.phase = .free then fail s p stState
    else finish s p stOk (toBytes 1 (seqPhaseCode e.phase) ++ toBytes 1 (seqFlags e) ++ toBytes 2 e.modelSlot
      ++ toBytes 4 e.length ++ toBytes 4 (countPages s seq (fun t => t.state == .present || t.state == .recomputing))
      ++ toBytes 4 (countPages s seq (fun t => t.state == .absent))))

/-! ### PAGE_ commands (R279, R350) -/

/-- The pairs that a PAGE_ command names; none when the fields break R350. -/
def namedPairs (sl : ModelSlot) (word : Nat) : Option (List (Nat × Nat)) :=
  let q := (word % 256, word / 256 % 256)
  if bitOf word 16 then (if word % 65536 = 0 then some (usedPairs sl) else none)
  else if (usedPairs sl).contains q then some [q] else none

/-- The entries with a frame that a command names. -/
def namedKeys (s : State) (seq first count : Nat) (pairs : List (Nat × Nat)) : List Nat :=
  (seqKeys s seq).filter (fun k => !pteSwatch k && pairs.contains (pteLayer k, pteHgroup k)
    && decide (first ≤ ptePage k) && decide (ptePage k < first + count)
    && ((getPte s k).state == .present || (getPte s k).state == .recomputing))

/-- Run a page operation over every named page: `ok` says whether it takes effect on a page with a frame. -/
def pageCmd (s : State) (p op : Nat) (ok : State → Nat → Bool) (f : State → Nat → State) : State :=
  runCmd s p op (fun k =>
    let seq := k.context
    let count := argAt k 0x18 4
    if 4096 ≤ seq ∨ count = 0 ∨ 1048576 < count then fail s p stBadPacket
    else if (getSeq s seq).phase = .free then fail s p stState
    else match namedPairs (getSlot s (getSeq s seq).modelSlot) (argAt k 0x10 4) with
      | none => fail s p stBadPacket
      | some pairs =>
        let keys := namedKeys s seq (argAt k 0x14 4) count pairs
        let sl := getSlot s (getSeq s seq).modelSlot
        let done := keys.filter (ok s)
        if pairs.any (fun q => (getRegion s (pairService sl q.1 q.2)).inReset) then fail s p stInReset
        else if keys.isEmpty then fail s p stNoPage
        else if done.isEmpty then fail s p stBusy
        else finish (done.foldl f s) p stOk
          (toBytes 4 done.length ++ toBytes 4 (count * pairs.length - done.length)))

/-- Raise or lower HOLDS and PINS of one page. -/
def pinOne (s : State) (key : Nat) : State :=
  let fn := (getPte s key).fn
  modFrame (modPte s key (fun t => { t with pins := t.pins + 1 })) fn (fun f => { f with holds := f.holds + 1 })

def unpinOne (s : State) (key : Nat) : State :=
  let fn := (getPte s key).fn
  settle (modFrame (modPte s key (fun t => { t with pins := t.pins - 1 })) fn (fun f => { f with holds := f.holds - 1 })) fn

/-- A frame that PAGE_DROP drops returns to FREE. -/
def dropOne (s : State) (key : Nat) : State :=
  let fn := (getPte s key).fn
  unparkOldest (dropFrame s fn) (frameRegion fn)

/-- PAGE_PIN. -/
def pagePin (p : Nat) (s : State) : State := pageCmd s p 0x0301 (fun t k => decide ((getPte t k).pins < 255)) pinOne

/-- PAGE_UNPIN. -/
def pageUnpin (p : Nat) (s : State) : State := pageCmd s p 0x0302 (fun t k => decide (1 ≤ (getPte t k).pins)) unpinOne

/-- PAGE_DROP: a frame that is droppable for no requester in particular. -/
def pageDrop (p : Nat) (s : State) : State :=
  pageCmd s p 0x0303 (fun t k => droppable t 4096 (frameOf t (getPte t k).fn)) dropOne

/-! ### PAGE_STATS (R351) -/

/-- The state code of a frame (Table 10-7). -/
def frameCode (fn : Nat) (f : Frame) : Nat :=
  if f.recomputing then 5
  else if 1 ≤ f.holds then 6
  else if 2 ≤ f.refcount then 3
  else if bitOf fn 25 then 2 else 1

/-- The state code of a page by its entry. -/
def pageCode (s : State) (t : Pte) : Nat :=
  match t.state with
  | .noPage => 0
  | .absent => 4
  | .recomputing => 5
  | .present => frameCode t.fn (frameOf s t.fn)

/-- How often each of the codes 0 to 6 stands in a list. -/
def countCodes (l : List Nat) : List Nat := (List.range 7).map (fun c => (l.filter (· == c)).length)

/-- Free near and far frames of a page service. -/
def freeNearOf (s : State) (region : Nat) : Nat := sumOf ((rangeFrom (region * 512) 512).map (fun c => (freeNear s c).length))
def freeFarOf (s : State) (region : Nat) : Nat := (freeFar s region 1572864).length

/-- A PAGE_STATS record (Table 12-7). -/
def statsRecord (s : State) (counts : List Nat) (pair region : Nat) : Bytes :=
  let parked := (s.seqs.filter (fun e => e.2.parkedNoPage && e.2.parkRegion == region)).length
  padTo 64 (counts.flatMap (toBytes 4) ++ toBytes 4 parked ++ toBytes 4 (freeNearOf s region) ++ toBytes 4 (freeFarOf s region)
    ++ toBytes 4 (getRegion s region).psDrops ++ toBytes 4 (getRegion s region).psRecomputed ++ toBytes 2 pair
    ++ toBytes 1 region)

/-- The record of a pair of a sequence. -/
def pairStats (s : State) (sl : ModelSlot) (seq : Nat) (q : Nat × Nat) : Bytes :=
  let pages := List.range (pagesBelow (geometryOf sl) (getSeq s seq).length)
  let codes := pages.map (fun p => pageCode s (getPte s (pteKey seq q.1 q.2 false p)))
  statsRecord s (0 :: (countCodes codes).drop 1) (q.1 + 256 * q.2) (pairService sl q.1 q.2)

/-- Whether a page-table entry belongs to a page service. -/
def servedBy (s : State) (region key : Nat) : Bool :=
  !pteSwatch key && pairService (getSlot s (getSeq s (pteSeq key)).modelSlot) (pteLayer key) (pteHgroup key) == region

/-- The record of a page service; zero but for REGION where the region is not enabled. -/
def serviceStats (s : State) (region : Nat) : Bytes :=
  if !regionOn s region then padTo 64 (toBytes 50 0 ++ toBytes 1 region)
  else
    let mine := s.frames.filter (fun e => e.1 / 4194304 == region && e.2.allocated && e.2.kind == 0 && decide (1 ≤ e.2.refcount))
    let codes := countCodes (mine.map (fun e => frameCode (indexFn region (e.1 % 4194304)) e.2))
    let absent := (s.ptes.filter (fun e => e.2.state == .absent && servedBy s region e.1)).length
    statsRecord s ([freeNearOf s region + freeFarOf s region] ++ (codes.drop 1).take 3 ++ [absent] ++ codes.drop 5) 0xFFFF region

/-- PAGE_STATS. -/
def pageStats (p : Nat) (s : State) : State :=
  runCmd s p 0x0304 (fun k =>
    let seq := k.context
    if 4096 ≤ seq ∧ seq ≠ 0xFFFFFFFF then fail s p stBadPacket
    else if seq < 4096 ∧ (getSeq s seq).phase = .free then fail s p stState
    else
      let sl := getSlot s (getSeq s seq).modelSlot
      let recs := if seq < 4096 then (usedPairs sl).map (pairStats s sl seq) else (List.range 16).map (serviceStats s)
      if (bufA k).len < 64 * recs.length then fail s p stBadPacket
      else fillBuffer s p (bufA k) recs.flatten (toBytes 4 recs.length))

/-! ### The rows of the table -/

/-- SEQ_OPEN. -/
def execSeqOpen (p : Nat) (s : State) : Host.Outcome State Fault Refusal := .next (seqOpen p s)

/-- SEQ_PREFILL. -/
def execSeqPrefill (p : Nat) (s : State) : Host.Outcome State Fault Refusal := .next (seqPrefill p s)

/-- SEQ_STEP. -/
def execSeqStep (p : Nat) (s : State) : Host.Outcome State Fault Refusal := .next (seqStep p s)

/-- SEQ_FORK. -/
def execSeqFork (p : Nat) (s : State) : Host.Outcome State Fault Refusal := .next (seqFork p s)

/-- SEQ_PARK. -/
def execSeqPark (p : Nat) (s : State) : Host.Outcome State Fault Refusal := .next (seqPark p s)

/-- SEQ_RESUME. -/
def execSeqResume (p : Nat) (s : State) : Host.Outcome State Fault Refusal := .next (seqResume p s)

/-- SEQ_CLOSE. -/
def execSeqClose (p : Nat) (s : State) : Host.Outcome State Fault Refusal := .next (seqClose p s)

/-- SEQ_QUERY. -/
def execSeqQuery (p : Nat) (s : State) : Host.Outcome State Fault Refusal := .next (seqQuery p s)

/-- PAGE_PIN. -/
def execPagePin (p : Nat) (s : State) : Host.Outcome State Fault Refusal := .next (pagePin p s)

/-- PAGE_UNPIN. -/
def execPageUnpin (p : Nat) (s : State) : Host.Outcome State Fault Refusal := .next (pageUnpin p s)

/-- PAGE_DROP. -/
def execPageDrop (p : Nat) (s : State) : Host.Outcome State Fault Refusal := .next (pageDrop p s)

/-- PAGE_STATS. -/
def execPageStats (p : Nat) (s : State) : Host.Outcome State Fault Refusal := .next (pageStats p s)

end Sys2Proof.Machine
end

