-- ==== Sys2Proof/Machine/Models.lean ====
section
/-!
DEFINITION. Model commands (spec/12_command_reference.md R334, R340 to R343; spec/06_drafts.md R160 to R169, R187).
-/
namespace Sys2Proof.Machine

/-! ### Reading a draft -/

/-- Where a draft's bytes come from: what the host returned, or device memory at an address. -/
inductive DraftSrc where
  | host (b : Bytes)
  | device (addr : Nat)
deriving DecidableEq, Repr

/-- The source of a buffer; none while the host has not returned its bytes. -/
def draftSrc (s : State) (h : HostData) (u : Buf) : Option DraftSrc :=
  if u.host then (hostBytes s h u.len).map .host else some (.device u.addr)

/-- Read bytes of a draft: the state, the bytes, and the status that their blocks give. -/
def draftRead (s : State) (finds : Findings) (src : DraftSrc) (off n : Nat) : State × Bytes × Nat :=
  match src with
  | .host b => (s, (b.drop off).take n, stOk)
  | .device a =>
    let r := readRange s finds (a + off) n
    (r.1, r.2.data, readStatus r.2.blocks)

/-- Read the sections of a draft in table order and check each one's CRC (step 7). Answers the sections read, and the
failure that stopped it. -/
def readSections (finds : Findings) (src : DraftSrc) (t : Bytes) : State → List Nat → List Bytes → State × List Bytes × Option DraftFail
  | s, [], acc => (s, acc, none)
  | s, i :: rest, acc =>
    let r := draftRead s finds src (eOffset t i) (eLength t i)
    if r.2.2 ≠ stOk then (r.1, acc, some { status := r.2.2, step := 7 })
    else if eType t i ≠ 0xFF ∧ crc32c r.2.1 ≠ eCrc t i then (r.1, acc, some { status := stCheckFail, step := 7 })
    else readSections finds src t r.1 rest (acc ++ [r.2.1])

/-- Step 8, for a draft that is signed or must be. -/
def signFail (s : State) (finds : Findings) (src : DraftSrc) (d : Draft) (must : Bool) : State × Option DraftFail :=
  if !(hSigned d.hdr || must) then (s, none)
  else match firstOf d 0xFF with
    | none => (s, some { status := stBadSignature, step := 8 })
    | some i =>
      let r := draftRead s finds src 0 (eOffset d.tbl i)
      if r.2.2 ≠ stOk then (r.1, some { status := r.2.2, step := 8 })
      else (r.1, if signatureOk r.1 r.2.1 (secOf d i) then none else some { status := stBadSignature, step := 8 })

/-- Read a draft and check it in the order of Table 06-8. -/
def loadDraft (s : State) (finds : Findings) (src : DraftSrc) (len : Nat) (must : Bool) : State × Draft × Option DraftFail :=
  let r0 := draftRead s finds src 0 (Nat.min len 256)
  let h := padTo 256 r0.2.1
  if r0.2.2 ≠ stOk then (r0.1, { hdr := h }, some { status := r0.2.2, step := 1 })
  else match headerFail h len with
    | some f => (r0.1, { hdr := h }, some f)
    | none =>
      let r1 := draftRead r0.1 finds src 0x100 (32 * hSections h)
      let t := r1.2.1
      if r1.2.2 ≠ stOk then (r1.1, { hdr := h }, some { status := r1.2.2, step := 5 })
      else match tableFail h t with
        | some f => (r1.1, { hdr := h }, some f)
        | none =>
          let r2 := readSections finds src t r1.1 (List.range (hSections h)) []
          let d : Draft := { hdr := h, tbl := t, secs := r2.2.1 }
          match r2.2.2 with
          | some f => (r2.1, d, some f)
          | none =>
            let r3 := signFail r2.1 finds src d must
            (r3.1, d, r3.2.orElse (fun _ => (capsFail r3.1 d).orElse (fun _ => (formatFail d).orElse (fun _ =>
              (mapsFail d).orElse (fun _ => descsFail d)))))

/-! ### MODEL_LOAD (R167, R341) -/

/-- The section types whose data MODEL_LOAD keeps. -/
def keptTypes : List Nat := [1, 2, 3, 4, 6, 7]

/-- What MODEL_LOAD keeps of a draft's sections: `signed` adds the digests of WEIGHTS and CONSTANTS. -/
def keptSections (d : Draft) (signed : Bool) : List KeptSection :=
  (List.range (hSections d.hdr)).filterMap (fun i =>
    let t := eType d.tbl i
    if keptTypes.contains t then some { index := i, type := t, data := secOf d i }
    else if signed && (t == 5 || t == 9) then some { index := i, type := t, digest := some (Config.sha256 (secOf d i)) }
    else none)

/-- Bytes that a loaded draft takes in the pools. -/
def keptBytes (d : Draft) (l : List KeptSection) : Nat :=
  256 + d.tbl.length + sumOf (l.map (fun k => k.data.length + (if k.digest.isSome then 32 else 0)))

/-- Pool memory of the first region, in a given order, that has room. -/
def allocFirst (s : State) (bytes : Nat) (regions : List Nat) : Option (Nat × State) :=
  regions.findSome? (fun r => poolAlloc s r bytes)

/-- The slot that MODEL_LOAD takes when it may take any. -/
def anySlot (s : State) (h : Bytes) : Option Nat :=
  let hint := fieldAt h 0x48 2
  if hint < 1024 ∧ (getSlot s hint).phase = .empty then some hint
  else firstThat (fun n => (getSlot s n).phase == .empty) (List.range 1024)

/-- Store a draft whose checks have passed. -/
def storeDraft (s : State) (p slot : Nat) (d : Draft) (signed : Bool) : State :=
  let kept := keptSections d signed
  let bytes := ceilDiv (keptBytes d kept) 2048 * 2048
  match allocFirst s bytes (List.range 16) with
  | none => fail s p (if s.boot.licence.isNone then stNotLicensed else stNoSpace)
  | some (a, s1) =>
    finish (modSlot s1 slot (fun _ => {
      phase := .loaded, header := d.hdr, table := d.tbl, kept := kept, keptAt := (a, bytes) })) p stOk (toBytes 4 slot)

/-- MODEL_LOAD. -/
def modelLoad (p : Nat) (host : HostData) (finds : Findings) (s : State) : State :=
  runCmd s p 0x0101 (fun k =>
    let n := k.context
    let u := bufA k
    let must := bitOf (argAt k 0x20 1) 0
    if 1024 ≤ n ∧ n ≠ 0xFFFFFFFF then fail s p stBadPacket
    else if (if n < 1024 then (getSlot s n).phase != .empty else (anySlot s []).isNone) then fail s p stBusy
    else if bufStatus s p false u ≠ stOk then fail s p (bufStatus s p false u)
    else if bufWaits s u then s
    else match draftSrc s host u with
      | none => s
      | some src =>
        let r := loadDraft s finds src u.len must
        match r.2.2 with
        | some f => fail r.1 p f.status (failDetail f)
        | none =>
          match if n < 1024 then some n else anySlot r.1 r.2.1.hdr with
          | none => fail r.1 p stBusy
          | some slot => storeDraft r.1 p slot r.2.1 (hSigned r.2.1.hdr || must))

/-! ### MODEL_PLACE: the draft again (R342) -/

/-- Check the WEIGHTS and CONSTANTS sections against the kept table and digests. Answers the sections by index. -/
def rereadSections (finds : Findings) (src : DraftSrc) (sl : ModelSlot) : State → List Nat → List (Nat × Bytes) →
    State × List (Nat × Bytes) × Nat
  | s, [], acc => (s, acc, stOk)
  | s, i :: rest, acc =>
    let r := draftRead s finds src (eOffset sl.table i) (eLength sl.table i)
    let digest := (firstThat (fun k => k.index == i) sl.kept).bind (·.digest)
    if r.2.2 ≠ stOk then (r.1, acc, stPoison)
    else if crc32c r.2.1 ≠ eCrc sl.table i then (r.1, acc, stCheckFail)
    else if digest.isSome ∧ digest ≠ some (Config.sha256 r.2.1) then (r.1, acc, stBadSignature)
    else rereadSections finds src sl r.1 rest (acc ++ [(i, r.2.1)])

/-- Read the draft again for MODEL_PLACE. -/
def rereadDraft (s : State) (finds : Findings) (src : DraftSrc) (len : Nat) (sl : ModelSlot) :
    State × List (Nat × Bytes) × Nat :=
  let n := 256 + sl.table.length
  if len < hTotal sl.header then (s, [], stBadPacket)
  else
    let r := draftRead s finds src 0 n
    if r.2.2 ≠ stOk then (r.1, [], stPoison)
    else if r.2.1 ≠ sl.header ++ sl.table then (r.1, [], stBadPacket)
    else rereadSections finds src sl r.1 (ofType sl.header sl.table 5 ++ ofType sl.header sl.table 9) []

/-! ### MODEL_PLACE: where the draft goes (R168) -/

/-- The tile map of a slot. -/
def slotTiles (sl : ModelSlot) : List TileEntry := tileEntries (sectionData sl 1)

/-- Layer and bank of a tile. -/
def tileLayer (t : TileEntry) : Nat := t.place % 8
def tileBank (t : TileEntry) : Nat := t.place / 16

/-- A core that cannot run or hold a part of a model: absent, fenced, or of a region out of service. -/
def coreOut (s : State) (core : Nat) : Bool :=
  (getCore s core).absent || (getCore s core).fenced || regionUnavailable s (regionOfCore core)

/-- The first core or block that R342 refuses with ST_DEGRADED. -/
def placeDegraded (s : State) (sl : ModelSlot) (explicit : Bool) : Option Nat :=
  let block := if explicit then
      firstThat (fun b => (rangeFrom (b * 64) 64).all (fun c => (getCore s c).fenced || (getCore s c).absent)) sl.weave
    else none
  block.orElse (fun _ =>
    ((slotTiles sl).findSome? (fun t =>
      if t.kind = 3 then none
      else
        let c := deviceCore sl t.core
        if coreOut s c || bankMappedOut s (chanOf c (tileLayer t) * 16 + tileBank t) then some c else none)).orElse (fun _ =>
    (List.range (64 * sl.weave.length)).findSome? (fun w =>
      if roleOfWeaveCore sl w ≠ 0xFF ∧ coreOut s (deviceCore sl w) = true then some (deviceCore sl w) else none)))

/-- Whether the rows of a model are free in a bank (R168): no placed range and no frame in use covers them. -/
def rowsFree (s : State) (core layer bank row n : Nat) : Bool :=
  !layerAvoided s (dieOfCore core) layer && !rowsPlaced s core row n
    && (rangeFrom (row / 16) ((row + n - 1) / 16 + 1 - row / 16)).all (fun k => !(frameOf s (nearFn core layer bank k)).allocated)

/-- The lowest row base that leaves every bank of the tile map free. -/
def chooseRowBase (s : State) (sl : ModelSlot) : Option Nat :=
  let n := hNearRows sl.header
  let banks := (((slotTiles sl).filter (fun t => t.kind != 3)).map (fun t => (deviceCore sl t.core, tileLayer t, tileBank t))).eraseDups
  if n = 0 then some 0
  else firstThat (fun rb => banks.all (fun b => rowsFree s b.1 b.2.1 b.2.2 rb n)) (List.range (513 - n))

/-- The bytes of a model's far allocation: FAR_BYTES and the program area (R168, R169). -/
def farNeed (sl : ModelSlot) : Nat := programOffset sl (hRoles sl.header)

/-- The windows that MODEL_PLACE tries, in order. -/
def windowOrder (s : State) (sl : ModelSlot) : List Nat :=
  let weave := (sl.weave.map (· / 8)).eraseDups
  let first := leadRegion sl
  let others := (List.range 16).filter (fun r => weave.contains r && r != first)
  [first] ++ others ++ (List.range 16).filter (fun r => !weave.contains r && regionOn s r)

/-- Base and end of Warp Beam partition 3 (Table 03-2). -/
def stagingLo : Nat := 0xE01C000000
def stagingHi : Nat := 0xE01EC00000

/-- A staging area; (0, 0) for a draft that needs none. -/
def allocStaging (s : State) (bytes : Nat) : Option ((Nat × Nat) × State) :=
  if bytes = 0 then some ((0, 0), s)
  else (firstFit 65536 bytes stagingLo stagingHi s.staging).map (fun a =>
    ((a, bytes), { s with staging := allocInsert s.staging a bytes }))

/-! ### Relocation (R533) -/

/-- Add to a field of a descriptor; none where the sum does not fit. -/
def addField (d : BitVec 512) (pos width v : Nat) : Option (BitVec 512) :=
  let old := bitsOf d.toNat (pos + width - 1) pos
  if old + v < 2 ^ width then some (BitVec.ofNat 512 (d.toNat + v * 2 ^ pos)) else none

/-- Apply one relocation entry: its addend by KIND, and a knot sum at or above 8,192. -/
def applyReloc (sl : ModelSlot) (knotBase v : Nat) (prog : List (BitVec 512)) : Option (List (BitVec 512)) :=
  let i := v % 512
  let d := prog.getD i 0
  let kind := bitsOf v 15 12
  let addend := if kind = 0 then sl.rowBase * 1024 else if kind = 1 then sl.far.1 else if kind = 2 then sl.staging.1 else knotBase
  match relocField d (bitsOf v 11 9) with
  | none => some prog
  | some (pos, width) =>
    if kind = 3 ∧ bitsOf d.toNat (pos + width - 1) pos + addend < 8192 then none
    else (addField d pos width addend).map (fun x => prog.set i x)

/-- The relocation entries of a role. -/
def relocsOf (sl : ModelSlot) (role : Nat) : List Nat :=
  match firstThat (fun k => k.type == 4 && fieldAt k.data 0 2 == role) sl.kept with
  | some k => (List.range (fieldAt k.data 4 4)).map (fun i => fieldAt k.data (16 + 4 * i) 4)
  | none => []

/-- A role's program with its relocations of some kinds applied. -/
def relocate (sl : ModelSlot) (knotBase role : Nat) (kinds : Nat → Bool) : Option (List (BitVec 512)) :=
  ((relocsOf sl role).filter (fun v => kinds (bitsOf v 15 12))).foldl
    (fun acc v => acc.bind (applyReloc sl knotBase v)) (some (programOf (programSection sl role)))

/-- Every program relocated, in role order. -/
def relocateAll (sl : ModelSlot) (knotBase : Nat) (kinds : Nat → Bool) : Option (List (List (BitVec 512))) :=
  (List.range (hRoles sl.header)).foldr (fun r acc => acc.bind (fun l => (relocate sl knotBase r kinds).map (· :: l))) (some [])

/-! ### MODEL_PLACE: copying (R169) -/

/-- The device address of a tile. -/
def tileAddr (sl : ModelSlot) (t : TileEntry) : Nat :=
  if t.kind = 3 then sl.far.1 + t.far
  else deviceCore sl t.core * 0x4000000 + tileLayer t * 0x800000 + tileBank t * 0x80000 + (sl.rowBase + t.row) * 1024

/-- A tile as it is placed. -/
def placedTile (sl : ModelSlot) (t : TileEntry) : PlacedTile :=
  if t.kind = 3 then { kind := 3, fmt := t.fmt, farOffset := t.far, length := t.length }
  else { kind := t.kind, fmt := t.fmt, core := deviceCore sl t.core, layer := tileLayer t, bank := tileBank t
         row := sl.rowBase + t.row, rows := tileRows t, length := t.length }

/-- Copy a tile to its place: from a draft in device memory at `base` its blocks keep their tags, from the host they take new
ones with RESTARTED 0 (R69). -/
def copyTile (finds : Findings) (sl : ModelSlot) (base : Option Nat) (secs : List (Nat × Bytes)) (t : State) (e : TileEntry) :
    State :=
  match base with
  | none =>
    let b := ((firstThat (fun x => x.1 == e.sec) secs).map (·.2)).getD []
    (writeRange t finds (tileAddr sl e) ((b.drop e.src).take e.length) false false).1
  | some a =>
    let src := a + eOffset sl.table e.sec + e.src
    let r := readBlocks t [] (blocksOf src e.length)
    (copyBytes r.1 finds r.2 ((List.range e.length).map (fun i => (tileAddr sl e + i, src + i, byteFrom r.2 (src + i))))).1

/-- Copy every tile to its place. -/
def copyTiles (s : State) (finds : Findings) (sl : ModelSlot) (base : Option Nat) (secs : List (Nat × Bytes)) : State :=
  (slotTiles sl).foldl (copyTile finds sl base secs) s

/-- Write the relocated programs to the program area. -/
def writePrograms (s : State) (finds : Findings) (sl : ModelSlot) : State :=
  (List.zip (List.range sl.programs.length) sl.programs).foldl (fun t e =>
    (writeRange t finds (sl.far.1 + programOffset sl e.1) (e.2.flatMap (fun d => toBytes 64 d.toNat)) true false).1) s

/-- The 128-bit map of a weave's blocks. -/
def blockMap (weave : List Nat) : Nat := sumOf ((List.range 128).map (fun b => if weave.contains b then 2 ^ b else 0))

/-- Place a draft whose weave passed R342's refusals: row base, far allocation and staging area, relocations, tiles,
programs. The slot becomes PLACED with a new epoch origin. -/
def placeAt (s : State) (finds : Findings) (p slot knotBase : Nat) (sl : ModelSlot) (base : Option Nat)
    (secs : List (Nat × Bytes)) : State :=
  match chooseRowBase s sl with
  | none => fail s p stNoSpace
  | some rb => match allocFirst s (farNeed sl) (windowOrder s sl) with
    | none => fail s p stNoSpace
    | some (far, s1) => match allocStaging s1 (hStaging sl.header) with
      | none => fail s p stNoSpace
      | some (st, s2) =>
        let sl1 : ModelSlot := { sl with
          rowBase := rb, far := (far, ceilDiv (farNeed sl) 2048 * 2048), staging := st, knotBase := knotBase }
        match relocateAll sl1 knotBase (fun _ => true) with
        | none => fail s p stBadPacket
        | some progs =>
          let sl2 : ModelSlot := { sl1 with
            phase := .placed, programs := progs, tiles := (slotTiles sl1).map (placedTile sl1)
            epoch := 0, origins := 0, knotsToClear := false }
          if (slotTiles sl1).any (fun t => accessWaits s2 (tileAddr sl1 t) t.length) then s
          else finish (modSlot (writePrograms (copyTiles s2 finds sl1 base secs) finds sl2) slot (fun _ => sl2)) p stOk
            (toBytes 16 (blockMap sl.weave))

/-- The blocks that REGION_MASK, the enabled regions and a running re-weave leave to choose from. -/
def eligibleBlocks (s : State) (sl : ModelSlot) (mask : Nat) : List Nat :=
  (List.range 128).filter (fun b => regionOn s (b / 8) && licensedRegion s (b / 8) && (mask == 0 || bitOf mask (b / 8))
    && !(slotTiles sl).any (fun t => t.kind != 3 && layerAvoided s (b / 32) (tileLayer t)))

/-- Whether blocks are what the region controllers may choose: distinct blocks of those. -/
def choiceOk (s : State) (sl : ModelSlot) (mask n : Nat) (blocks : List Nat) : Bool :=
  blocks.length == n && blocks.eraseDups.length == n && blocks.all (fun b => (eligibleBlocks s sl mask).contains b)

/-- The weave that a MODEL_PLACE names or that its region controllers choose: a status where there is none, nothing where
the choice is not one they may make. -/
def weaveOf (s : State) (sl : ModelSlot) (k : Packet) (n : Nat) (blocks : List Nat) : Option (Nat × List Nat) :=
  let mask := argAt k 0x24 2
  if bitOf (argAt k 0x20 4) 16 then
    let l := (List.range n).map (fun i => fieldAt k.params (2 * i) 2)
    if k.params.length < 2 * n ∨ allZero (k.params.drop (2 * n)) = false ∨ l.any (fun b => decide (128 ≤ b)) ∨ l.eraseDups.length ≠ n then some (stBadPacket, [])
    else if l.any (fun b => !licensedRegion s (b / 8)) then some (stNotLicensed, l)
    else some (stOk, l)
  else if ¬ k.params.isEmpty then some (stBadPacket, [])
  else if s.boot.licence.isNone then some (stNotLicensed, [])
  else if (eligibleBlocks s sl mask).length < n then some (stNoSpace, [])
  else if choiceOk s sl mask n blocks then some (stOk, blocks)
  else none

/-- Whether a core of a weave is in reset (R339). -/
def weaveInReset (s : State) (weave : List Nat) : Bool :=
  weave.any (fun b => (getRegion s (b / 8)).inReset || (rangeFrom (b * 64) 64).any (fun c => (getCore s c).inReset))

/-- MODEL_PLACE. -/
def modelPlace (p : Nat) (host : HostData) (finds : Findings) (blocks : List Nat) (s : State) : State :=
  runCmd s p 0x0102 (fun k =>
    let n := k.context
    let sl := getSlot s n
    let u := bufA k
    if 1024 ≤ n then fail s p stBadPacket
    else if sl.phase ≠ .loaded then fail s p stState
    else match weaveOf s sl k (hWeaveBlocks sl.header) blocks with
      | none => s
      | some (st, weave) =>
        if st ≠ stOk then fail s p st
        else if weaveInReset s weave then fail s p stInReset
        else if bufStatus s p false u ≠ stOk then fail s p (bufStatus s p false u)
        else if bufWaits s u then s
        else match draftSrc s host u with
          | none => s
          | some src =>
            let r := rereadDraft s finds src u.len sl
            let sl1 : ModelSlot := { sl with weave := weave }
            let base := argAt k 0x20 2
            if r.2.2 ≠ stOk then fail r.1 p r.2.2
            else match placeDegraded r.1 sl1 (bitOf (argAt k 0x20 4) 16) with
              | some unit => fail r.1 p stDegraded unit
              | none =>
                if (capOf sl1 3 ∧ hFarBytes sl1.header < 0x11000) ∨ (relocateAll sl1 base (· == 3)).isNone = true then
                  fail r.1 p stBadPacket
                else placeAt r.1 finds p n base sl1 (if u.host then none else some u.addr) r.2.1)

/-! ### MODEL_EVICT (R334, R343) -/

/-- Open sequences of a slot. -/
def openSeqs (s : State) (slot : Nat) : List Nat :=
  (s.seqs.filter (fun e => e.2.phase != .free && e.2.modelSlot == slot)).map (·.1)

/-- Free a slot: tiles, rows and weight ranges with its entry, its allocations, and the programs that cores hold. -/
def freeSlot (s : State) (slot : Nat) : State :=
  let sl := getSlot s slot
  let s1 := if sl.far.2 = 0 then s else poolFree s sl.far.1
  let s2 := if sl.keptAt.2 = 0 then s1 else poolFree s1 sl.keptAt.1
  let s3 : State := if sl.staging.2 = 0 then s2 else { s2 with staging := allocErase s2.staging sl.staging.1 }
  let s4 := (weaveCores sl).foldl (fun t c => modCore t c (fun x => { x with
    queue := x.queue.filter (fun h => h.slot != slot)
    program := x.program.filter (fun h => h.slot != slot) })) s3
  let s5 := if sl.phase = .reload then undegrade s4 23 (some (listEntry 0x0D slot)) else s4
  modSlot s5 slot (fun _ => {})

/-- MODEL_EVICT: it waits for the running step-batches of its slot. -/
def modelEvict (p : Nat) (s : State) : State :=
  runCmd s p 0x0103 (fun k =>
    let n := k.context
    if 1024 ≤ n then fail s p stBadPacket
    else if (getSlot s n).phase = .empty then fail s p stState
    else if s.batches.any (fun b => b.slot == n && b.running) then modSlot s n (fun x => { x with evicting := true })
    else if bitOf (argAt k 0x10 1) 0 = false ∧ openSeqs s n ≠ [] then
      fail (modSlot s n (fun x => { x with evicting := false })) p stBusy
    else
      let s1 := dropBuilt s n
      let s2 := (openSeqs s1 n).foldl (fun t q => completeClose (endPending t q stAborted) q) s1
      finish (freeSlot s2 n) p stOk [])

/-! ### MODEL_QUERY -/

/-- STATE of a model slot (Table 12-5). -/
def slotPhaseCode : SlotPhase → Nat
  | .empty => 0
  | .loaded => 1
  | .placed => 2
  | .reload => 3
  | .busy => 4

/-- MODEL_QUERY. -/
def modelQuery (p : Nat) (s : State) : State :=
  runCmd s p 0x0104 (fun k =>
    let n := k.context
    let sl := getSlot s n
    if 1024 ≤ n then fail s p stBadPacket
    else finish s p stOk (toBytes 8 (fieldAt sl.header 0x40 8) ++ toBytes 2 (hWeaveBlocks sl.header) ++ toBytes 2 sl.rowBase
      ++ toBytes 2 (openSeqs s n).length ++ toBytes 1 (if sl.evicting then 4 else slotPhaseCode sl.phase) ++ toBytes 1 sl.origins))

/-! ### The rows of the table -/

/-- MODEL_LOAD. -/
def execModelLoad (p : Nat) (host : HostData) (finds : Findings) (s : State) : Host.Outcome State Fault Refusal :=
  .next (modelLoad p host finds s)

/-- MODEL_PLACE. -/
def execModelPlace (p : Nat) (host : HostData) (finds : Findings) (blocks : List Nat) (s : State) :
    Host.Outcome State Fault Refusal := .next (modelPlace p host finds blocks s)

/-- MODEL_EVICT. -/
def execModelEvict (p : Nat) (s : State) : Host.Outcome State Fault Refusal := .next (modelEvict p s)

/-- MODEL_QUERY. -/
def execModelQuery (p : Nat) (s : State) : Host.Outcome State Fault Refusal := .next (modelQuery p s)

end Sys2Proof.Machine
end

