-- ==== Sys2Proof/Machine/TrafficGen.lean ====
section
/-!
DEFINITION. The traffic generators of near channels (spec/07_near_memory.md R208, Tables 07-7 to 07-11) and of home
pseudo-channels (spec/09_far_memory.md R261, Tables 09-5 to 09-7).
-/
namespace Sys2Proof.Machine

/-! ### Where a run may start -/

/-- Whether a near frame in use lies in a bank mask and row range of a channel. -/
def frameInRange (s : State) (ch mask first last : Nat) : Bool :=
  s.frames.any (fun e =>
    let fn := indexFn (e.1 / 4194304) (e.1 % 4194304)
    let rows := fn % 32 * 16
    e.2.allocated && !bitOf fn 25 && decide (fn / 512 = ch) && bitOf mask (fn / 32 % 16)
      && decide (rows ≤ last) && decide (first < rows + 16))

/-- Whether a write-mode run may start on a near channel (R208). -/
def tgAllowed (s : State) (ch : Nat) (t : TrafficGen) : Bool :=
  (getChan s ch).run.isNone
    && !(t.bankMask != 0 && rowsPlaced s (ch / 8) t.first (t.last + 1 - t.first))
    && !frameInRange s ch t.bankMask.toNat t.first t.last

/-- Whether a write-mode run may start on a pseudo-channel (R261): it is mapped out, or its window's pool holds
nothing. -/
def farTgAllowed (s : State) (pc : Nat) : Bool :=
  (getPc s pc).out || (getPc s pc).hole || (getRegion s (regionOfPc pc)).pool.isEmpty

/-- A generator after a start: a write-mode run of a reserved mode, or one that may not start, sets REFUSED; a run keeps the
fields that its START found (log 92). -/
def tgBegin (t : TrafficGen) (allowed : Bool) : TrafficGen :=
  if !t.readOnly && (decide (6 ≤ t.mode.toNat) || !allowed) then { t with refused := true, packet := none }
  else { t with
    running := true, stopping := false
    cur := { mode := t.mode.toNat, readOnly := t.readOnly, bankMask := t.bankMask.toNat, first := t.first, last := t.last
             param := t.param } }

/-- The fields of a write of CH_TG_CTRL or FAR_TG_CTRL; BANK_MASK is a field of the former alone. -/
def tgFields (t : TrafficGen) (v : Nat) : TrafficGen :=
  { t with mode := BitVec.ofNat 3 (v / 4), readOnly := bitOf v 5, bankMask := BitVec.ofNat 16 (v / 256) }

/-- Start a run on a near channel with the fields given; a run that lasts goes on. -/
def startTg (s : State) (ch : Nat) (t : TrafficGen) : State :=
  if (getChan s ch).tg.running then s
  else modChan s ch (fun c => { c with tg := tgBegin t (tgAllowed s ch t) })

/-- Start a run on a pseudo-channel. -/
def startFarTg (s : State) (pc : Nat) (t : TrafficGen) : State :=
  if (getPc s pc).tg.running then s
  else modPc s pc (fun p => { p with tg := tgBegin t (farTgAllowed s pc) })

/-! ### The end of a run -/

/-- Zero the blocks that satisfy a test, with fresh tags, RESTARTED 1. -/
def zeroWhere (m : Memory) (p : Nat → Bool) : Memory :=
  { cells := m.cells.filter (fun c => !p (c.1 / 256)), tags := m.tags.filter (fun t => !p t.1) }

/-- Whether a block lies in a near range. -/
def nearRange (ch mask first last blk : Nat) : Bool :=
  match placeOf (blk * 256) with
  | .near core layer bank row =>
    chanOf core layer == ch && bitOf mask bank && decide (first ≤ row) && decide (row ≤ last)
  | _ => false

/-- Whether a block lies on a pseudo-channel in a range of 64 KiB units of local address. -/
def farRange (s : State) (pc first last blk : Nat) : Bool :=
  match placeOf (blk * 256) with
  | .far region offset =>
    region == regionOfPc pc && pcOf s region offset == pc && !(getPc s pc).out
      && decide (first ≤ localOf s region offset / 65536) && decide (localOf s region offset / 65536 ≤ last)
  | _ => false

/-- A generator at the end of its run: DONE, FAIL and ERRORS, and the first failure. -/
def tgEnd (t : TrafficGen) (r : TgResult) : TrafficGen :=
  { t with
    running := false, stopping := false, done := true, fail := t.fail || decide (0 < r.errors)
    errors := BitVec.ofNat 16 (Nat.min (t.errors.toNat + r.errors) 0xFFFF)
    failAddr := if r.errors = 0 then t.failAddr else BitVec.ofNat 32 r.firstAddr
    failInfo := if r.errors = 0 then t.failInfo else BitVec.ofNat 32 r.firstInfo
    packet := none }

/-- TRAFFIC_GEN replies at the end of its run (R366). -/
def tgReply (s : State) (t : TrafficGen) (r : TgResult) : State :=
  match t.packet with
  | none => s
  | some p => finish s p stOk (toBytes 4 (b2n (decide (0 < r.errors)) + Nat.min r.errors 0xFFFF * 65536)
      ++ toBytes 4 (if r.errors = 0 then 0 else r.firstAddr) ++ toBytes 4 (if r.errors = 0 then 0 else r.firstInfo))

/-- A near run ends: a write-mode range is zeroed, each failing bank of it is mapped out, and what waited is served (R208,
R210). -/
def endTg (s : State) (ch : Nat) (r : TgResult) : State :=
  let t := (getChan s ch).tg
  if !t.running then s
  else
    let s1 := modChan s ch (fun c => { c with tg := tgEnd t r })
    if t.cur.readOnly then tgReply s1 t r
    else
      let s2 : State := { s1 with mem := zeroWhere s1.mem (nearRange ch t.cur.bankMask t.cur.first t.cur.last) }
      let s3 := (r.banks.filter (fun b => bitOf t.cur.bankMask b)).foldl (fun u b => mapOutBank u ch b 2) s2
      drainQueue (tgReply s3 t r) (.near ch)

/-- A far run ends: a write-mode range is zeroed, a failing pseudo-channel is mapped out, and what waited is served (R254,
R261). -/
def endFarTg (s : State) (pc : Nat) (r : TgResult) : State :=
  let t := (getPc s pc).tg
  if !t.running then s
  else
    let s1 := modPc s pc (fun p => { p with tg := tgEnd t r })
    if t.cur.readOnly then tgReply s1 t r
    else
      let s2 : State := { s1 with mem := zeroWhere s1.mem (farRange s pc t.cur.first t.cur.last) }
      drainQueue (tgReply (if r.errors = 0 then s2 else mapOutPc s2 pc 2) t r) (.far pc)

/-! ### READ_ONLY runs (R208, R261) -/

/-- The check blocks of a near range, by bank and row. -/
def nearBlocks (ch mask first last : Nat) : List Nat :=
  ((List.range 16).filter (bitOf mask)).flatMap (fun b =>
    rangeFrom ((ch * 16 + b) * 2048 + first * 4) ((last + 1 - first) * 4))

/-- The check blocks of a pseudo-channel in a range of 64 KiB units of local address; none for one that is mapped out at no
position. -/
def farBlocks (s : State) (pc first last : Nat) : List Nat :=
  let region := regionOfPc pc
  match ordinalOf (homePcs s region) pc with
  | none => []
  | some position => (rangeFrom (first * 256) ((last + 1 - first) * 256)).map (fun b => farAddr s region position (b * 256) / 256)

/-- A failure as a generator reports it: its address and what CH_TG_FAIL_SYN or FAR_TG_FAIL_INFO says of it. -/
structure TgFailure where
  addr : Nat
  info : Nat
deriving DecidableEq, Repr, Inhabited

/-- The failures that a READ_ONLY run counts in a block: each word that the ECC finds wrong, and a failed check (log 104). -/
def blockFailures (near : Bool) (addr : Nat) (finds : List Finding) (failed : Bool) : List TgFailure :=
  finds.filterMap (fun f =>
    match f with
    | .corrected _ bit syndrome _ => some { addr := addr, info := if near then syndrome % 65536 + bit % 512 * 65536 else 0 }
    | .uncorrectable _ syndrome => some { addr := addr, info := if near then syndrome % 65536 + 0x1FF * 65536 else 8 }
    | .metaUncorrectable syndrome => some { addr := addr, info := if near then syndrome % 65536 + 0x1FF * 65536 else 8 }
    | _ => none) ++ (if failed then [{ addr := addr, info := if near then 0x1FF * 65536 else 0 }] else [])

/-- Read every block of a range under its checks; answers the failures in order. -/
def readOnlyRun (near : Bool) (addrOf : Nat → Nat) (s : State) (finds : Findings) (blks : List Nat) : State × List TgFailure :=
  blks.foldl (fun t b =>
    let r := readBlock t.1 finds b
    (r.1, t.2 ++ blockFailures near (addrOf b) (findingsOf finds b) r.2.failed)) (s, [])

/-- What a list of failures gives the generator's registers. -/
def resultOf (l : List TgFailure) : TgResult :=
  { errors := l.length, firstAddr := (l.headD default).addr, firstInfo := (l.headD default).info, banks := [] }

/-- TG_RUN_END: a READ_ONLY run reads its range, and waits while the channel serves no access. -/
def tgRunEnd (ch : Nat) (result : TgResult) (finds : Findings) (s : State) : State :=
  let t := (getChan s ch).tg
  if !t.running then s
  else if t.cur.readOnly then
    if nearHeld s ch || (layerOf s ch).inReset then s
    else
      let blks := (nearBlocks ch t.cur.bankMask t.cur.first t.cur.last).filter (fun b => !bankMappedOut s (b / 2048))
      let r := readOnlyRun true (fun b => b * 256 % 2 ^ 23) s finds blks
      endTg r.1 ch (resultOf r.2)
  else endTg s ch result

/-- FAR_TG_RUN_END. -/
def farTgRunEnd (pc : Nat) (result : TgResult) (finds : Findings) (s : State) : State :=
  let t := (getPc s pc).tg
  if !t.running then s
  else if t.cur.readOnly then
    if pcHeld s pc then s
    else
      let region := regionOfPc pc
      let loc := fun (b : Nat) => localOf s region (b * 256 - windowBase region)
      let r := readOnlyRun false loc s finds (farBlocks s pc t.cur.first t.cur.last)
      endFarTg r.1 pc (resultOf r.2)
  else endFarTg s pc result

/-! ### The rows of the table -/

/-- TG_START: a write of CH_TG_CTRL with START 1. -/
def execTgStart (ch : Nat) (value : Word) (s : State) : Host.Outcome State Fault Refusal :=
  .next (startTg s ch (tgFields (getChan s ch).tg value.toNat))

/-- TG_STOP: the run ends at the next block. -/
def execTgStop (ch : Nat) (s : State) : Host.Outcome State Fault Refusal :=
  .next (modChan s ch (fun c => { c with tg := { c.tg with stopping := c.tg.running } }))

/-- TG_RUN_END. -/
def execTgRunEnd (ch : Nat) (result : TgResult) (s : State) (finds : Findings := []) : Host.Outcome State Fault Refusal :=
  .next (tgRunEnd ch result finds s)

/-- FAR_TG_START. -/
def execFarTgStart (pc : Nat) (value : Word) (s : State) : Host.Outcome State Fault Refusal :=
  .next (startFarTg s pc { tgFields (getPc s pc).tg value.toNat with bankMask := 0 })

/-- FAR_TG_STOP. -/
def execFarTgStop (pc : Nat) (s : State) : Host.Outcome State Fault Refusal :=
  .next (modPc s pc (fun p => { p with tg := { p.tg with stopping := p.tg.running } }))

/-- FAR_TG_RUN_END. -/
def execFarTgRunEnd (pc : Nat) (result : TgResult) (s : State) (finds : Findings := []) : Host.Outcome State Fault Refusal :=
  .next (farTgRunEnd pc result finds s)

end Sys2Proof.Machine
end

