-- ==== Sys2Proof/Machine/Cut.lean ====
section
/-!
DEFINITION. Commands that end before their completion point (spec/12_command_reference.md R328, R332, R336 to R339, Table
12-1; spec/03_warp_beam_and_knots.md R99, R104; spec/11_host_interface.md R324): ABORT, a failed host read, and what an
orderly stop or a reset does to a command in flight.
-/
namespace Sys2Proof.Machine

/-- The buffer that a command writes, where it writes one. -/
def outBuf (k : Packet) : Option Buf :=
  let op := k.opcode
  if op = 0x0401 ∨ op = 0x0402 ∨ op = 0x0403 ∨ op = 0x0404 ∨ op = 0x0801 ∨ op = 0x0A03 then some (bufB k)
  else if op = 0x0304 then some (bufA k)
  else if op = 0x0904 then some (bufAt k.params 0)
  else none

/-- The buffer that a command reads, where it reads one. -/
def inBuf (k : Packet) : Option Buf :=
  let op := k.opcode
  if op = 0x0402 ∧ ¬ k.params.isEmpty then none
  else if op = 0x0101 ∨ op = 0x0102 ∨ op = 0x0202 ∨ op = 0x0401 ∨ op = 0x0402 ∨ op = 0x0404 ∨ op = 0x0901 ∨ op = 0x0902 ∨ op = 0x0905
  then some (bufA k)
  else if op = 0x0701 then some (bufB k)
  else none

/-- The output of a stopped command is undefined: the state, the UNDEFINED bits and PROGRESS within the output's length. -/
def undefineOutput (s : State) (k : Packet) : State × Nat × Nat :=
  match outBuf k with
  | none => (s, 0, 0)
  | some u =>
    let done := (Config.freeBits 64 s.free).toNat % (u.len + 1)
    if u.host then (drawFree s, 2, done)
    else if accessStatus s (.command k.id) true u.addr u.len = stOk then (scramble (drawFree s) u.addr u.len, 1, done)
    else (s, 0, 0)

/-- The generator run of a TRAFFIC_GEN ends early; a write-mode range is left zeroed (R208). -/
def stopTraffic (s : State) (k : Packet) : State :=
  let unit := argAt k 0x14 4
  let quiet : TgResult := { errors := 0, firstAddr := 0, firstInfo := 0, banks := [] }
  if bitOf (argAt k 0x10 4) 0 then
    if (getPc s unit).tg.packet = some k.id then
      endFarTg (modPc s unit (fun x => { x with tg := { x.tg with packet := none } })) unit quiet
    else s
  else if (getChan s unit).tg.packet = some k.id then
    endTg (modChan s unit (fun x => { x with tg := { x.tg with packet := none } })) unit quiet
  else s

/-- Whether a packet's command is a pending step or prefill. -/
def isPending (s : State) (k : Packet) : Bool :=
  (k.opcode == 0x0202 || k.opcode == 0x0203) && (getSeq s k.context).pending.any (fun c => c.packet == k.id)

/-- Stop a command before its completion point: what it holds or waits for is given up, and it returns a status with its
outputs marked undefined. -/
def stopCmd (s : State) (k : Packet) (status : Nat) : State :=
  let op := k.opcode
  if isPending s k then endPending s k.context status
  else if op = 0x0602 ∧ (getColl s k.context).run.any (fun r => r.packet == k.id) = true then collAbort s k.context status
  else
    let s1 : State :=
      if op = 0x0103 then modSlot s k.context (fun x => { x with evicting := false })
      else if op = 0x0205 then modSeq s k.context (fun x => { x with parkAfter := false })
      else if op / 256 = 5 then dropWaits s (· == .command k.id)
      else if op = 0x0701 then { s with chk := s.chk.map (fun e =>
          if e.2.command = some k.id then (e.1, { e.2 with owner := 0, command := none }) else e) }
      else if op = 0x0B01 then stopTraffic s k
      else if op = 0x0B02 then modLink s (argAt k 0x10 4) (fun x => { x with test := x.test && !k.started })
      else if op = 0x0803 then { s with power := { s.power with capPending := s.power.capPending.filter (· != k.id) } }
      else if op = 0x0805 then { s with thermal := { s.thermal with waiting := s.thermal.waiting.filter (· != k.id) } }
      else s
    let r := undefineOutput s1 k
    fail r.1 k.id status 0 r.2.1 r.2.2

/-- Whether a command has not reached its completion point on this device (Table 12-3, R338): RESET, ABORT and FW_ACTIVATE
reach it at fetch, a SEQ_CLOSE that waits for its batch at the write of CLOSING. -/
def stoppable (k : Packet) : Bool :=
  k.answer.isNone && !k.away && k.opcode != 0x0A01 && k.opcode != 0x0A02 && k.opcode != 0x0903
    && !(k.opcode == 0x0207 && k.started)

/-- Stop every command in flight that satisfies a test and has not reached its completion point. -/
def stopAll (s : State) (status : Nat) (p : Packet → Bool) : State :=
  s.packets.foldl (fun t k =>
    match getPacket t k.id with
    | some j => if stoppable j && p j then stopCmd t j status else t
    | none => t) s

/-! ### ABORT (R336 to R338) -/

/-- Whether a packet is of the source that an ABORT names. -/
def abortSource (k target : Packet) : Bool :=
  let w := argAt k 0x14 4
  if bitOf w 6 then (match k.src, target.src with
    | .manager d _ _, .manager e _ _ => d == e
    | _, _ => false)
  else target.src == .ring (w % 64)

/-- ABORT: its reply follows its target's. -/
def abort (p : Nat) (s : State) : State :=
  runCmd s p 0x0A02 (fun k =>
    match firstThat (fun t => abortSource k t && t.tag == argAt k 0x10 4 && t.id != p) s.packets with
    | none => finish s p stAlreadyDone []
    | some t =>
      let s1 := modPacket s p (fun x => { x with follows := some t.id })
      if stoppable t then finish (stopCmd s1 t stAborted) p stOk (toBytes 4 3)
      else finish s1 p stAlreadyDone (toBytes 4 1))

/-! ### A host read that fails (R324) -/

/-- AER reports an error of a transfer: its bits in the Uncorrectable Error Status register are not stated (log 120). -/
def noteAer (s : State) : State :=
  let old := (tget s.pcie.config 0x104).getD 0
  { s with pcie := { s.pcie with config := tset s.pcie.config 0x104 (some (old ||| Config.freeBits 32 s.free)) }, free := s.free + 1 }

/-- PCIE_READ_FAILED: the command that read the host ends, a record names the address, and AER reports it. -/
def readFailed (p addr status : Nat) (s : State) : State :=
  match getPacket s p with
  | none => s
  | some k =>
    if (inBuf k).any (·.host) && stoppable k && (isPending s k || (waitsToStart k && mayStart s k)) then
      stopCmd (noteAer (recordPcie s 0x0504 .contained addr status stHostDma)) k stHostDma
    else s

/-! ### The rows of the table -/

/-- ABORT. -/
def execAbort (p : Nat) (s : State) : Host.Outcome State Fault Refusal := .next (abort p s)

/-- PCIE_READ_FAILED. -/
def execPcieReadFailed (p addr status : Nat) (s : State) : Host.Outcome State Fault Refusal := .next (readFailed p addr status s)

end Sys2Proof.Machine
end

