-- ==== Sys2Proof/Machine/EweumBase.lean ====
section
/-!
DEFINITION. The sending side of Eweum (spec/14_die_to_die.md R406 to R408): flits, the choice of a module, messages; control
messages of H (Table 14-4) and the way of weft transit across the package (spec/01_organisation.md R19).
-/
namespace Sys2Proof.Machine

/-! ### Flits (R406, R407) -/

/-- A whole Eweum flit (Table 14-3). -/
def ewFlit (k : EwModule) (type flags seq : Nat) (nak : Bool) (payload : Bytes) : Bytes :=
  let h := type + flags % 4 * 16 + seq * 64 + (k.expected + 511) % 512 * 2 ^ 15 + b2n k.got * 2 ^ 24 + b2n nak * 2 ^ 25
    + b2n (bitOf flags 2) * 2 ^ 26 + b2n (bitOf flags 3) * 2 ^ 27
  let b := toBytes 4 h ++ padTo 248 payload
  b ++ toBytes 4 (crc32c b)

/-- The next flit that may go: virtual channel 2 first, then in order; nothing overtakes in its channel. -/
def ewNext (k : EwModule) : Option (Nat × Nat × Bytes) :=
  let free := fun (e : Nat × Nat × Bytes) => decide (0 < k.credits.getD (e.2.1 % 4) 0)
  let heads := [2, 0, 1, 3].filterMap (fun v => firstThat (fun (e : Nat × Nat × Bytes) => e.2.1 % 4 == v) k.queued)
  match firstThat (fun e => free e && e.2.1 % 4 == 2) heads with
  | some e => some e
  | none => firstThat (fun (e : Nat × Nat × Bytes) => heads.contains e && free e) k.queued

/-- Send one waiting flit: the next SEQ, a credit, and a place among the 256 of the replay buffer. -/
def ewPumpOne (k : EwModule) : EwModule :=
  if 256 ≤ k.replay.length then k
  else match ewNext k with
    | none => k
    | some e =>
      let vc := e.2.1 % 4
      { k with
        queued := k.queued.erase e, credits := k.credits.set vc (k.credits.getD vc 0 - 1)
        replay := k.replay ++ [(k.nextSeq, e)], nextSeq := (k.nextSeq + 1) % 512
        sent := k.sent ++ [ewFlit k flData e.2.1 k.nextSeq false e.2.2], sinceAck := 0 }

/-- Send what may go; nothing new starts during a quiesce (R418, step 2). -/
def ewPump (quiesced : Bool) (k : EwModule) : EwModule := if quiesced then k else iterate ewPumpOne k.queued.length k

/-! ### Ports and modules -/

/-- Modules of Table 14-1 and the least number that must be in service. -/
def portModules (port : Nat) : Nat := if port < 4 then 16 else 4

/-- Change one end of a module. -/
def modEw (m end_ : Nat) (f : EwModule → EwModule) (p : EwPort) : EwPort :=
  { p with links := tmod p.links (2 * m + end_) f }

/-- The dies at the two ends of a port: 0 to 3 C-dies, 4 H, 5 the partner. -/
def ewDie (port end_ : Nat) : Nat :=
  if port < 4 then (if end_ = 0 then port else 4)
  else if port = 6 then (if end_ = 0 then 5 else 4)
  else 2 * (port - 4) + end_

/-! ### Messages (R408) -/

/-- Kinds of Table 14-5. -/
abbrev ewkRead : Nat := 1
abbrev ewkWrite : Nat := 2
abbrev ewkCompletion : Nat := 3
abbrev ewkKnotOp : Nat := 4
abbrev ewkKnotWake : Nat := 5
abbrev ewkControl : Nat := 6
abbrev ewkTransit : Nat := 7

/-- The 16-byte header of a message. -/
def ewHeader (kind tag addr blocks status : Nat) : Bytes :=
  toBytes 16 (kind + tag % 65536 * 16 + addr % 2 ^ 40 * 2 ^ 20 + blocks % 4096 * 2 ^ 60 + status % 65536 * 2 ^ 72)

/-- The modules of a port in service. -/
def ewModules (p : EwPort) (port : Nat) : List Nat := (List.range (portModules port)).filter (fun m => !bitOf p.modulesOut.toNat m)

/-- The module that a key takes among those in service. -/
def ewChoose (p : EwPort) (port key : Nat) : Option Nat :=
  let ms := ewModules p port
  ms[Config.moduleHash key % ms.length]?

/-- Send a message from an end of a port, whole on one module. -/
def ewSend (s : State) (port end_ vc key : Nat) (b : Bytes) : State :=
  match ewChoose (getPort s port) port key with
  | none => s
  | some m =>
    let n := ceilDiv b.length 248
    let parts : List (Nat × Bytes) := List.zip (List.range n) (chunks (n + 1) 248 b)
    let flits : List (Nat × Nat × Bytes) := parts.map (fun p => (key, vc + 4 * b2n (p.1 == 0) + 8 * b2n (p.1 + 1 == n), p.2))
    modPort s port (fun x => modEw m end_ (fun k => ewPump x.quiesced { k with queued := k.queued ++ flits }) x)

/-! ### Control messages of H (Table 14-4) -/

/-- What a control message says: its kind, the unit and the setting. -/
def controlFields : EwControl → Nat × Nat × Nat
  | .clockStep n => (0, 0, n)
  | .band layer b => (1, layer, b)
  | .throttle st n => (2, st, n)
  | .rung r n => (3, r, n)
  | .clockStop => (4, 0, 0)

/-- H sends a C-die a control message on virtual channel 2; how its body spells the setting is not stated (log 121). -/
def sendControl (s : State) (d : Nat) (c : EwControl) : State :=
  let f := controlFields c
  if (getPort s d).state = 2 then
    ewSend s d 1 2 0 (ewHeader ewkControl 0 0 0 0 ++ Config.ewControlPayload f.1 f.2.1 f.2.2)
  else s

/-! ### Weft transit across the package (R19, R388) -/

/-- Whether a port carries traffic. -/
def portOpen (s : State) (port : Nat) : Bool := (getPort s port).state == 2 && !(ewModules (getPort s port) port).isEmpty

/-- The ports, with the end that sends, that a transit flit crosses between the link switches of two C-dies: none on one die, the
side link on one side of the package, and otherwise both dies' hub ports and H's transit crossbar, which also serves one side
whose side link has no modules. -/
def transitPath (s : State) (a b : Nat) : List (Nat × Nat) :=
  if a = b then []
  else if a / 2 = b / 2 ∧ portOpen s (4 + a / 2) = true then [(4 + a / 2, a % 2)]
  else [(a, 0), (b, 1)]

/-- Whether every port on the way carries traffic, and H runs where the way crosses it. -/
def transitOpen (s : State) (a b : Nat) : Bool :=
  (transitPath s a b).all (fun p => portOpen s p.1) && ((transitPath s a b).length != 2 || hubRuns s)

/-- A message's flits cross the package, each in a TRANSIT message of virtual channel 3 hashed on the weft DEST. -/
def crossPackage (s : State) (a b : Nat) (m : Msg) : State :=
  (transitPath s a b).foldl (fun t p => (queuedOf m).foldl (fun u f =>
    ewSend u p.1 p.2 3 m.dest (ewHeader ewkTransit 0 0 0 0
      ++ flitOf (flitHeader flData (f.1 % 4) 0 (bitOf f.1 2) (bitOf f.1 3) 0 0) f.2 (List.replicate 4 0))) t) s

end Sys2Proof.Machine
end

