-- ==== Sys2Proof/Machine/Thermal.lean ====
section
/-!
DEFINITION. The measuring half of the power manager (spec/15_power_and_thermal.md R426 to R441, R446 to R448, R450 to R452;
spec/07_near_memory.md R201, R202; spec/09_far_memory.md R258): sensors, the thermal model, Rth and caps, rungs, bands,
throttle steps, and what begins a stop.
-/
namespace Sys2Proof.Machine

/-! ### Sensors (R428, R429, R436) -/

/-- Numbers of the sensors as UNIT_KIND 10 gives them (R499). -/
def cSensor (pos q i : Nat) : Nat := 64 * pos + 16 * q + i
def mSensor (pos layer k : Nat) : Nat := 256 + 64 * pos + 8 * layer + k
abbrev inletSensor : Nat := 528
abbrev outletSensor : Nat := 529

def getSensor (s : State) (n : Nat) : Sensor := tget s.sensors n
def modSensor (s : State) (n : Nat) (f : Sensor → Sensor) : State := { s with sensors := tmod s.sensors n f }

/-- The power manager runs from bring-up phase 2 on, while H's clocks do. -/
def managerUp (s : State) : Bool := hubRuns s && decide (2 ≤ s.pcie.phase.toNat)

/-- Whether a C-die is in service. -/
def dieServes (s : State) (pos : Nat) : Bool := !(tget s.dies pos).heldOut

/-- A reading in °C. -/
def degrees (r : Int) : Rat := (r : Rat) / 8

/-- The reading of a temperature code; none for status 0b11 (R429). -/
def codeReading (c : Nat) : Option Int := if bitsOf c 13 12 = 3 then none else some (signed 12 (c % 4096))

/-- A whole number near an exact value: the value itself, or one of its two neighbours (no rounding is stated). -/
def rounded (x : Rat) : Int :=
  let f := x.floor
  if (f : Rat) = x then f else if Config.roundUp x then f + 1 else f

/-- A whole number that is not negative, of `w` bits at most. -/
def shown (w : Nat) (x : Rat) : Nat := Nat.min (rounded x).toNat (2 ^ w - 1)

/-- The code of a sensor that gives no conversion (R429), and every code of a region that is not enabled (R449). -/
abbrev missingCode : Nat := 0x3000

/-- The code of a temperature with a status. -/
def codeOf (t : Rat) (status : Nat) : Nat := wrapTo 12 (rounded (t * 8)) + status * 4096

/-- A sensor is declared faulty (R436). -/
def declareFaulty (s : State) (n : Nat) : State :=
  if (getSensor s n).faulty then s
  else
    let s1 := modSensor s n (fun x => { x with faulty := true, suspect := false, suspectFor := 0, clearFor := 0 })
    degrade (recordMgmt s1 0x0801 .corrected (unitAddr 10 n)) 16 (some (listEntry 0x0C n))

/-- A reading outside −20 °C to 150 °C. -/
def outOfRange (r : Option Int) : Bool := r.any (fun v => decide (v < -160) || decide (1200 < v))

/-- Step 1 of a sample for one sensor: its latest reading, with the four before it. -/
def latchSensor (s : State) (n : Nat) (r : Option Int) : State :=
  let s1 := modSensor s n (fun x => { x with
    history := (x.reading :: x.history).take 4, reading := r, missing := if r.isNone then x.missing + 1 else 0 })
  if outOfRange r then declareFaulty s1 n else s1

/-- Latch a list of sensors from a number on. -/
def latchAll (s : State) : Nat → List (Option Int) → State
  | _, [] => s
  | n, r :: t => latchAll (latchSensor s n r) (n + 1) t

/-- Latch a C-die's 64 sensors and its stack's 64 (R429). -/
def latchDie (s : State) (pos : Nat) : State :=
  match (tget s.dies pos).telem with
  | none => latchAll (latchAll s (64 * pos) (List.replicate 64 none)) (256 + 64 * pos) (List.replicate 64 none)
  | some r => latchAll (latchAll s (64 * pos) (r.cdie.map (fun c => codeReading c.toNat)))
      (256 + 64 * pos) (r.mlayer.map (fun c => codeReading c.toNat))

/-- Whether a sensor's own reading counts: status 0b00 (R450). -/
def goodReading (s : State) (n : Nat) : Option Rat :=
  let x := getSensor s n
  if x.faulty || x.suspect then none else x.reading.map degrees

/-- The checked manifold temperature: the sensor's reading while it gives a good one, else the last one. -/
def manifold (s : State) (n : Nat) (last : Rat) : Rat := (goodReading s n).getD last

/-! ### The thermal model (R430 to R433) -/

/-- Nodes in order: D, L0 to L3, S, L4 to L7. The node of layer n. -/
def layerNode (n : Nat) : Nat := if n < 4 then n + 1 else n + 2

/-- A factor within 0.80 to 1.25 (R432). -/
def factor (x : Rat) : Rat := if x < 4 / 5 then 4 / 5 else if 5 / 4 < x then 5 / 4 else x

/-- Heat capacity, conductance to the node below and to the coolant, and allowance, by node (Table 15-4). -/
def nodeHeat (i : Nat) : Rat := (if i = 0 then 1 / 50 else if i = 1 then 1 / 100 else if i = 5 then 3 / 200 else 1 / 125) * factor Config.capFactor
def nodeBelow (i : Nat) : Rat :=
  (if i = 0 ∨ 9 < i then 0 else if i = 5 ∨ i = 6 then 15 else 30) * factor Config.condFactor
def nodeCoolant (i : Nat) : Rat := (if i = 5 then 25 / 2 else if i = 9 then 15 / 2 else 0) * factor Config.condFactor
def nodeAllowance (i : Nat) : Rat := if i = 0 then 4 else 3

/-- The coolant temperature T_c. -/
def coolant (s : State) : Rat := (s.power.tIn + s.power.tOut) / 2

/-- A node of a list of nodes. -/
def nodeAt (t : Nodes) (i : Nat) : Rat := t.getD i 0

/-- One substep of 25 µs (R431). -/
def substep (tc : Rat) (p t : Nodes) : Nodes :=
  (List.range 10).map (fun i =>
    let x := nodeAt t i
    let flow := nodeAt p i + nodeBelow i * (nodeAt t (i - 1) - x) + nodeBelow (i + 1) * (nodeAt t (i + 1) - x)
      + nodeCoolant i * (tc - x)
    x + 1 / 40000 / nodeHeat i * flow)

/-- The model temperature of a node of a region; T_c while the model has not started (log 9). -/
def modelAt (s : State) (r i : Nat) : Rat := ((getRegion s r).nodes[i]?).getD (coolant s)

/-- The region and the node of a C-die or M-layer sensor (Table 15-2). -/
def regionOfSensor (n : Nat) : Nat := if n < 256 then n / 16 else (n - 256) / 64 * 4 + n % 8 / 2
def nodeOfSensor (n : Nat) : Nat := if n < 256 then 0 else layerNode ((n - 256) / 8 % 8)

/-- The floor of an M-layer sensor from the values below and above it (R437). -/
def floorOf (node : Nat) (below above : Rat) : Rat :=
  let gb := nodeBelow node
  let ga := if node = 9 then nodeCoolant 9 else nodeBelow (node + 1)
  (gb * below + ga * above) / (gb + ga)

/-- The value that stands for a sensor when no floor is formed: its good reading, else its node's model value. -/
def plainChecked (s : State) (n : Nat) : Rat := (goodReading s n).getD (modelAt s (regionOfSensor n) (nodeOfSensor n))

/-- The C-die sensors under position k of L0 (Table 15-2). -/
def underPosition (pos k : Nat) : List Nat :=
  ((List.range 4).flatMap (fun y => [4 * y + 2 * (k % 2), 4 * y + 2 * (k % 2) + 1])).map (cSensor pos (k / 2))

def maxRat (a b : Rat) : Rat := if a < b then b else a

/-- The largest of some values. -/
def maxOf : List Rat → Option Rat
  | [] => none
  | a :: t => some (t.foldl maxRat a)

/-- The checked value below and above an M-layer sensor, by a value of each other sensor (R437). -/
def besideOf (s : State) (value : Nat → Rat) (n : Nat) : Rat × Rat :=
  let pos := (n - 256) / 64
  let layer := (n - 256) / 8 % 8
  let k := n % 8
  let r := regionOfSensor n
  let below :=
    if layer = 0 then (maxOf ((underPosition pos k).map value)).getD 0
    else if layer = 4 then modelAt s r 5 else value (mSensor pos (layer - 1) k)
  let above := if layer = 3 then modelAt s r 5 else if layer = 7 then coolant s else value (mSensor pos (layer + 1) k)
  (below, above)

/-- The checked value of a sensor (R436, R438): a suspect sensor stands for the higher of its floor and the model value. -/
def checkedSensor (s : State) (n : Nat) : Rat :=
  let x := getSensor s n
  if x.suspect && !x.faulty then
    let b := besideOf s (plainChecked s) n
    let f := floorOf (nodeOfSensor n) b.1 b.2
    let m := modelAt s (regionOfSensor n) (nodeOfSensor n)
    if f < m then m else f
  else plainChecked s n

/-- Mark or clear-count one M-layer sensor (R438), by the values that its neighbours have in the view `v`. -/
def suspectStep (v s : State) (n : Nat) : State :=
  let x := getSensor v n
  match x.reading with
  | none => s
  | some r =>
    if x.faulty then s
    else
      let b := besideOf v (checkedSensor v) n
      if b.2 < b.1 ∧ degrees r < floorOf (nodeOfSensor n) b.1 b.2 - 6 then
        let s1 := modSensor s n (fun y => { y with
          suspect := true, marked := true, suspectFor := y.suspectFor + 1, clearFor := 0 })
        if x.marked then s1 else recordMgmt s1 0x0802 .corrected (unitAddr 10 n)
      else if x.suspect then modSensor s n (fun y => { y with suspectFor := y.suspectFor + 1, clearFor := y.clearFor + 1 })
      else s

/-- The M-layer sensors above enabled regions. -/
def layerSensors (s : State) : List Nat := (rangeFrom 256 256).filter (fun n => regionOn s (regionOfSensor n))

/-- The neighbours of a sensor (before R434), each with the node its value belongs to; `below` of L0 is one value. -/
def neighbours (n : Nat) : List (List Nat × Nat) :=
  if n < 256 then
    let b := n / 16 * 16
    let i := n % 16
    let x := i % 4
    let y := i / 4
    let side := (if 0 < x then [i - 1] else []) ++ (if x < 3 then [i + 1] else [])
      ++ (if 0 < y then [i - 4] else []) ++ (if y < 3 then [i + 4] else [])
    side.map (fun j => ([b + j], 0)) ++ [([mSensor (n / 64) 0 (n % 64 / 16 * 2 + x / 2)], 1)]
  else
    let pos := (n - 256) / 64
    let layer := (n - 256) / 8 % 8
    let k := n % 8
    (if 0 < k then [([n - 1], nodeOfSensor n)] else []) ++ (if k < 7 then [([n + 1], nodeOfSensor n)] else [])
      ++ (if layer = 0 then [(underPosition pos k, 0)] else [([n - 8], layerNode (layer - 1))])
      ++ (if layer < 7 then [([n + 8], layerNode (layer + 1))] else [])

def absRat (x : Rat) : Rat := if x < 0 then -x else x

/-- Whether a sensor deviates from a neighbour by more than its node's allowance (R434). -/
def deviates (s : State) (n : Nat) (m : List Nat × Nat) : Bool :=
  let v := (maxOf (m.1.map (checkedSensor s))).getD 0
  let tm := modelAt s ((m.1.head?.map regionOfSensor).getD 0) m.2
  decide (nodeAllowance (nodeOfSensor n)
    < absRat ((checkedSensor s n - v) - (modelAt s (regionOfSensor n) (nodeOfSensor n) - tm)))

/-- The sensors of one node that are neighbours, as pairs in ascending order. -/
def nodePairs : List (Nat × Nat) :=
  (List.range 512).flatMap (fun n =>
    ((neighbours n).filter (fun m => m.1.length == 1)).filterMap (fun m =>
      let o := m.1.headD 0
      if n < o && regionOfSensor n == regionOfSensor o && nodeOfSensor n == nodeOfSensor o then some (n, o) else none))

/-- Count the samples for which each pair disagrees (R435); faulty and suspect sensors take part with no reading (R439). -/
def disagreeStep (s : State) : State :=
  nodePairs.foldl (fun t e =>
    let key := e.1 * 1024 + e.2
    let on := regionOn s (regionOfSensor e.1) && (goodReading s e.1).isSome && (goodReading s e.2).isSome
      && deviates s e.1 ([e.2], nodeOfSensor e.2)
    { t with power := { t.power with disagree := tmod t.power.disagree key (fun c => if on then c + 1 else 0) } }) s

/-- Whether a sensor disagrees with the model and with more than half of its neighbours but one (R435). -/
def standsAlone (s : State) (n other : Nat) : Bool :=
  let ns := (neighbours n).filter (fun m => m.1 != [other])
  decide (nodeAllowance (nodeOfSensor n) < absRat (checkedSensor s n - modelAt s (regionOfSensor n) (nodeOfSensor n)))
    && decide (ns.length < 2 * (ns.filter (deviates s n)).length)

/-- The sensors of a node of a region (R432). -/
def nodeSensors (r i : Nat) : List Nat :=
  if i = 0 then (List.range 16).map (cSensor (r / 4) (r % 4))
  else if i = 5 then []
  else
    let layer := if i < 5 then i - 1 else i - 2
    [mSensor (r / 4) layer (2 * (r % 4)), mSensor (r / 4) layer (2 * (r % 4) + 1)]

/-- The checked value of a node (R432): an unobserved node's is its model value plus 5 K; S has none. -/
def checkedNode (s : State) (r i : Nat) : Rat :=
  let l := nodeSensors r i
  if i = 5 then modelAt s r 5
  else if l.any (fun n => (goodReading s n).isSome) then (maxOf (l.map (checkedSensor s))).getD 0
  else modelAt s r i + 5

/-- Whether a node's checked value corrects the model (R431, R432). -/
def observed (s : State) (r i : Nat) : Bool := (nodeSensors r i).any (fun n => (goodReading s n).isSome)

/-- The regions that the power manager serves, and those of a C-die. -/
def regionsOn (s : State) : List Nat := (List.range 16).filter (regionOn s)
def dieRegions (s : State) (pos : Nat) : List Nat := (rangeFrom (4 * pos) 4).filter (regionOn s)

/-- A die's rail record, when it has sent one. -/
def telemOf (s : State) (pos : Nat) : Option TelemRecord := (tget s.dies pos).telem

/-- An activity count of a region's part of a TELEM record. -/
def activityOf (t : TelemRecord) (q i : Nat) : Rat := (((t.activity.getD q []).getD i 0 : Nat) : Rat)

/-- The weight of a region in its die's VDD_CORE power (R430). -/
def coreWeight (t : TelemRecord) (q : Nat) : Rat :=
  activityOf t q 0 + 9 / 20 * activityOf t q 1 + 3 / 10 * activityOf t q 2

/-- The weight of a region in its stack's power: bursts and bobbin steps (R430). -/
def layerWeight (t : TelemRecord) (q : Nat) : Rat := activityOf t q 2 + activityOf t q 3

def sumRat (l : List Rat) : Rat := l.foldl (· + ·) 0

/-- A share in proportion to weights, equal where every weight is 0. -/
def shareOf (total : Rat) (weights : List Rat) (w : Rat) : Rat :=
  if sumRat weights = 0 then (if weights.isEmpty then 0 else total / (weights.length : Nat)) else total * w / sumRat weights

/-- The hot spot of a die: the highest D node of its regions. -/
def hotSpot (s : State) (pos : Nat) : Rat := (maxOf ((dieRegions s pos).map (fun r => modelAt s r 0))).getD (coolant s)

/-- The power of each node of a region (R430). -/
def nodePower (s : State) (r : Nat) : Nodes :=
  match telemOf s (r / 4) with
  | none => List.replicate 10 0
  | some t =>
    let pos := r / 4
    let qs := (dieRegions s pos).map (· % 4)
    let core : Rat := ((t.coreMillivolt * t.coreMilliamp : Nat) : Rat) / 1000000
    let leak := Config.leakage t.coreMillivolt (hotSpot s pos)
    let d := shareOf (core - leak) (qs.map (coreWeight t)) (coreWeight t (r % 4)) + leak / 4
    let stack : Rat := 21 / 20 * ((t.dramMilliamp : Nat) : Rat) / 1000 + 9 / 5 * ((t.vppMilliamp : Nat) : Rat) / 1000
    let l := shareOf stack (qs.map (layerWeight t)) (layerWeight t (r % 4)) / 8
    (List.range 10).map (fun i => if i = 0 then d else if i = 5 then 0 else l)

/-- The power of everything that is not a region, in W (R430). -/
def otherPower (s : State) (hub : Nat) : Rat :=
  ((hub : Nat) : Rat) / 1000 + sumRat ((List.range 4).map (fun p => match telemOf s p with
    | none => 0
    | some t => ((sumOf t.hbmMilliwatt + t.serdesMilliwatt : Nat) : Rat) / 1000))

/-- Whether a sensor's residual against the model before correction is above 4 K (Table 15-8, cause 0x1). -/
def residualHigh (s : State) (model : Nodes) (n : Nat) : Bool :=
  (goodReading s n).any (fun v => decide (4 < v - nodeAt model (nodeOfSensor n)))

/-- The sensors of a region. -/
def regionSensors (r : Nat) : List Nat := (List.range 10).flatMap (nodeSensors r)

/-- The rise of a good sensor over the last 4 samples, in units of 0.125 K. -/
def riseOf (s : State) (n : Nat) : Option Int :=
  if (goodReading s n).isNone then none
  else match (getSensor s n).reading, (getSensor s n).history[3]? with
    | some a, some (some b) => some (a - b)
    | _, _ => none

/-- One region's model for one sample: the advanced nodes, whether its residuals reach cause 0x1, and the region with
corrected nodes, forecast, checked values and power (R431 to R433). -/
def modelStep (s : State) (r : Nat) : Region × Bool :=
  let g := getRegion s r
  let tc := coolant s
  let start : Nodes := if g.nodes.isEmpty then
      (List.range 10).map (fun i => if observed s r i then checkedNode s r i else tc) else g.nodes
  let p := nodePower s r
  let checked := (List.range 10).map (checkedNode s r)
  let moved := iterate (substep tc p) 10 start
  let high := 2 ≤ ((regionSensors r).filter (residualHigh s moved)).length
  let fixed := (List.range 10).map (fun i =>
    if observed s r i then nodeAt moved i + (nodeAt checked i - nodeAt moved i) / 2 else nodeAt moved i)
  ({ g with nodes := fixed, checked := checked, forecast := iterate (substep tc p) 200 fixed, power := sumRat p }, high)

/-! ### Rth, caps and rungs (R440, R441, R446 to R448) -/

/-- Rth and the thermal cap of a region (R440). -/
def rthStep (tin : Rat) (g : Region) : Region :=
  let rth := if 20 ≤ g.power then g.rth + ((nodeAt g.checked 0 - tin) / g.power - g.rth) / 4000 else g.rth
  let cap := if rth ≤ 0 then (if 0 ≤ 90 - tin then 190 else 0) else Nat.min ((90 - tin) / rth).floor.toNat 190
  { g with rth := rth, capTh := cap }

/-- The records of R441 for one region; each is armed again 0.02 K/W below its threshold. -/
def rthRecords (s : State) (r : Nat) : State :=
  let g := getRegion s r
  let warn := decide (9 / 25 < g.rth)
  let high := decide (9 / 20 < g.rth)
  let s1 := if warn && !g.rthWarned then recordMgmt s 0x0803 .corrected (unitAddr 6 r) else s
  let s2 := if high && !g.rthHigh then recordMgmt s1 0x0804 .contained (unitAddr 6 r) 0 stDegraded else s1
  modRegion s2 r (fun x => { x with
    rthWarned := warn || (x.rthWarned && decide (17 / 50 < g.rth))
    rthHigh := high || (x.rthHigh && decide (43 / 100 < g.rth)) })

/-- THM_STATUS.RTH_HIGH (Table 15-13). -/
def anyRthHigh (s : State) : Bool := (regionsOn s).any (fun r => decide (9 / 20 < (getRegion s r).rth))

/-- The admission level, issue duty, and near and far throttles in percent of a rung (Table 15-6). -/
def rungAdmit (n : Nat) : Nat := [0, 0, 0, 1, 1, 2, 2, 3, 4, 5, 6, 7].getD n 7
def rungDuty (n : Nat) : Nat := [1, 2, 4, 6, 8, 10, 12, 14].getD n 16
def rungNear (n : Nat) : Nat := [25, 50, 50, 75, 75].getD n 100
def rungFar (n : Nat) : Nat := [50, 50, 75, 75].getD n 100

/-- Put a region on a rung. -/
def setRung (s : State) (r n : Nat) : State :=
  modRegion s r (fun g => { g with rung := n, admitLevel := BitVec.ofNat 3 (rungAdmit n) })

/-- The licence's maximum and the package cap in effect, in W (R445). -/
def licenceMax (s : State) : Nat := (s.boot.licence.map (·.maxPower)).getD 600
def capInEffect (s : State) : Nat := match s.power.capSet with
  | none => licenceMax s
  | some c => Nat.min c (licenceMax s)

/-- The budget of a region (R448). -/
def budgetOf (s : State) (r : Nat) : Rat :=
  let on := regionsOn s
  let pw := fun x => (getRegion s x).power
  let share := ((capInEffect s : Nat) - s.power.nonRegion) / (on.length : Nat)
  let pool := sumRat (on.map (fun x => maxRat 0 (share - pw x)))
  let ovf := on.filter (fun x => decide (share < pw x))
  let own := share + (if share < pw r then pool / (ovf.length : Nat) else 0)
  let cap : Rat := ((getRegion s r).capTh : Nat)
  if cap < own then cap else own

/-- Step 4 for one region: its budget, its rung's fall, and the samples below 0.90 × budget (R448). -/
def rungStep (budget : Rat) (s : State) (r : Nat) : State :=
  let g := getRegion s r
  let s1 := modRegion s r (fun x => { x with
    budget := Nat.min budget.floor.toNat 0xFFF
    belowCount := if g.power < 9 / 10 * budget then x.belowCount + 1 else 0 })
  if 11 / 10 * budget < g.power then setRung s1 r (g.rung - 2)
  else if budget < g.power then setRung s1 r (g.rung - 1)
  else s1

/-! ### Bands and throttle steps (R201, R202, R258, R259) -/

/-- Lower bounds of the bands (Table 07-2). -/
def bandBound (b : Nat) : Rat := if b = 1 then 85 else if b = 2 then 95 else if b = 3 then 105 else 0

/-- The band of a temperature. -/
def bandOf (t : Rat) : Nat := if t < 85 then 0 else if t < 95 then 1 else if t < 105 then 2 else 3

/-- A layer's temperature: the highest of its checked values and forecasts (R433). -/
def layerTemp (s : State) (pos layer : Nat) : Option Rat :=
  let i := layerNode layer
  maxOf ((dieRegions s pos).flatMap (fun r => [nodeAt (getRegion s r).checked i, nodeAt (getRegion s r).forecast i]))

/-- A band applies at every channel of its layer (R202). -/
def setBand (s : State) (pos layer b : Nat) : State :=
  let s1 : State := { s with thermal := { s.thermal with
    bands := tset s.thermal.bands (pos * 8 + layer) b, bandBelow := tset s.thermal.bandBelow (pos * 8 + layer) 0 } }
  { s1 with chans := tmodAll s1.chans ((rangeFrom (pos * 2048) 2048).map (fun c => chanOf c layer)) (fun _ c => { c with
      band := BitVec.ofNat 2 b, relaxed := decide (2 ≤ b) }) }

/-- The band of one layer at a sample: it rises at once, and the samples 3 K below its bound are counted. -/
def bandStep (s : State) (e : Nat × Nat) : State :=
  match layerTemp s e.1 e.2 with
  | none => s
  | some t =>
    let key := e.1 * 8 + e.2
    let b := tget s.thermal.bands key
    if b < bandOf t then setBand s e.1 e.2 (bandOf t)
    else
      let below := decide (0 < b) && decide (t < bandBound b - 3)
      { s with thermal := { s.thermal with
          bandBelow := tmod s.thermal.bandBelow key (fun n => if below then n + 1 else 0) } }

/-- Throttle step of a temperature over its threshold, and a step's lower bound (Table 09-3). -/
def throttleOf (ovf : Int) : Nat :=
  if ovf < 0 then 0 else if ovf < 3 then 1 else if ovf < 6 then 2 else if ovf < 10 then 3 else 4
def throttleBound (step : Nat) : Int := [0, 0, 3, 6, 10].getD step 10

/-- The throttle step of one stack at a sample (R258, R259). -/
def stackStep (s : State) (e : Nat × Option (Int × Int)) : State :=
  if (tget s.hbmStacks e.1).out then s
  else modStack s e.1 (fun k => match e.2 with
    | none => { k with missing := k.missing + 1, below := 0 }
    | some (t, thr) =>
      let up := throttleOf (t - thr)
      { k with
        temp := BitVec.ofInt 8 t, threshold := BitVec.ofInt 8 thr, missing := 0
        held := k.held && decide (0 < k.missing)
        step := Nat.max k.step up
        below := if k.step < up then 0 else if 0 < k.step ∧ t - thr < throttleBound k.step - 2 then k.below + 1 else 0 })

/-! ### Beginning a stop (R450 to R453) -/

/-- An orderly stop begins: step 1 of Table 15-9. A further cause joins the stop that runs. -/
def beginStop (s : State) (cause : Nat) : State :=
  if s.thermal.stop = 0 ∧ ¬ s.thermal.clockOrdered then
    sendNotice { s with thermal := { s.thermal with stop := 1, cause := cause } } 5 0 stThermal []
  else s

/-- A clock stop is ordered (R452). -/
def orderClockStop (s : State) (cause : Nat) : State :=
  if s.thermal.clockOrdered ∨ 2 ≤ s.thermal.stop then s
  else { s with thermal := { s.thermal with
    clockOrdered := true, cause := if s.thermal.stop = 0 then cause else s.thermal.cause } }

/-- The time to trip of one sensor in ms (R451). -/
def sensorTime (s : State) (n : Nat) : Option Rat :=
  match goodReading s n, riseOf s n with
  | some v, some d => if 0 < d then some (((if n < 256 then 115 else 112) - v) / degrees d) else none
  | _, _ => none

/-- The least time to trip of the device, in ms. -/
def timeToTrip (s : State) : Option Rat :=
  (((regionsOn s).flatMap regionSensors).filterMap (sensorTime s)).foldl (fun a t => match a with
    | none => some t
    | some b => some (if t < b then t else b)) none

/-- Whether the time to trip is below a bound. -/
def tripWithin (s : State) (ms : Rat) : Bool := (timeToTrip s).any (fun t => decide (t < ms))

/-- The causes of Table 15-8 that a sample shows; `residual` says that a region met cause 0x1. -/
def stopCauses (s : State) (residual : Bool) : List Nat :=
  let on := regionsOn s
  let rate := on.any (fun r => decide (2 ≤ ((regionSensors r).filter (fun n => (riseOf s n).any (fun d => decide (12 < d)))).length))
  let at110 := fun (r i : Nat) => decide (110 ≤ nodeAt (getRegion s r).checked i)
  let layer := on.any (fun r => (List.range 8).any (fun n => at110 r (layerNode n)))
  let die := on.any (fun r => at110 r 0) || (rangeFrom 512 16).any (fun n => (goodReading s n).any (fun v => decide (110 ≤ v)))
  let hbm := s.hbmStacks.any (fun e => e.2.step == 4)
  (if residual then [1] else []) ++ (if rate then [2] else []) ++ (if layer then [3] else []) ++ (if die then [4] else [])
    ++ (if hbm then [5] else [])

/-- The choice between the two kinds of stop (R452). -/
def stopStep (s : State) (residual : Bool) : State :=
  if s.thermal.stop = 1 then (if tripWithin s 10 then orderClockStop s s.thermal.cause else s)
  else if s.thermal.stop = 0 then
    match stopCauses s residual with
    | [] => s
    | c :: t =>
      if (c :: t).any (fun x => x ≤ 2) && tripWithin s 25 then orderClockStop s c else beginStop s c
  else s

end Sys2Proof.Machine
end

