-- ==== Sys2Proof/Machine/Power.lean ====
section
/-!
DEFINITION. The rows of the power manager (spec/15_power_and_thermal.md R426 to R449, R457, R458; spec/12_command_reference.md
R357, R358; spec/14_die_to_die.md R415; spec/17_errors_and_resets.md R502): the sample, the timed falls and rises, clock
steps, telemetry records and registers.
-/
namespace Sys2Proof.Machine

/-! ### TELEM (R415, R427, R429) -/

/-- TELEM: a C-die's record arrives at H with the die's own number and counter (R63, R64), whatever the operand says there. -/
def telem (pos : Nat) (r : TelemRecord) (s : State) : State :=
  if managerUp s && decide (pos < 4) && dieServes s pos && !(tget s.dies pos).clocksStopped then
    modDie s pos (fun d => { d with
      telem := some { r with seq := d.telemSeq, counter := counterOf s pos }, telemSeq := (d.telemSeq + 1) % 2 ^ 32, misses := 0 })
  else s

/-- TELEM_MISS_TIMER: the sample instant passed without a die's record. -/
def telemMiss (d : Nat) (s : State) : State :=
  if managerUp s && decide (d < 4) && dieServes s d then
    modDie s d (fun x => { x with
      misses := x.misses + 1, telemMissedHub := satAdd x.telemMissedHub 1, telemMissedDie := satAdd x.telemMissedDie 1 })
  else s

/-- TELEM_MISS_HOLD: from the 4th miss on, the die's regions stand on rung 2 or below. -/
def telemMissHold (pos : Nat) (s : State) : State :=
  if managerUp s && decide (pos < 4) && decide (4 ≤ (tget s.dies pos).misses) then
    ((dieRegions s pos).filter (fun r => decide (2 < (getRegion s r).rung))).foldl (fun t r => setRung t r 2) s
  else s

/-- TELEM_LOST: at the 40th miss an orderly stop begins. -/
def telemLost (pos : Nat) (s : State) : State :=
  if managerUp s && decide (pos < 4) && decide (40 ≤ (tget s.dies pos).misses) then beginStop s 7 else s

/-! ### Clock steps (R442 to R444) -/

/-- The setpoint of a C-die at a step, in mV (R442). -/
def setpointOf (pos step : Nat) : Nat :=
  let trim := Config.trimMillivolt pos
  let t : Int := if trim < -40 then -40 else if 50 < trim then 50 else trim
  let v := ([800, 740, 710, 700].getD step 700 : Int) + t
  (if v < 650 then 650 else if 850 < v then 850 else v).toNat

/-- Change every C-die. -/
def allCDies (s : State) (f : Nat → Die → Die) : State := { s with dies := tmodAll s.dies (List.range 4) f }

/-- The C-dies' dividers switch (Table 01-8): a control message goes to each, and each runs at the new step, one whose hub port
is quiesced once traffic resumes (R37, R420); two changes stand 10 ms apart. -/
def switchStep (s : State) (step : Nat) : State :=
  let s1 := allCDies ((List.range 4).foldl (fun t d => sendControl t d (.clockStep step)) s) (fun p d =>
    if (getPort s p).quiesced then d else { d with clockStep := step })
  { s1 with power := { s1.power with step := step, stepWait := 40, overCount := 0, underCount := 0, stepTarget := none } }

/-- A step down: the dividers first, then the setpoints. -/
def stepDown (s : State) : State :=
  if s.power.step < 3 then
    let k := s.power.step + 1
    allCDies (switchStep s k) (fun p d => { d with setpoint := setpointOf p k })
  else s

/-- Whether at least half of the enabled regions stand on rung 4 or below. -/
def halfLow (s : State) : Bool :=
  let on := regionsOn s
  decide (on.length ≤ 2 * (on.filter (fun r => decide ((getRegion s r).rung ≤ 4))).length)

/-- CLOCK_STEP_DOWN. -/
def clockStepDown (s : State) : State :=
  if managerUp s && s.thermal.stop == 0 && decide (4 ≤ s.power.overCount) && halfLow s && s.power.stepWait == 0 then stepDown s
  else s

/-- CLOCK_STEP_UP: the setpoints rise first; a step up in progress is not begun again. -/
def clockStepUp (s : State) : State :=
  if managerUp s && s.thermal.stop == 0 && decide (40 ≤ s.power.underCount) && decide (0 < s.power.step)
      && s.power.stepWait == 0 && s.power.stepTarget.isNone
      && (regionsOn s).all (fun r => decide (6 ≤ (getRegion s r).rung))
      && (List.range 4).all (fun p => decide ((tget s.dies p).misses < 4)) then
    let k := s.power.step - 1
    let old := (List.range 4).map (fun p => (tget s.dies p).setpoint)
    let s1 := allCDies s (fun p d => { d with
      setpoint := setpointOf p k, telem := d.telem.map (fun t => { t with afterSetpoint := false }) })
    { s1 with power := { s1.power with stepTarget := some k, oldSetpoints := old, upSamples := 0 } }
  else s

/-- Whether a C-die has shown VDD_CORE within 10 mV of its setpoint in a record taken late enough. -/
def voltageShown (s : State) (pos : Nat) : Bool :=
  let d := tget s.dies pos
  d.telem.any (fun t => t.afterSetpoint && decide (t.coreMillivolt ≤ d.setpoint + 10) && decide (d.setpoint ≤ t.coreMillivolt + 10))

/-- STEP_UP_VOLTAGE_CONFIRMED. -/
def stepUpConfirmed (s : State) : State :=
  match s.power.stepTarget with
  | none => s
  | some k =>
    if managerUp s && s.thermal.stop == 0 && ((List.range 4).filter (dieServes s)).all (voltageShown s) then switchStep s k else s

/-- STEP_UP_ABANDON: 4 samples passed without every record. -/
def stepUpAbandon (s : State) : State :=
  if managerUp s && s.power.stepTarget.isSome && decide (4 ≤ s.power.upSamples) then
    let s1 := allCDies s (fun p d => { d with setpoint := s.power.oldSetpoints.getD p d.setpoint })
    recordMgmt { s1 with power := { s1.power with stepTarget := none, stepWait := 40, underCount := 0 } } 0x0805 .corrected
  else s

/-! ### The sample (R426) -/

/-- Step 1: the latest readings. -/
def sampleReadings (s : State) (r : HubReadings) : State :=
  let s1 := (List.range 4).foldl latchDie s
  let s2 := latchAll s1 512 ((padTo16 r.hub).map (fun c => codeReading c.toNat))
  let s3 := latchSensor (latchSensor s2 inletSensor (codeReading r.inlet.toNat)) outletSensor (codeReading r.outlet.toNat)
  let tin := manifold s3 inletSensor s3.power.tIn
  { s3 with power := { s3.power with
      tIn := tin, tOut := manifold s3 outletSensor s3.power.tOut
      inletHot := if 50 ≤ tin then s3.power.inletHot + 1 else 0
      stepWait := s3.power.stepWait - 1
      upSamples := if s3.power.stepTarget.isSome then s3.power.upSamples + 1 else 0 } }
where
  /-- H's 16 codes; one that is not given is missing. -/
  padTo16 (l : List (BitVec 16)) : List (BitVec 16) :=
    (l ++ List.replicate (16 - l.length) (BitVec.ofNat 16 missingCode)).take 16

/-- Steps 2 and 3: cross-checks, the model, bands and throttle steps, and the stop triggers. -/
def sampleModel (s : State) (r : HubReadings) : State :=
  let s1 := disagreeStep ((layerSensors s).foldl (suspectStep s) s)
  let steps := (regionsOn s1).map (fun g => (g, modelStep s1 g))
  let s2 := steps.foldl (fun t e => modRegion t e.1 (fun _ => e.2.1)) s1
  let other := otherPower s2 r.nonRegionMilliwatt
  let total := other + sumRat ((regionsOn s2).map (fun g => (getRegion s2 g).power))
  let s3 : State := { s2 with power := { s2.power with nonRegion := other, packagePower := total } }
  let s4 := ((List.range 4).flatMap (fun p => (List.range 8).map (fun l => (p, l)))).foldl bandStep s3
  let s5 := (List.zip (List.range 8) r.hbmStacks).foldl stackStep s4
  stopStep s5 (steps.any (fun e => e.2.2))

/-- The caps that POWER_CAP_SET gave enter, and the commands reply (R445). -/
def applyCaps (s : State) : State :=
  let s1 := s.power.capPending.foldl (fun t p => match getPacket t p with
    | none => t
    | some k => { t with power := { t.power with capSet := some (argAt k 0x10 4) } }) s
  let s2 := s1.power.capPending.foldl (fun t p => finish t p stOk (toBytes 4 (capInEffect t))) s1
  { s2 with power := { s2.power with capPending := [] } }

/-- The counts of R444, and the immediate step down. -/
def clockCounts (s : State) : State :=
  let cap : Rat := (capInEffect s : Nat)
  let f := s.power.packagePower
  let s1 : State := { s with power := { s.power with
    overCount := if cap < f then s.power.overCount + 1 else 0
    underCount := if f < 17 / 20 * cap then s.power.underCount + 1 else 0 } }
  if s.thermal.stop = 0 ∧ 21 / 20 * cap < f then stepDown s1 else s1

/-- Step 4: Rth, caps, budgets, rungs and the clock step. -/
def sampleControls (s : State) : State :=
  let s1 := (regionsOn s).foldl (fun t r => rthRecords (modRegion t r (rthStep t.power.tIn)) r) s
  let s2 := if anyRthHigh s1 = anyRthHigh s then s1 else if anyRthHigh s1 then degrade s1 17 none else undegrade s1 17 none
  let s3 := applyCaps s2
  let s4 := if s3.thermal.stop = 0 then (regionsOn s3).foldl (fun t r => rungStep (budgetOf s3 r) t r) s3 else s3
  clockCounts s4

/-- POWER_SAMPLE. While bring-up is held, it takes readings only (R457). -/
def powerSample (r : HubReadings) (s : State) : State :=
  if !managerUp s then s
  else if s.pcie.phase = 2 then sampleReadings s r
  else sampleControls (sampleModel (sampleReadings s r) r)

/-! ### Timed changes between samples -/

/-- BAND_FALL: 40 samples stood 3 K below the band's bound. -/
def bandFall (pos layer : Nat) (s : State) : State :=
  let key := pos * 8 + layer
  let b := tget s.thermal.bands key
  if managerUp s && decide (pos < 4) && decide (layer < 8) && decide (40 ≤ tget s.thermal.bandBelow key) && decide (0 < b) then
    setBand s pos layer (b - 1)
  else s

/-- THROTTLE_FALL: 40 samples stood 2 K below the step's bound. -/
def throttleFall (n : Nat) (s : State) : State :=
  let k := tget s.hbmStacks n
  if managerUp s && decide (40 ≤ k.below) && decide (0 < k.step) && !k.held && !k.out then
    modStack s n (fun x => { x with step := x.step - 1, below := 0 })
  else s

/-- STACK_READOUT_MISSING: the stack is held at step 3 (R259). -/
def stackReadoutMissing (n : Nat) (s : State) : State :=
  let k := tget s.hbmStacks n
  if managerUp s && decide (4 ≤ k.missing) && !k.held && !k.out then
    recordMgmt (modStack s n (fun x => { x with step := 3, held := true, below := 0 })) 0x0305 .corrected (unitAddr 8 n)
  else s

/-- SENSOR_NO_READING: a sensor of H or the manifold after 4 samples (R427), and any other that counts during the hold
after 40 (R457). -/
def sensorNoReading (n : Nat) (s : State) : State :=
  let x := getSensor s n
  let h := decide (512 ≤ n) && decide (n < 530) && decide (4 ≤ x.missing)
  let held := s.thermal.hold && decide (n < 512) && decide (40 ≤ x.missing) && dieServes s (n % 256 / 64)
  if managerUp s && (h || held) then declareFaulty s n else s

/-- SENSOR_FAULT_DECISION: two sensors of a node have disagreed for 8 samples (R435). -/
def sensorFaultDecision (a b : Nat) (s : State) : State :=
  if managerUp s && decide (a < b) && nodePairs.contains (a, b) && decide (8 ≤ tget s.power.disagree (a * 1024 + b)) then
    match standsAlone s a b, standsAlone s b a with
    | true, false => declareFaulty s a
    | false, true => declareFaulty s b
    | _, _ => s
  else s

/-- SENSOR_SUSPECT_CLEAR: 40 samples did not meet the condition (R438). -/
def sensorSuspectClear (n : Nat) (s : State) : State :=
  let x := getSensor s n
  if managerUp s && x.suspect && decide (40 ≤ x.clearFor) then
    modSensor s n (fun y => { y with suspect := false, suspectFor := 0, clearFor := 0 })
  else s

/-- SENSOR_SUSPECT_FAULTY: suspect for 4,000 samples (R438). -/
def sensorSuspectFaulty (n : Nat) (s : State) : State :=
  let x := getSensor s n
  if managerUp s && x.suspect && decide (4000 ≤ x.suspectFor) then declareFaulty s n else s

/-- INLET_HOT: cause 0x6 of Table 15-8. -/
def inletHot (s : State) : State := if managerUp s && decide (40 ≤ s.power.inletHot) then beginStop s 6 else s

/-- RUNG_RISE: the 4th sample in a row below 0.90 × budget (R448), unless the die's misses hold rung 2 (R427). -/
def rungRise (r : Nat) (s : State) : State :=
  let g := getRegion s r
  if managerUp s && regionOn s r && s.thermal.stop == 0 && decide (4 ≤ g.belowCount)
      && !(decide (4 ≤ (tget s.dies (r / 4)).misses) && decide (2 ≤ g.rung)) then
    modRegion (setRung s r (Nat.min 11 (g.rung + 1))) r (fun x => { x with belowCount := 0 })
  else s

/-! ### Registers (Tables 15-11 to 15-14) -/

/-- The two-bit code of a throttle share. -/
def throttleCode (percent : Nat) : Nat := if percent = 100 then 0 else if percent = 75 then 1 else if percent = 50 then 2 else 3

/-- The PWR_ register at an offset. -/
def pwrReg (s : State) (off : Nat) : Nat :=
  if off = 0 then
    let missed := sumOf ((List.range 4).map (fun p => if 4 ≤ (tget s.dies p).misses then 2 ^ p else 0))
    s.power.step + 4 * b2n s.power.stepTarget.isSome + 256 * missed + 65536 * (if managerUp s then capInEffect s else 0)
  else if 0x100 ≤ off ∧ off < 0x140 then
    let g := getRegion s ((off - 0x100) / 4)
    g.rung + 16 * g.admitLevel.toNat + 256 * rungDuty g.rung + 65536 * throttleCode (rungNear g.rung)
      + 262144 * throttleCode (rungFar g.rung) + 1048576 * g.budget
  else 0

/-- The bits of a list, lowest first. -/
def bitsNat (l : List Bool) : Nat := sumOf ((List.zip (List.range l.length) l).map (fun e => if e.2 then 2 ^ e.1 else 0))

/-- Codes of a node's checked value and forecast; 0 before the model has run. -/
def checkedCode (g : Region) (i : Nat) : Nat := if g.checked.isEmpty then 0 else codeOf (nodeAt g.checked i) 0
def forecastCode (g : Region) (i : Nat) : Nat := if g.forecast.isEmpty then 0 else codeOf (nodeAt g.forecast i) 0

/-- The THM_ register at an offset. -/
def thmReg (s : State) (off : Nat) : Nat :=
  let t := s.thermal
  if off = 0 then
    t.stop + 8 * b2n (anyRthHigh s) + 16 * t.cause + 256 * t.tripCdie.toNat + 4096 * t.tripMlayer.toNat + 65536 * b2n t.tripHub
      + 131072 * b2n t.hold
  else if 0x100 ≤ off ∧ off < 0x180 then
    let g := getRegion s ((off - 0x100) / 8)
    if off % 8 = 0 then shown 16 (1000 * g.rth) + 65536 * g.capTh else checkedCode g 0 + 65536 * forecastCode g 0
  else if 0x200 ≤ off ∧ off < 0x240 then bitsNat ((rangeFrom ((off - 0x200) / 4 * 32) 32).map (fun n => (getSensor s n).faulty))
  else if off = 0x240 then bitsNat ((rangeFrom 512 18).map (fun n => (getSensor s n).faulty))
  else 0

/-! ### Telemetry records (R449) -/

/-- The code of a sensor: a faulty one shows its node's model value (R436), for a sensor without a node its last reading. -/
def sensorCode (s : State) (n : Nat) : Nat :=
  let x := getSensor s n
  let here := match x.reading with
    | none => missingCode
    | some v => wrapTo 12 v
  if x.faulty then (if n < 512 then codeOf (modelAt s (regionOfSensor n) (nodeOfSensor n)) 2 else here % 4096 + 8192)
  else if x.reading.isNone then missingCode
  else here + 4096 * b2n x.suspect

/-- The highest Rth in mK/W. -/
def highestRth (s : State) : Nat := ((regionsOn s).map (fun r => shown 16 (1000 * (getRegion s r).rth))).foldl Nat.max 0

/-- Power in mW. -/
def milliwatt (p : Rat) : Nat := shown 32 (1000 * p)

/-- Section 0. -/
def packageSection (s : State) : Bytes :=
  padTo 64 (toBytes 2 (capInEffect s) ++ toBytes 1 s.power.step ++ toBytes 1 s.thermal.stop ++ toBytes 2 (sensorCode s inletSensor)
    ++ toBytes 2 (sensorCode s outletSensor) ++ toBytes 4 (milliwatt s.power.nonRegion) ++ toBytes 2 (highestRth s))

/-- The hottest layer's value of a list of nodes. -/
def hottestLayer (t : Nodes) : Rat := (maxOf ((List.range 8).map (fun n => nodeAt t (layerNode n)))).getD 0

/-- One region's 32 bytes of section 1. -/
def regionSection (s : State) (r : Nat) : Bytes :=
  let g := getRegion s r
  if regionOn s r then
    padTo 32 (toBytes 4 (milliwatt g.power) ++ toBytes 2 g.budget ++ toBytes 2 g.capTh ++ toBytes 2 (shown 16 (1000 * g.rth))
      ++ toBytes 1 g.rung ++ toBytes 1 g.admitLevel.toNat ++ toBytes 2 (checkedCode g 0) ++ toBytes 2 (forecastCode g 0)
      ++ toBytes 2 (codeOf (hottestLayer g.checked) 0) ++ toBytes 2 (codeOf (hottestLayer g.forecast) 0))
  else padTo 32 (List.replicate 12 0 ++ (List.replicate 4 (toBytes 2 missingCode)).flatten)

/-- The codes of a range of sensors. -/
def codeSection (s : State) (lo n : Nat) : Bytes := (rangeFrom lo n).flatMap (fun i => toBytes 2 (sensorCode s i))

/-- One stack's 8 bytes of section 4. -/
def stackSection (s : State) (n : Nat) : Bytes :=
  let k := tget s.hbmStacks n
  let code := fun (b : BitVec 8) => if 0 < k.missing ∨ k.out then missingCode else wrapTo 12 (b.toInt * 8)
  toBytes 2 (code k.temp) ++ toBytes 2 (code k.threshold) ++ toBytes 4 k.step

/-- One C-die's 32 bytes of section 6. -/
def railSection (s : State) (pos : Nat) : Bytes :=
  match telemOf s pos with
  | none => List.replicate 32 0
  | some t => toBytes 4 (t.coreMillivolt % 65536) ++ toBytes 4 t.coreMilliamp ++ toBytes 4 t.dramMilliamp ++ toBytes 4 t.vppMilliamp
      ++ toBytes 4 (t.hbmMilliwatt.getD 0 0) ++ toBytes 4 (t.hbmMilliwatt.getD 1 0) ++ toBytes 4 t.serdesMilliwatt ++ toBytes 4 0

/-- One region's 20 bytes of section 7. -/
def modelSection (s : State) (r : Nat) : Bytes :=
  (List.range 10).flatMap (fun i => toBytes 2 (if regionOn s r then forecastCode (getRegion s r) i else missingCode))

/-- A section of Table 15-7. -/
def telemSection (s : State) (n : Nat) : Bytes :=
  match n with
  | 0 => packageSection s
  | 1 => (List.range 16).flatMap (regionSection s)
  | 2 => codeSection s 0 256
  | 3 => codeSection s 256 256
  | 4 => (List.range 8).flatMap (stackSection s)
  | 5 => codeSection s 512 16
  | 6 => (List.range 4).flatMap (railSection s)
  | _ => (List.range 16).flatMap (modelSection s)

/-- A telemetry record's header with a mask and a length. -/
def telemHeader (s : State) (mask len : Nat) : Bytes :=
  padTo 32 (toBytes 4 s.power.telemSeq ++ toBytes 6 (counterOf s 4) ++ toBytes 2 0 ++ toBytes 4 mask ++ toBytes 4 len
    ++ toBytes 4 (milliwatt s.power.packagePower))

/-- A telemetry record (R449). -/
def telemRecord (s : State) (mask : Nat) : Bytes :=
  let body := ((List.range 8).filter (bitOf mask)).flatMap (telemSection s)
  telemHeader s mask (32 + body.length) ++ body

/-- The power manager numbers its next record (R63). -/
def nextTelem (s : State) : State := { s with power := { s.power with telemSeq := (s.power.telemSeq + 1) % 2 ^ 32 } }

/-- TELEM_READ. -/
def telemRead (p : Nat) (s : State) : State :=
  runCmd s p 0x0801 (fun k =>
    let mask := argAt k 0x10 4
    let b := telemRecord s mask
    let v : Buf := { bufB k with len := b.length }
    if 256 ≤ mask ∨ (bufB k).len < b.length then fail s p stBadPacket
    else
      let t := fillBuffer s p v b (toBytes 4 b.length)
      if bufStatus s p true v = stOk ∧ ¬ bufWaits s v then nextTelem t else t)

/-- TELEM_STREAM; a period of 0 stops the stream. -/
def telemStream (p : Nat) (s : State) : State :=
  runCmd s p 0x0802 (fun k =>
    let mask := argAt k 0x10 4
    if 256 ≤ mask then fail s p stBadPacket
    else finish { s with power := { s.power with streamMask := BitVec.ofNat 32 mask, streamPeriod := argAt k 0x14 4 } } p stOk [])

/-- Bytes of the telemetry ring (R502). -/
abbrev tlmRingSize : Nat := 2097152

/-- Write padded bytes at the tail of the telemetry ring. -/
def tlmPut (s : State) (b : Bytes) : State :=
  let s1 := composeAt s (tlmRingBase + s.errors.tlmTail.toNat % tlmRingSize) b
  { s1 with errors := { s1.errors with tlmTail := s1.errors.tlmTail + BitVec.ofNat 32 b.length } }

/-- TELEM_STREAM_PERIOD: a record goes to the ring, a pad record before it where it would cross the ring's end, and both
are dropped where the ring lacks room (R502). -/
def telemPeriod (s : State) : State :=
  if managerUp s && decide (0 < s.power.streamPeriod) then
    let b := telemRecord s s.power.streamMask.toNat
    let len := ceilDiv b.length 64 * 64
    let tail := s.errors.tlmTail.toNat % tlmRingSize
    let pad := if tlmRingSize < tail + len then tlmRingSize - tail else 0
    let used := (s.errors.tlmTail - s.errors.tlmHead).toNat
    if tlmRingSize < used + pad + len then
      nextTelem { s with errors := { s.errors with tlmDropped := satAdd s.errors.tlmDropped 1 } }
    else
      let s1 := if pad = 0 then s else nextTelem (tlmPut s (padTo pad (telemHeader s 0 pad)))
      let r := telemRecord s1 s.power.streamMask.toNat
      sendVector (nextTelem (tlmPut s1 (padTo len r))) 2
  else s

/-! ### POWER_CAP_SET and POWER_QUERY (R358, R445) -/

/-- POWER_CAP_SET: it replies once step 4 of the next sample has run. -/
def powerCapSet (p : Nat) (s : State) : State :=
  runCmd s p 0x0803 (fun k =>
    let cap := argAt k 0x10 4
    if cap < 600 then fail s p stBadPacket
    else if licenceMax s < cap then fail s p stNotLicensed
    else
      let s1 := markStarted s p
      { s1 with power := { s1.power with capPending := s1.power.capPending ++ [p] } })

/-- POWER_QUERY. -/
def powerQuery (p : Nat) (s : State) : State :=
  runCmd s p 0x0804 (fun _ =>
    let levels := (regionsOn s).map (fun r => (getRegion s r).admitLevel.toNat)
    finish s p stOk (toBytes 4 (milliwatt s.power.packagePower) ++ toBytes 4 (capInEffect s)
      ++ toBytes 4 (s.power.step + 256 * levels.foldl Nat.min (levels.headD 0)) ++ toBytes 4 (highestRth s)))

/-! ### The rows of the table -/

/-- TELEM. -/
def execTelem (pos : Nat) (r : TelemRecord) (s : State) : Host.Outcome State Fault Refusal := .next (telem pos r s)

/-- TELEM_MISS_TIMER. -/
def execTelemMissTimer (d : Nat) (s : State) : Host.Outcome State Fault Refusal := .next (telemMiss d s)

/-- TELEM_MISS_HOLD. -/
def execTelemMissHold (pos : Nat) (s : State) : Host.Outcome State Fault Refusal := .next (telemMissHold pos s)

/-- TELEM_LOST. -/
def execTelemLost (pos : Nat) (s : State) : Host.Outcome State Fault Refusal := .next (telemLost pos s)

/-- CLOCK_STEP_DOWN. -/
def execClockStepDown (s : State) : Host.Outcome State Fault Refusal := .next (clockStepDown s)

/-- CLOCK_STEP_UP. -/
def execClockStepUp (s : State) : Host.Outcome State Fault Refusal := .next (clockStepUp s)

/-- STEP_UP_VOLTAGE_CONFIRMED. -/
def execStepUpVoltageConfirmed (s : State) : Host.Outcome State Fault Refusal := .next (stepUpConfirmed s)

/-- STEP_UP_ABANDON. -/
def execStepUpAbandon (s : State) : Host.Outcome State Fault Refusal := .next (stepUpAbandon s)

/-- POWER_SAMPLE. -/
def execPowerSample (r : HubReadings) (s : State) : Host.Outcome State Fault Refusal := .next (powerSample r s)

/-- BAND_FALL. -/
def execBandFall (pos layer : Nat) (s : State) : Host.Outcome State Fault Refusal := .next (bandFall pos layer s)

/-- THROTTLE_FALL. -/
def execThrottleFall (stack : Nat) (s : State) : Host.Outcome State Fault Refusal := .next (throttleFall stack s)

/-- STACK_READOUT_MISSING. -/
def execStackReadoutMissing (stack : Nat) (s : State) : Host.Outcome State Fault Refusal := .next (stackReadoutMissing stack s)

/-- SENSOR_NO_READING. -/
def execSensorNoReading (sensor : Nat) (s : State) : Host.Outcome State Fault Refusal := .next (sensorNoReading sensor s)

/-- SENSOR_FAULT_DECISION. -/
def execSensorFaultDecision (a b : Nat) (s : State) : Host.Outcome State Fault Refusal := .next (sensorFaultDecision a b s)

/-- SENSOR_SUSPECT_CLEAR. -/
def execSensorSuspectClear (sensor : Nat) (s : State) : Host.Outcome State Fault Refusal := .next (sensorSuspectClear sensor s)

/-- SENSOR_SUSPECT_FAULTY. -/
def execSensorSuspectFaulty (sensor : Nat) (s : State) : Host.Outcome State Fault Refusal := .next (sensorSuspectFaulty sensor s)

/-- INLET_HOT. -/
def execInletHot (s : State) : Host.Outcome State Fault Refusal := .next (inletHot s)

/-- RUNG_RISE. -/
def execRungRise (region : Nat) (s : State) : Host.Outcome State Fault Refusal := .next (rungRise region s)

/-- TELEM_READ. -/
def execTelemRead (p : Nat) (s : State) : Host.Outcome State Fault Refusal := .next (telemRead p s)

/-- TELEM_STREAM. -/
def execTelemStream (p : Nat) (s : State) : Host.Outcome State Fault Refusal := .next (telemStream p s)

/-- TELEM_STREAM_PERIOD. -/
def execTelemStreamPeriod (s : State) : Host.Outcome State Fault Refusal := .next (telemPeriod s)

/-- POWER_CAP_SET. -/
def execPowerCapSet (p : Nat) (s : State) : Host.Outcome State Fault Refusal := .next (powerCapSet p s)

/-- POWER_QUERY. -/
def execPowerQuery (p : Nat) (s : State) : Host.Outcome State Fault Refusal := .next (powerQuery p s)

end Sys2Proof.Machine
end

