-- ==== Sys2Proof/Machine/Stops.lean ====
section
/-!
DEFINITION. Stopping for heat (spec/15_power_and_thermal.md R452 to R457; spec/12_command_reference.md R332, R359;
spec/10_sequences_and_kv.md R273, R297): the orderly stop, the clock stop and the hardware trips.
-/
namespace Sys2Proof.Machine

/-- THERMAL_STOP: it begins an orderly stop or joins the one that runs, and replies at once after one (R332). -/
def thermalStop (p : Nat) (s : State) : State :=
  runCmd s p 0x0805 (fun _ =>
    if 2 ≤ s.thermal.stop then finish s p stOk []
    else
      let s1 := beginStop (markStarted s p) 9
      { s1 with thermal := { s1.thermal with waiting := s1.thermal.waiting ++ [p] } })

/-- Cut every core that runs a program and satisfies a test; it returns to IDLE (R184). -/
def cutRunning (s : State) (p : Nat → Bool) : State :=
  s.cores.foldl (fun t e =>
    if p e.1 && e.2.seqr != .idle && e.2.seqr != .faulted then
      modCore (cutCore t e.1) e.1 (fun x => { x with seqr := .idle })
    else t) s

/-- Commands in flight that a stop cuts return ST_THERMAL (R332): one that has begun with its outputs undefined. -/
def cutCommands (s : State) : State :=
  let s1 := stopAll s stThermal (fun k => !thermalOk k.opcode && (k.started || isPending s k))
  s1.packets.foldl (fun t k => if waitsToStart k && !thermalOk k.opcode then fail t k.id stThermal else t) s1

/-- Running step-batches that reached HALT commit; the others commit nothing, and built ones are dropped (Table 15-9, step
2). -/
def endBatches (s : State) : State :=
  let s1 := ((s.batches.filter (·.running)).map (·.slot)).foldl (fun t n => stepBatchCommit n [] t) s
  let s2 := (s1.batches.filter (·.running)).foldl (fun t b => endBatchFailed t b stThermal) s1
  (s2.batches.map (·.slot)).foldl dropBuilt s2

/-- Whether every die that is to hold saved state can take it (R456). -/
def canSave (s : State) : Bool :=
  regionOn s 0 && !(getRegion s 0).windowOut && decide (16 ≤ (getRegion s 0).homeN)
    && (List.range 4).all (fun d => !(tget s.dies d).clocksStopped)

/-- The device address of the copy of the sequence table (Table 10-6). -/
def seqCopyBase : Nat := windowBase 0 + 0x8000000

/-- Write the sequence table to region 0's window. -/
def saveSequences (s : State) : State :=
  s.seqs.foldl (fun t e => { t with mem := compose t.mem (seqCopyBase + 256 * e.1) (seqEntryBytes s e.1) })
    { s with mem := zeroFill s.mem seqCopyBase 1048576 }

/-- M-layers and stacks of C-dies `lo` to `lo + n - 1` enter self-refresh (R205, R257). -/
def selfRefreshDies (s : State) (lo n : Nat) : State :=
  { s with
    layers := tmodRange s.layers (lo * 8) (n * 8) (fun l => { l with selfRefresh := true })
    pcs := tmodRange s.pcs (lo * 128) (n * 128) (fun c => { c with selfRefresh := true }) }

/-- The waiting THERMAL_STOPs reply (Table 15-9, step 6). -/
def answerStops (s : State) (status : Nat) : State :=
  let s1 := s.thermal.waiting.foldl (fun t p => finish t p status []) s
  { s1 with thermal := { s1.thermal with waiting := [] } }

/-- ORDERLY_STOP: steps 2 to 6 of Table 15-9; a region reset under way completes first (R456). -/
def orderlyStop (s : State) : State :=
  if !managerUp s || s.thermal.stop != 1 || s.thermal.clockOrdered || s.resets.any (·.scope == .region) then s
  else
    let s1 := cutRunning (cutCommands (endBatches s)) (fun _ => true)
    let ok := canSave s1
    let s2 := if ok then saveSequences s1 else s1
    let s3 := allCDies (selfRefreshDies s2 0 4) (fun p d => { d with setpoint := setpointOf p 3 })
    let s4 : State := { s3 with
      power := { s3.power with stepTarget := none }
      thermal := { s3.thermal with stop := if ok then 2 else 3, savedState := ok } }
    answerStops (recordFatal s4 { code := 0x0806, level := 3, cls := .deviceFatal, kind := 7, unit := 0, detail := s4.thermal.cause
                                  status := stThermal }) stOk

/-- The clocks of C-dies stop and lose what is in flight (Table 15-10, steps 2 to 4). -/
def stopDies (s : State) (lo n : Nat) : State :=
  let mine := fun c => decide (lo ≤ dieOfCore c) && decide (dieOfCore c < lo + n)
  let s1 := cutRunning s mine
  let s2 := failBatches s1 (fun b => ((List.range 8192).filter mine).any (slotUsesCore (getSlot s1 b.slot))) stThermal
  let s3 := selfRefreshDies s2 lo n
  { s3 with dies := tmodAll s3.dies (rangeFrom lo n) (fun _ d => { d with clocksStopped := true }) }

/-- CLOCK_STOP: the order reaches every C-die. A device that stops its clocks sends no notice (R397). -/
def clockStop (s : State) : State :=
  if !hubRuns s || !s.thermal.clockOrdered || s.thermal.stop == 4 then s
  else
    let s1 := (s.batches.filter (·.running)).foldl (fun t b => endBatchFailed t b stThermal) s
    let s2 := cutCommands (stopDies s1 0 4)
    let s3 : State := { s2 with thermal := { s2.thermal with stop := 4, clockOrdered := false, savedState := false } }
    answerStops (recordMgmt s3 0x0807 .deviceFatal 0 s3.thermal.cause stThermal) stThermal

/-- A C-die stops by its own hardware (R455); H, where it runs, records it and stops the other dies in order. -/
def tripDie (s : State) (pos : Nat) : State :=
  let s1 := stopDies s pos 1
  if hubRuns s then
    let s2 := recordFatal s1 { code := 0x0807, level := 3, cls := .deviceFatal, kind := 7, unit := 0, addr := unitAddr 7 pos
                               detail := 8, status := stThermal }
    if managerUp s then beginStop s2 8 else s2
  else s1

/-- Whether a C-die's comparators act: it has power and is in service. -/
def tripArmed (s : State) (pos : Nat) : Bool := s.pins.pwrok && decide (pos < 4) && dieServes s pos

/-- C_DIE_TRIP: a sensor of the die reached 115 °C. -/
def cDieTrip (pos : Nat) (s : State) : State :=
  if tripArmed s pos then
    let s1 : State := { s with thermal := { s.thermal with tripCdie := s.thermal.tripCdie ||| BitVec.ofNat 4 (2 ^ pos) } }
    if (tget s.dies pos).clocksStopped then s1 else tripDie s1 pos
  else s

/-- M_LAYER_TRIP: a layer reached 112 °C and signals the C-die below. -/
def mLayerTrip (pos layer : Nat) (s : State) : State :=
  if tripArmed s pos && decide (layer < 8) then
    let s1 : State := { s with thermal := { s.thermal with tripMlayer := s.thermal.tripMlayer ||| BitVec.ofNat 4 (2 ^ pos) } }
    if (tget s.dies pos).clocksStopped then s1 else tripDie s1 pos
  else s

/-- HUB_TRIP: H stops every clock but that of the PCIe configuration logic. -/
def hubTrip (s : State) : State :=
  if s.pins.pwrok then modDie { s with thermal := { s.thermal with tripHub := true } } 4 (fun d => { d with clocksStopped := true })
  else s

/-- THERMTRIP_N is driven low while any trip latch is set, and undriven while PWROK is low (R521). -/
def thermtripLow (s : State) : Bool :=
  s.pins.pwrok && (s.thermal.tripCdie != 0 || s.thermal.tripMlayer != 0 || s.thermal.tripHub)

/-! ### The rows of the table -/

/-- THERMAL_STOP. -/
def execThermalStop (p : Nat) (s : State) : Host.Outcome State Fault Refusal := .next (thermalStop p s)

/-- ORDERLY_STOP. -/
def execOrderlyStop (s : State) : Host.Outcome State Fault Refusal := .next (orderlyStop s)

/-- CLOCK_STOP. -/
def execClockStop (s : State) : Host.Outcome State Fault Refusal := .next (clockStop s)

/-- C_DIE_TRIP. -/
def execCDieTrip (pos : Nat) (s : State) : Host.Outcome State Fault Refusal := .next (cDieTrip pos s)

/-- M_LAYER_TRIP. -/
def execMLayerTrip (pos layer : Nat) (s : State) : Host.Outcome State Fault Refusal := .next (mLayerTrip pos layer s)

/-- HUB_TRIP. -/
def execHubTrip (s : State) : Host.Outcome State Fault Refusal := .next (hubTrip s)

end Sys2Proof.Machine
end

