-- ==== Sys2Proof/Machine/Firmware.lean ====
section
/-!
DEFINITION. The Pygrim image, licences and attestation (spec/16_bring_up.md R465 to R480; spec/12_command_reference.md R360,
Table 12-12; spec/11_host_interface.md R325).
-/
namespace Sys2Proof.Machine

/-! ### The Pygrim image (Tables 16-5 to 16-7) -/

/-- Field of a section entry of an image: TYPE, OFFSET, LENGTH; and its digest. -/
def imgType (b : Bytes) (i : Nat) : Nat := fieldAt b (0x200 + 48 * i) 2
def imgOffset (b : Bytes) (i : Nat) : Nat := fieldAt b (0x204 + 48 * i) 4
def imgLength (b : Bytes) (i : Nat) : Nat := fieldAt b (0x208 + 48 * i) 4
def imgDigest (b : Bytes) (i : Nat) : Bytes := (b.drop (0x210 + 48 * i)).take 32
def imgCount (b : Bytes) : Nat := fieldAt b 0x18 2

/-- The bytes of a section. -/
def imgSection (b : Bytes) (i : Nat) : Bytes := (b.drop (imgOffset b i)).take (imgLength b i)

/-- Sections of a type. -/
def imgOfType (b : Bytes) (t : Nat) : List Nat := (List.range (imgCount b)).filter (fun i => imgType b i == t)

/-- Whether the sections of an image are laid out as R469 and R470 state. -/
def imgLayoutOk (b : Bytes) : Bool :=
  let n := imgCount b
  let total := fieldAt b 0x14 4
  let start := 0x200 + 48 * n
  let last := n - 1
  decide (7 ≤ n) && decide (n ≤ 64) && decide (start ≤ total)
    && (List.range n).all (fun i =>
      imgOffset b i % 256 == 0 && decide (start ≤ imgOffset b i) && decide (imgOffset b i + imgLength b i ≤ total)
        && fieldAt b (0x202 + 48 * i) 2 == 0 && fieldAt b (0x20C + 48 * i) 4 == 0
        && (List.range i).all (fun j =>
          decide (imgOffset b i + imgLength b i ≤ imgOffset b j) || decide (imgOffset b j + imgLength b j ≤ imgOffset b i))
        && [1, 2, 3, 4, 5, 6, 0xFF].contains (imgType b i))
    && [1, 2, 3, 5, 6, 0xFF].all (fun t => (imgOfType b t).length == 1)
    && decide (1 ≤ (imgOfType b 4).length) && decide ((imgOfType b 4).length ≤ 58)
    && imgType b last == 0xFF && imgLength b last == 16240 && imgOffset b last + 16240 == total
    && leNat (imgDigest b last) == 0

/-- Step 1 of Table 16-7. -/
def imgHeaderOk (b : Bytes) : Bool :=
  fieldAt b 0 4 == 0x4D524750 && fieldAt b 4 2 == 0x0100 && fieldAt b 0x1FC 4 == crc32c (b.take 0x1FC)
    && bitOf (fieldAt b 6 2) 2 && decide (fieldAt b 6 2 < 8) && decide (fieldAt b 0x14 4 ≤ 67108864)
    && decide (fieldAt b 0x14 4 ≤ b.length) && decide (fieldAt b 0x10 4 ≤ 64) && decide (fieldAt b 0x1A 1 < 4)
    && decide (fieldAt b 0x1B 1 < 2) && fieldAt b 0x1C 4 == 0 && fieldAt b 0x50 428 == 0 && imgLayoutOk b

/-- Step 2: the key. -/
def imgKeyOk (s : State) (b : Bytes) : Bool :=
  let k := fieldAt b 0x1A 1
  Config.sha256 ((b.drop 0x20).take 48) == Config.fwKeyDigest k && !s.flash.fwRevoked.contains k

/-- Step 4: the digests of the sections. -/
def imgDigestsOk (b : Bytes) : Bool :=
  (List.range (imgCount b - 1)).all (fun i => Config.sha256 (imgSection b i) == imgDigest b i)

/-- Step 5: the signature over the bytes before the SIGNATURE section. -/
def imgSignatureOk (b : Bytes) : Bool :=
  let last := imgCount b - 1
  zeroField (imgSection b last) 0 16
    && Config.slhVerify ((b.drop 0x20).take 48) (b.take (imgOffset b last)) ((imgSection b last).drop 16)

/-- REASON of the first check of Table 16-7 that fails; 0 when the image verifies. -/
def imgReason (s : State) (b : Bytes) : Nat :=
  if !imgHeaderOk b then 2
  else if !imgKeyOk s b then 3
  else if fieldAt b 0x10 4 < s.flash.fwCounter then 4
  else if !imgDigestsOk b then 5
  else if !imgSignatureOk b then 6
  else 0

/-- FW_STAGE's status for a REASON. -/
def reasonStatus (r : Nat) : Nat :=
  if r = 2 then stBadPacket else if r = 3 ∨ r = 6 then stBadSignature else if r = 4 then stRollback
  else if r = 5 then stCheckFail else stOk

/-- The image in a flash slot. -/
def flashImage (s : State) (slot : Nat) : Bytes := if slot = 0 then s.flash.image0 else s.flash.image1

/-! ### Licences (Table 16-8) -/

/-- Number of one bits of a 16-bit field. -/
def popcount16 (v : Nat) : Nat := ((List.range 16).filter (bitOf v)).length

/-- Step 1 of R474. -/
def licFieldsOk (b : Bytes) : Bool :=
  fieldAt b 0 4 == 0x4E43494C && fieldAt b 4 2 == 0x0100 && fieldAt b 0x9C 4 == crc32c (b.take 0x9C)
    && decide (fieldAt b 6 1 < 4) && fieldAt b 7 1 == 0 && decide (fieldAt b 0x18 4 ≤ 32)
    && [12, 14, 16].contains (popcount16 (fieldAt b 0x1C 2)) && decide (fieldAt b 0x20 4 < 8)
    && decide (fieldAt b 0x24 1 ≤ 64) && fieldAt b 0x25 1 == 0 && decide (600 ≤ fieldAt b 0x26 2)
    && decide (fieldAt b 0x26 2 ≤ 2400) && fieldAt b 0x58 68 == 0 && decide (16384 ≤ b.length)

/-- Step 2 of R474. -/
def licKeyOk (s : State) (b : Bytes) : Bool :=
  let k := fieldAt b 6 1
  Config.sha256 ((b.drop 0x28).take 48) == Config.licKeyDigest k && !s.flash.licRevoked.contains k

/-- The status of the first check of R474 that fails. -/
def licStatus (s : State) (b : Bytes) : Nat :=
  if !licFieldsOk b then stBadPacket
  else if !licKeyOk s b then stBadSignature
  else if fieldAt b 8 16 ≠ Config.deviceId.toNat then stBadSignature
  else if fieldAt b 0x18 4 < s.flash.licCounter then stRollback
  else if !Config.slhVerify ((b.drop 0x28).take 48) (b.take 0xA0) ((b.drop 0xA0).take 16224) then stBadSignature
  else stOk

/-- The fields of a licence (Table 16-8). -/
def licOf (b : Bytes) : Licence :=
  { raw := b.take 16384, serial := fieldAt b 0x18 4, regions := BitVec.ofNat 16 (fieldAt b 0x1C 2)
    weftLinks := BitVec.ofNat 16 (fieldAt b 0x1E 2), manager := bitOf (fieldAt b 0x20 1) 0
    rilavanik := bitOf (fieldAt b 0x20 1) 1, chiplet := bitOf (fieldAt b 0x20 1) 2
    privSlots := fieldAt b 0x24 1, maxPower := fieldAt b 0x26 2 }

/-! ### LICENCE_INSTALL, FW_STAGE, FW_ACTIVATE -/

/-- What a management command reads from its buffer: the bytes, or the status that ends it; none while the host has not
answered or the range waits. -/
def readBuffer (s : State) (p : Nat) (host : HostData) (u : Buf) : Option (State × Bytes × Nat) :=
  if bufStatus s p false u ≠ stOk then some (s, [], bufStatus s p false u)
  else if bufWaits s u then none
  else if u.host then (hostBytes s host u.len).map (fun b => (s, b, stOk))
  else
    let r := issuerRead s (.command p) [] u.addr u.len
    some (r.1, r.2.data, readStatus r.2.blocks)

/-- Whether BOOT_SRC leaves firmware and licences to the manager and a packet comes from the host (Table 16-3). -/
def hostBarred (s : State) (k : Packet) : Bool := s.pins.straps.bootSrc == 2 && !fromWeft k.src

/-- Whether an earlier LICENCE_INSTALL or FW_STAGE runs (R360). -/
def flashBusy (s : State) (k : Packet) : Bool :=
  (before k.id s.packets).any (fun j => (j.opcode == 0x0901 || j.opcode == 0x0902) && j.answer.isNone && mayStart s j)

/-- A command that writes the flash from its buffer: `f` gets the bytes. -/
def flashCommand (p op most : Nat) (host : HostData) (f : State → Bytes → State) (s : State) : State :=
  runCmd s p op (fun k =>
    if hostBarred s k then fail s p stState
    else if flashBusy s k then fail s p stBusy
    else if most < (bufA k).len then fail s p stBadPacket
    else match readBuffer s p host (bufA k) with
      | none => s
      | some (t, b, st) => if st ≠ stOk then fail t p st else f t b)

/-- LICENCE_INSTALL: a licence that passes goes to the pending area (R474). -/
def licenceInstall (p : Nat) (host : HostData) : State → State :=
  flashCommand p 0x0901 16384 host (fun s b =>
    if licStatus s b ≠ stOk then fail s p (licStatus s b)
    else finish { s with flash := { s.flash with licPending := some (b.take 16384) } } p stOk [])

/-- FW_STAGE: an image that verifies goes to the slot that does not run (R472). -/
def fwStage (p : Nat) (host : HostData) : State → State :=
  flashCommand p 0x0902 67108864 host (fun s b =>
    let st := reasonStatus (imgReason s b)
    if st ≠ stOk then fail s p st
    else
      let image := b.take (fieldAt b 0x14 4)
      let fl := if s.boot.slot = 0 then { s.flash with image1 := image, staged := true }
        else { s.flash with image0 := image, staged := true }
      finish { s with flash := fl } p stOk ((b.drop 8).take 8))

/-! ### The attestation report (Tables 16-9, 16-10) -/

/-- One entry of the report. -/
def attestEntry (id index : Nat) (digest : Bytes) : Bytes :=
  toBytes 2 id ++ toBytes 2 index ++ toBytes 4 0 ++ padTo 32 digest

/-- The darn-map extension copy in use, as the flash holds it (R485). -/
def darnBytes (s : State) : Bytes :=
  let h := toBytes 4 0x4E524144 ++ toBytes 4 s.flash.darnSeq ++ toBytes 4 s.flash.darn.length
  let e := s.flash.darn.flatMap (fun w => toBytes 8 w.toNat)
  h ++ toBytes 4 (crc32c (h ++ e)) ++ List.replicate 16 0 ++ e

/-- The fuse area of the darn map: 1,024 entries, zero where unwritten. -/
def darnFuseBytes (s : State) : Bytes := padTo 8192 (s.flash.darnFuse.flatMap (fun w => toBytes 8 w.toNat))

/-- Whether a die, numbered as HUB_DIE_STRAPSn, responds and is in service. -/
def dieInService (s : State) (d : Nat) : Bool := d == 4 || ((tget s.dies d).dieType != 3 && !(tget s.dies d).heldOut)

/-- Measurement 7: the model slots that are not EMPTY. -/
def slotMeasure (s : State) : Bytes :=
  let l := s.slots.filter (fun e => e.2.phase != .empty)
  attestEntry 7 l.length (Config.sha256 (l.flatMap (fun e =>
    toBytes 2 e.1 ++ (e.2.header.drop 0x40).take 8 ++ Config.sha256 e.2.table)))

/-- The entries that one bit of MASK selects. -/
def attestEntries (s : State) (bit : Nat) : List Bytes :=
  let b := s.boot.image
  match bit with
  | 0 => [attestEntry 0 0 Config.bootRomDigest]
  | 1 => [attestEntry 1 0 (Config.sha256 (if s.pcie.rescueOnly then b else b.take (0x200 + 48 * imgCount b)))]
  | 2 => if s.pcie.rescueOnly then [] else (List.range (imgCount b)).map (fun i => attestEntry 2 i (Config.sha256 (imgSection b i)))
  | 3 => match s.boot.licence with
    | some l => [attestEntry 3 0 (Config.sha256 l.raw)]
    | none => []
  | 4 => attestEntry 4 0 (Config.sha256 (darnFuseBytes s))
      :: (if s.flash.darnValid then [attestEntry 4 1 (Config.sha256 (darnBytes s))] else [])
  | 5 => match s.weft.table with
    | some t => [attestEntry 5 0 (Config.sha256 t)]
    | none => []
  | 6 => ((List.range 6).filter (dieInService s)).map (fun d => attestEntry 6 d (Config.revisionTableDigest d))
  | 7 => [slotMeasure s]
  | _ => []

/-- FLAGS of the report. -/
def attestFlags (s : State) : Nat :=
  b2n s.pcie.rescueOnly + 2 * b2n s.flash.fallback + 4 * b2n s.boot.hostBoot + 8 * b2n s.boot.licence.isNone
    + 16 * b2n s.pcie.warm + 32 * b2n s.flash.chain.isEmpty

/-- The report for a nonce and a mask. -/
def attestReport (s : State) (nonce : Bytes) (mask : Nat) : Bytes :=
  let es := ((List.range 8).filter (bitOf mask)).flatMap (attestEntries s)
  let len := 0x50 + 40 * es.length + 17088 + 4 + s.flash.chain.length
  let version := if s.pcie.rescueOnly then toBytes 8 0 else padTo 8 ((s.boot.image.drop 8).take 8)
  let signed := toBytes 4 0x54535441 ++ toBytes 2 0x0100 ++ toBytes 2 es.length ++ toBytes 4 len ++ toBytes 4 (attestFlags s)
    ++ toBytes 16 Config.deviceId.toNat ++ padTo 32 nonce ++ toBytes 4 mask ++ toBytes 1 s.flash.fwCounter
    ++ toBytes 1 s.flash.licCounter ++ toBytes 2 0 ++ version ++ es.flatten
  signed ++ padTo 17088 (Config.slhSign signed) ++ toBytes 4 s.flash.chain.length ++ s.flash.chain

/-- ATTEST. -/
def attest (p : Nat) (s : State) : State :=
  runCmd s p 0x0904 (fun k =>
    let mask := argAt k 0x30 4
    let u := bufAt k.params 0
    let r := attestReport s (k.args.take 32) mask
    if 256 ≤ mask ∨ u.len < r.length then fail s p stBadPacket
    else fillBuffer s p u r (toBytes 4 r.length))

/-- Answer a DOE request: a reserved bit of the mask gets no report. -/
def doeAnswer (s : State) (r : DoeRequest) : State :=
  let b := match r with
    | .discovery i => Config.doeDiscovery i
    | .attestation nonce mask => if 256 ≤ mask.toNat then [] else attestReport s nonce mask.toNat
  { s with pcie := { s.pcie with doeHeld := none, tx := s.pcie.tx ++ [.doe b] } }

/-- Whether the management core serves the DOE mailbox (R325). -/
def doeServed (s : State) : Bool := hubRuns s && (decide (2 ≤ s.pcie.phase.toNat) || s.pcie.rescueOnly)

/-- DOE_REQUEST: answered, or held until phase 1 ends; one that comes while another is held is not taken. -/
def doeRequest (r : DoeRequest) (s : State) : State :=
  if !hubRuns s || !s.pins.pwrok then s
  else if doeServed s then doeAnswer s r
  else if s.pcie.doeHeld.isSome then s
  else { s with pcie := { s.pcie with doeHeld := some r } }

/-! ### The rows of the table -/

/-- LICENCE_INSTALL. -/
def execLicenceInstall (p : Nat) (host : HostData) (s : State) : Host.Outcome State Fault Refusal := .next (licenceInstall p host s)

/-- FW_STAGE. -/
def execFwStage (p : Nat) (host : HostData) (s : State) : Host.Outcome State Fault Refusal := .next (fwStage p host s)

/-- ATTEST. -/
def execAttest (p : Nat) (s : State) : Host.Outcome State Fault Refusal := .next (attest p s)

/-- DOE_REQUEST. -/
def execDoeRequest (r : DoeRequest) (s : State) : Host.Outcome State Fault Refusal := .next (doeRequest r s)

end Sys2Proof.Machine
end

