-- ==== Sys2Proof/Machine/Topology.lean ====
section
/-!
DEFINITION. Weft links in and out of service and the expected topology (spec/13_weft_links.md R378 to R382, R392, R398 to
R400; spec/16_bring_up.md R467, R476, R481 to R484; spec/12_command_reference.md R361, R367): training, leaving service,
the selvedge check, TOPOLOGY_SET, ROLE_SET, LINK_TEST, and the device reporting ready.
-/
namespace Sys2Proof.Machine

/-! ### Messages as bytes (Table 13-6) -/

/-- The message that bytes spell on a virtual channel. -/
def msgOf (vc : Nat) (b : Bytes) : Msg :=
  let h := fieldAt b 0 16
  { dest := bitsOf h 17 0, src := bitsOf h 35 18, kind := bitsOf h 39 36, hops := bitsOf h 49 45, linkLocal := bitOf h 50
    relay := bitOf h 51, final := bitsOf h 81 64, spec := BitVec.ofNat 128 (fieldAt b 16 16), body := b.drop 32, vc := vc }

/-- The bytes of the queued messages of a virtual channel of which nothing was sent. -/
def unsentOn (vc : Nat) : List (Nat × Bytes) → Option Bytes → List Bytes
  | [], _ => []
  | (k, b) :: t, acc =>
    if k % 4 ≠ vc then unsentOn vc t acc
    else
      let now := if bitOf k 2 then some b else acc.map (· ++ b)
      if bitOf k 3 then (match now with
        | some m => m :: unsentOn vc t none
        | none => unsentOn vc t none)
      else unsentOn vc t now

/-- The messages of a link that have not started on it. -/
def unsentMsgs (l : WeftLink) : List Msg :=
  (List.range 4).flatMap (fun vc => (unsentOn vc l.queued none).map (fun b => msgOf vc b))

/-! ### Width and standing of a link -/

/-- Lanes of a WIDTH code (Table 13-15). -/
def lanesOf (width : Nat) : Nat := if width = 3 then 8 else if width = 2 then 4 else if width = 1 then 2 else 0

/-- The width that usable lanes give, with the lanes in use (R379). -/
def widthFor (lanes : BitVec 8) : Option (BitVec 2 × BitVec 8) :=
  firstThat (fun c => lanes &&& c.2 == c.2)
    [(3, 0xFF), (2, 0x0F), (2, 0xF0), (1, 0x03), (1, 0x0C), (1, 0x30), (1, 0xC0)]

/-- What the table requires of a link: WIDTH_REQ, FLAGS; 0 without a table. -/
def requiredWidth (s : State) (l : Nat) : Nat := (s.weft.table.map (leWidth · l)).getD 0
def linkFlags (s : State) (l : Nat) : Nat := (s.weft.table.map (leFlags · l)).getD 0

/-- The report's entry of a link at a width (Table 17-12, KIND 0x08). -/
def linkItem (l lanes : Nat) : Word64 := listEntry 0x08 (l + lanes * 16)

/-- The degraded state of a link: missing though optional, narrower than required or than it trained (R18, Table 13-5), or out
though required (Table 17-11). -/
def linkStanding (s : State) (l : Nat) : Option (Nat × Word64) :=
  let need := requiredWidth s l
  let have_ := lanesOf (getLink s l).width.toNat
  if need = 0 then none
  else if !linkInService s l then some (if bitOf (linkFlags s l) 0 then 13 else 14, linkItem l 0)
  else if have_ < need ∨ (getLink s l).fell = true then some (13, linkItem l have_)
  else none

/-- Bring the report's view of a link up to date: its entry ends when the link meets its table entry again. -/
def relist (s : State) (l : Nat) : State :=
  let c := s.capacity
  let new := linkStanding s l
  let old := [13, 14].flatMap (fun b => [0, 2, 4, 8].map (fun w => (b, linkItem l w)))
  let stands := fun (e : Nat × Word64) => c.standing.contains (e.1, some e.2) || c.pendingSet.contains (e.1, some e.2)
  let s1 := (old.filter (fun e => stands e && new != some e)).foldl (fun t e => undegrade t e.1 (some e.2)) s
  match new with
  | none => s1
  | some e => if stands e then s1 else degrade s1 e.1 (some e.2)

/-! ### Coming into and leaving service -/

/-- Credits that a full input buffer grants (Table 13-4). -/
def fullCredits : List Nat := [192, 128, 128, 64]

/-- The link layer of a link that has just come up (R376, R377). -/
def freshLink (k : WeftLink) : WeftLink :=
  { k with
    nextSeq := 0, expected := 0, got := false, nakSent := false, sinceAck := 0, replay := [], credits := fullCredits
    rxPart := [], resendSeq := 0, resends := 0, fell := false }

/-- This device's identity flit on a link (R378). -/
def identityFlit (s : State) (l : Nat) : Bytes :=
  flitOf (flitHeader flCtrl 0 0 false false 0 0)
    (Config.identityPayload ((ownDevice s).getD 0) s.weft.table.isNone l s.weft.manager
      ((s.weft.table.map (fun t => fieldAt t 0xC 4)).getD 0)) (linkControl (getLink s l) false)

/-- Send an identity flit. -/
def sendIdentity (s : State) (l : Nat) : State := modLink s l (fun k => { k with sent := k.sent ++ [identityFlit s l] })

/-- Below WIDTH_REQ: DEGRADED, a record, the report, and a LINK_DEGRADED notice (R379, R380). -/
def noteNarrow (s : State) (l : Nat) : State :=
  let s1 := modLink s l (fun k => { k with degraded := true })
  let s2 := recordDie s1 (l / 4) 0x0601 .contained (unitAddr 4 l) 0 stDegraded
  sendNotice (relist s2 l) 3 l stDegraded (lastRecord s2)

/-- A link trains: it comes into service at the width that both ends' lanes give, or stays out (R378, R379). -/
def trainLink (s : State) (l : Nat) (t : WeftTraining) : State :=
  match widthFor t.lanes with
  | none => relist (modLink s l (fun k => { k with state := 3, width := 0, lanes := 0 })) l
  | some (w, m) =>
    let s1 := modLink s l (fun k => pumpLink { freshLink k with
      state := 2, width := w, lanes := m, degraded := false, remote := some t.identity })
    let s2 := sendIdentity s1 l
    if lanesOf w.toNat < requiredWidth s l then noteNarrow s2 l else relist s2 l

/-- Send a message that a link had not started, by another link; one for the link's far end is lost with it. -/
def resendElsewhere (s : State) (m : Msg) : State := if m.linkLocal then s else sendMsg s m

/-- A link leaves service (R381): what was partly sent or received is lost, what had not started is routed again. -/
def linkOut (s : State) (l : Nat) : State :=
  let k := getLink s l
  if k.state ≠ 2 then relist (modLink s l (fun x => { x with state := if x.state = 1 then 3 else x.state })) l
  else
    let s1 := modLink s l (fun x => { freshLink x with
      state := 3, width := 0, lanes := 0, degraded := false, queued := [], credits := [0, 0, 0, 0] })
    let s2 := recordDie s1 (l / 4) 0x0602 .contained (unitAddr 4 l) 0 stDegraded
    let s3 := sendNotice (relist s2 l) 4 l stDegraded (lastRecord s2)
    (unsentMsgs k).foldl resendElsewhere s3

/-- Take a link out and turn its transmitters off until the next bring-up (R400). -/
def disableLink (s : State) (l : Nat) : State :=
  let s1 := linkOut s l
  relist (modLink s1 l (fun k => { k with state := 3, disabled := true })) l

/-! ### The selvedge check (Table 16-11) -/

/-- Whether the far end is the one the table names (R482). -/
def farMatches (t : Bytes) (l : Nat) (i : WeftIdentity) : Bool :=
  if i.unnumbered then i.link == leLink t l else i.device == leDevice t l && i.link == leLink t l

/-- The result of a link's row of Table 16-11: 0, or the KIND of its discrepancy. -/
def judge (s : State) (t : Bytes) (l : Nat) : Nat :=
  let f := leFlags t l
  let k := getLink s l
  let lanes := lanesOf k.width.toNat
  if leWidth t l = 0 then 0
  else if !linkInService s l then
    if bitsOf f 3 2 = 1 then 4 else if bitOf f 0 then 0 else 1
  else if !(k.remote.any (farMatches t l)) then 3
  else if leWidth t l ≤ lanes then 0
  else if bitOf f 1 && decide (leMin t l ≤ lanes) then 0
  else 2

/-- The entry of a discrepancy (Table 16-12). -/
def discrepancyEntry (s : State) (l kind : Nat) : Nat :=
  let k := getLink s l
  let far := match k.remote with
    | none => 0
    | some i => i.link % 16 * 4096 + i.device % 262144 * 65536 + 2 ^ 34 + b2n i.unnumbered * 2 ^ 35
  l % 16 + kind * 16 + lanesOf k.width.toNat * 256 + far

/-- A discrepancy writes its record; a wrong peer's link leaves service (R482, R483). -/
def discrepancy (s : State) (l kind : Nat) : State :=
  let s1 := recordMgmt s 0x0607 .contained (discrepancyEntry s l kind) 0 stTopology
  if kind = 3 then linkOut s1 l else s1

/-- The number that stands for the missing table among the discrepancies. -/
abbrev noTable : Nat := 16

/-- Judge every link: links in service that the table does not use leave, and discrepancies are recorded. -/
def selvedge (s : State) : State :=
  match s.weft.table with
  | none =>
    if (match s.boot.licenceRead with
        | some l => l.weftLinks != 0
        | none => false)
    then
      let s1 := recordMgmt s 0x0607 .contained (discrepancyEntry s noTable 5) 0 stTopology
      { s1 with weft := { s1.weft with discrepancies := [noTable] } }
    else { s with weft := { s.weft with discrepancies := [] } }
  | some t =>
    let s1 := ((List.range 16).filter (fun l => leWidth t l == 0 && linkInService s l)).foldl linkOut s
    let bad := (List.range 16).filterMap (fun l => let k := judge s1 t l; if k = 0 then none else some (l, k))
    let s2 := bad.foldl (fun u b => discrepancy u b.1 b.2) s1
    let s3 := (List.range 16).foldl (fun u l =>
      relist (modLink u l (fun k => { k with degraded := k.state == 2 && decide (lanesOf k.width.toNat < leWidth t l) })) l) s2
    { s3 with weft := { s3.weft with discrepancies := bad.map (·.1) } }

/-! ### Reporting ready (R301, R467, R483) -/

/-- The image that was tried commits (R467). -/
def commitImage (s : State) : State :=
  match s.flash.pending with
  | none => s
  | some slot =>
    let b := s.boot.image
    let revoked := if bitOf (fieldAt b 0x1B 1) 0 then List.range (fieldAt b 0x1A 1) else []
    { s with flash := { s.flash with
        active := slot, pending := none, fallback := false
        fwCounter := Nat.max s.flash.fwCounter (fieldAt b 0x10 4)
        fwRevoked := (s.flash.fwRevoked ++ revoked).eraseDups } }

/-- READY rises; vector 0 and a READY notice follow. -/
def reportReady (s : State) : State :=
  let s1 := commitImage { s with pcie := { s.pcie with ready := true, topology := false } }
  sendNotice (sendVector s1 0) 2 0 stOk []

/-- The selvedge check holds the device not ready. -/
def holdTopology (s : State) : State :=
  sendNotice (sendVector { s with pcie := { s.pcie with topology := true } } 0) 2 0 stTopology []

/-! ### TOPOLOGY_SET (R361, R398, R399) -/

/-- Bytes of a topology table (Table 13-12). -/
abbrev tableBytes : Nat := 4420

/-- Whether a route entry names no link that the table does not use; slots are ignored with VIA_MANAGER. -/
def routeOk (t : Bytes) (e : Nat) : Bool :=
  decide (e < 2 ^ 21) && (bitOf e 20 || (List.range 4).all (fun i =>
    !bitOf e (5 * i + 4) || leWidth t (bitsOf e (5 * i + 3) (5 * i)) != 0))

/-- Whether a link entry keeps its field ranges. -/
def linkEntryOk (t : Bytes) (l : Nat) : Bool :=
  let o := 0x40 + 16 * l
  decide (fieldAt t o 4 < 262144) && decide (fieldAt t (o + 4) 1 < 16) && [0, 2, 4, 8].contains (leWidth t l)
    && decide (leFlags t l < 12) && zeroField t (o + 8) 8
    && (!bitOf (leFlags t l) 1 || leMin t l == 2 || leMin t l == 4)

/-- Whether R399 refuses none of a table's fields. -/
def tableOk (s : State) (t : Bytes) : Bool :=
  fieldAt t 0 4 == 0x4F504F54 && fieldAt t 4 2 == 0x0100 && fieldAt t 0x1140 4 == crc32c (t.take 0x1140)
    && zeroField t 6 2 && decide (fieldAt t 8 4 < 262144) && zeroField t 0x12 46
    && decide (1 ≤ fieldAt t 0x10 2) && decide (fieldAt t 0x10 2 ≤ 60000)
    && (List.range 16).all (linkEntryOk t)
    && decide (((List.range 16).filter (fun l => bitsOf (leFlags t l) 3 2 == 1)).length ≤ 1)
    && (List.range 1024).all (fun i => routeOk t (fieldAt t (0x140 + 4 * i) 4))
    && (!s.pcie.ready || ownDevice s == none || ownDevice s == some (fieldAt t 8 4))

/-- Install a table: it replaces the route tables and is kept in the flash; a fresh identity goes out on every link in
service (R484). -/
def installTable (s : State) (t : Bytes) : State :=
  let s1 : State := { s with
    weft := { s.weft with table := some t }, flash := { s.flash with topology := some t } }
  let s2 := ((List.range 16).filter (fun l => leWidth t l == 0 && linkInService s1 l)).foldl linkOut s1
  ((List.range 16).filter (linkInService s2)).foldl sendIdentity s2

/-- After a table is installed: the check runs again once phase 4 has run it, and READY follows when it passes. -/
def afterTable (s : State) (p : Nat) : State :=
  if s.pcie.phase.toNat < 5 then finish s p stOk (toBytes 4 0)
  else
    let s1 := selvedge s
    let n := s1.weft.discrepancies.length
    if n ≠ 0 then fail s1 p stTopology n
    else if s1.pcie.topology then finish (reportReady s1) p stOk (toBytes 4 0)
    else finish s1 p stOk (toBytes 4 0)

/-- TOPOLOGY_SET: from a buffer, or from the body of a manager's message. -/
def topologySet (p : Nat) (host : HostData) (s : State) : State :=
  runCmd s p 0x0905 (fun k =>
    let take := fun (t : State) (b : Bytes) =>
      if b.length < tableBytes ∨ ¬ tableOk t (b.take tableBytes) then fail t p stBadPacket
      else afterTable (installTable t (b.take tableBytes)) p
    if fromWeft k.src && !k.params.isEmpty then take s k.params
    else if (bufA k).len < tableBytes then fail s p stBadPacket
    else match readBuffer s p host { bufA k with len := tableBytes } with
      | none => s
      | some (t, b, st) => if st ≠ stOk then fail t p st else take t b)

/-! ### ROLE_SET and LINK_TEST -/

/-- ROLE_SET: kept in the boot flash (R392). -/
def roleSet (p : Nat) (s : State) : State :=
  runCmd s p 0x0906 (fun k =>
    let on := bitOf (argAt k 0x10 4) 0
    let d := argAt k 0x14 4
    let up := if ownDevice s = some d then none else some d
    if on ∧ ¬ (s.boot.licence.any (·.manager)) then fail s p stNotLicensed
    else finish { s with
      flash := { s.flash with manager := on, ownManager := up }
      weft := { s.weft with manager := on, ownManager := up } } p stOk [])

/-- LINK_TEST: its first step starts the test, its next ends it with what the link found (R367, R400). -/
def linkTest (p errors : Nat) (lanes : BitVec 8) (s : State) : State :=
  let s1 := onStarted s p 0x0B02 (fun k =>
    finish (modLink s (argAt k 0x10 4) (fun x => { x with test := false, state := 3 })) p stOk
      (toBytes 4 errors ++ toBytes 4 lanes.toNat))
  if (getPacket s p).any (·.started) then s1
  else runCmd s p 0x0B02 (fun k =>
    let l := argAt k 0x10 4
    if 16 ≤ l ∨ 4 ≤ argAt k 0x14 4 ∨ 60000000 < argAt k 0x18 4 then fail s p stBadPacket
    else if (getLink s l).state = 2 ∨ (getLink s l).state = 1 ∨ (getLink s l).test = true then fail s p stState
    else markStarted (modLink s l (fun x => { x with test := true })) p)

/-! ### The rows of the table -/

/-- TOPOLOGY_SET. -/
def execTopologySet (p : Nat) (host : HostData) (s : State) : Host.Outcome State Fault Refusal := .next (topologySet p host s)

/-- ROLE_SET. -/
def execRoleSet (p : Nat) (s : State) : Host.Outcome State Fault Refusal := .next (roleSet p s)

/-- LINK_TEST. -/
def execLinkTest (p : Nat) (errors : Nat) (lanesFailing : BitVec 8) (s : State) : Host.Outcome State Fault Refusal :=
  .next (linkTest p errors lanesFailing s)

end Sys2Proof.Machine
end

