-- ==== Sys2Proof/Machine/Resets.lean ====
section
/-!
DEFINITION. Containment and the resets inside the device (spec/17_errors_and_resets.md R503 to R512, Tables 17-6 to 17-9;
spec/01_organisation.md R29, R39 to R42; spec/07_near_memory.md R206, R207; spec/12_command_reference.md R339, R362 to
R364). A reset is ordered, which puts its units in reset, and its row of the table carries it out and ends it.
-/
namespace Sys2Proof.Machine

/-! ### Orders -/

/-- The cores that an order covers: the first and their number; none for the device scopes. -/
def orderCores (o : ResetOrder) : Nat × Nat :=
  match o.scope with
  | .core => (o.unit, 1)
  | .block => (64 * o.unit, 64)
  | .region => (512 * o.unit, 512)
  | _ => (0, 0)

/-- Whether two orders have a unit in common (R42). -/
def ordersMeet (a b : ResetOrder) : Bool :=
  let x := orderCores a
  let y := orderCores b
  decide (x.1 < y.1 + y.2) && decide (y.1 < x.1 + x.2)

/-- Put the units of an order into reset, or take them out. -/
def flagUnits (v : Bool) (s : State) (o : ResetOrder) : State :=
  let x := orderCores o
  let s1 : State := { s with cores := tmodRange s.cores x.1 x.2 (fun c => { c with inReset := v }) }
  if o.scope = .region then
    modRegion { s1 with pcs := tmodAll s1.pcs (nominalHome o.unit) (fun _ p => { p with inReset := v, selfRefresh := v }) } o.unit
      (fun g => { g with inReset := v })
  else s1

/-- Whether a region's controller, page services or units serve a command (Table 12-3). -/
def servedByRegion (s : State) (r : Nat) (k : Packet) : Bool :=
  commandLead s k == some r
    || (k.opcode / 256 == 3 &&
        let sl := getSlot s (getSeq s k.context).modelSlot
        ((namedPairs sl (argAt k 0x10 4)).getD []).any (fun q => pairService sl q.1 q.2 == r))
    || (k.opcode == 0x0B01 &&
        (if bitOf (argAt k 0x10 4) 0 then regionOfPc (argAt k 0x14 4) == r else argAt k 0x14 4 / 4096 == r))

/-- Order a reset (step 1 of Tables 17-8 and 17-9); commands that the units serve end (R339). -/
def orderReset (s : State) (o : ResetOrder) : State :=
  let o1 := { o with start := counterOf s 4 }
  let s1 := flagUnits true { s with resets := s.resets ++ [o1] } o1
  if o.scope = .region then stopAll s1 stInReset (servedByRegion s1 o.unit) else s1

/-- Whether an order of a scope, unit and cause is to be carried out. -/
def orderFor (s : State) (scope : Scope) (unit : Nat) (cause : ResetCause) : Option ResetOrder :=
  firstThat (fun o => o.scope == scope && o.unit == unit && o.cause == cause && !o.done) s.resets

/-! ### What the resets do -/

/-- The cores `lo` to `lo + n - 1` (Table 17-8, steps 2 and 3): slots cut, runs and waits gone, stores zeroed, everything but
their binding at its reset value. The step-batches that use one commit no row (R511). -/
def coresReset (s : State) (lo n : Nat) : State :=
  let mine := fun c => decide (lo ≤ c) && decide (c < lo + n)
  let uses := fun (sl : ModelSlot) => (roleCores sl).any mine || sl.tiles.any (fun t => t.kind != 3 && mine t.core)
  let s1 := (s.batches.filter (fun b => b.running && uses (getSlot s b.slot))).foldl (fun t b =>
    endBatchFailed t b (b.failed.getD stInReset)) s
  let s2 := ((s1.cores.filter (fun e => mine e.1)).map (·.1)).foldl cutCore s1
  { s2 with
    cores := tmodRange s2.cores lo n (fun c =>
      { absent := c.absent, spare := c.spare, fenced := c.fenced, selfFenceAt := c.selfFenceAt, inReset := c.inReset })
    mem := zeroFill s2.mem (storeBase lo) (n * 0x40000)
    errors := { s2.errors with sources := s2.errors.sources.filter (fun e => !mine e.1) } }

/-- Sources of a KIND and range of units restart their sequence numbers (Table 17-2). -/
def restartSources (s : State) (kind lo n : Nat) : State :=
  { s with errors := { s.errors with sources := s.errors.sources.filter (fun e =>
      decide (e.1 < kind * 1048576 + lo) || decide (kind * 1048576 + lo + n ≤ e.1)) } }

/-- A channel controller after a region reset: what the darn map, the power manager and R210's counts give it stays. -/
def chanAfter (c : Chan) : Chan :=
  { band := c.band, relaxed := c.relaxed, bankOut := c.bankOut
    bankOutAt := c.bankOutAt, chOut := c.chOut, uncorrRows := c.uncorrRows, corrLog := c.corrLog, tsvBits := c.tsvBits
    queue := c.queue }

/-- A home controller after a region reset. -/
def pcAfter (p : FarPc) : FarPc :=
  { out := p.out, selfRefresh := p.selfRefresh, inReset := p.inReset, hole := p.hole, position := p.position
    uncorrRows := p.uncorrRows, queue := p.queue }

/-- No finding of a generator run. -/
def quietRun : TgResult := { errors := 0, firstAddr := 0, firstInfo := 0, banks := [] }

/-- Issuers of a region. -/
def issuerIn (r : Nat) : Issuer → Bool
  | .engine c _ => regionOfCore c == r
  | .bobbins ch => ch / 4096 == r
  | .regionCtl q => q == r
  | .pageService q => q == r
  | _ => false

/-- A region (Table 17-9, steps 2 to 6): its cores, bobbin runs, waits and controllers; memory, sequences, page tables and
placements stay. -/
def regionReset (s : State) (r : Nat) : State :=
  let s1 := coresReset s (512 * r) 512
  let mine := (s1.chans.filter (fun e => e.1 / 4096 == r)).map (·.1)
  let s2 := mine.foldl (fun t ch => endTg (abandonRun t ch 0 stAborted) ch quietRun) s1
  let s3 := dropWaits ((nominalHome r).foldl (fun t pc => endFarTg t pc quietRun) s2) (issuerIn r)
  let s4 : State := { s3 with
    chans := tmodRange s3.chans (r * 4096) 4096 chanAfter, pcs := tmodAll s3.pcs (nominalHome r) (fun _ => pcAfter) }
  let s5 := modRegion { s4 with chk := terase (terase s4.chk (16 + 2 * r)) (17 + 2 * r) } r (fun g => { g with
    admitQueue := [], active := 0 })
  let s6 := restartSources (restartSources s5 1 (r * 4096) 4096) 2 (r * 8) 8
  let s7 := (nominalHome r).foldl (fun t pc => restartSources t 5 pc 1) (restartSources (restartSources s6 3 r 1) 4 r 1)
  s7

/-- Carry an order out. -/
def carryOut (s : State) (o : ResetOrder) : State :=
  match o.scope with
  | .core => coresReset s o.unit 1
  | .block => restartSources (coresReset s (64 * o.unit) 64) 2 o.unit 1
  | .region => regionReset s o.unit
  | _ => s

/-! ### Completion (R510) -/

/-- SCOPE and CAUSE of DETAIL (R499). -/
def scopeCode : Scope → Nat
  | .core => 0
  | .block => 1
  | .region => 2
  | .warm => 3
  | .cold => 4
  | .mLayer => 5
  | .cDie => 6

def causeCode : ResetCause → Nat
  | .command => 0
  | .containment => 1
  | .rescue => 2
  | .pcie => 3
  | .fwActivate => 4
  | .deviceFatal => 5
  | .watchdog => 6

/-- DETAIL of RESET_DONE and RESET_FAILED: scope, cause and the duration in microseconds, saturating. -/
def resetDetail (s : State) (o : ResetOrder) : Nat :=
  scopeCode o.scope + causeCode o.cause * 16 + Nat.min (since (counterOf s 4) o.start / 100) 0xFFFFFF * 256

/-- ADDRESS of an order's unit; a device scope names none. -/
def resetAddr (o : ResetOrder) : Nat :=
  match o.scope with
  | .core => unitAddr 0 o.unit
  | .block => unitAddr 5 o.unit
  | .region => unitAddr 6 o.unit
  | .mLayer => unitAddr 11 o.unit
  | .cDie => unitAddr 7 o.unit
  | _ => 0

/-- The RESET_DONE record: its level is the scope's, its source the controller that carries the reset out. -/
def resetRecord (s : State) (o : ResetOrder) : State :=
  let src := match o.scope with
    | .core => (0, 2, o.unit / 64)
    | .block => (1, 3, o.unit / 8)
    | .region => (2, 7, 0)
    | .mLayer => (3, 6, o.unit / 8)
    | _ => (3, 7, 0)
  record s { code := 0x0A01, level := src.1, cls := if o.cause = .command then .corrected else .contained, kind := src.2.1
             unit := src.2.2, addr := resetAddr o, detail := resetDetail s o }

/-- A reset is reported: its record, and the command or mailbox that ordered it. -/
def reportReset (s : State) (o : ResetOrder) : State :=
  let s1 := resetRecord s o
  let s2 := match o.packet with
    | some p => finish s1 p stOk []
    | none => s1
  match o.mailbox with
  | some m => rescueAnswer s2 m stOk [] []
  | none => s2

/-- Orders that are carried out and meet none that is not leave reset and are reported (R42). -/
def settleResets (s : State) : State :=
  let ready := s.resets.filter (fun o => o.done && s.resets.all (fun x => x.done || !ordersMeet o x))
  let s1 : State := { s with resets := s.resets.filter (fun o => !ready.contains o) }
  let s2 := ready.foldl (flagUnits false) s1
  let s3 := (s2.resets.filter (fun o => !o.done)).foldl (flagUnits true) s2
  ready.foldl reportReset s3

/-- Whether the clocks of an order's die run. -/
def orderClocked (s : State) (o : ResetOrder) : Bool :=
  hubRuns s && !(tget s.dies (dieOfCore (orderCores o).1)).clocksStopped

/-- Carry out and settle the order of a scope, unit and cause. -/
def runReset (s : State) (scope : Scope) (unit : Nat) (cause : ResetCause) : State :=
  match orderFor s scope unit cause with
  | none => s
  | some o =>
    if orderClocked s o then
      let s1 := carryOut s o
      settleResets { s1 with resets := modFirst (· == o) (fun x => { x with done := true }) s1.resets }
    else s

/-! ### Containment (Table 17-6) -/

/-- Whether a core is in service in an enabled region. -/
def coreServes (s : State) (c : Nat) : Bool :=
  decide (c < 8192) && !(getCore s c).absent && !(getCore s c).fenced && regionOn s (regionOfCore c)
    && !(getRegion s (regionOfCore c)).inReset && !(getCore s c).inReset

/-- CORE_SELF_FENCE: every slot is cut, the sequencer is FAULTED with CAUSE 0x00 and the block controller orders a core
reset; at the third within a second the core is fenced. -/
def coreSelfFence (core : Nat) (s : State) : State :=
  if !coreServes s core || (getCore s core).selfFenced then s
  else
    let c := getCore s core
    let now := counterOf s (dieOfCore core)
    let times := c.selfFenceAt.filter (fun t => decide (since now t < countsPerSecond)) ++ [now]
    let s1 := modCore (cutCore s core) core (fun x => { x with
      seqr := .faulted, faultIndex := BitVec.ofNat 9 c.pc, faultCause := 0, faultStatus := 0, selfFenced := true
      selfFenceAt := times })
    let s2 := recordCore s1 core 0x0105 .contained (unitAddr 0 core)
    let s3 := match slotOfCore c with
      | none => s2
      | some n => failBatches s2 (fun b => b.slot == n) stInReset
    let s4 := orderReset s3 { scope := .core, unit := core, cause := .containment }
    if 3 ≤ times.length then fenceCore s4 core 2 else s4

/-- BLOCK_HEARTBEAT_MISS: a block reset. -/
def blockHeartbeatMiss (b : Nat) (s : State) : State :=
  if 128 ≤ b || !regionOn s (b / 8) || (getRegion s (b / 8)).inReset || (orderFor s .block b .containment).isSome then s
  else orderReset s { scope := .block, unit := b, cause := .containment }

/-- REGION_HEARTBEAT_MISS: a REGION_CONTROLLER_LOST record and a region reset. -/
def regionHeartbeatMiss (r : Nat) (s : State) : State :=
  if 16 ≤ r || !managerUp s || !regionOn s r || (getRegion s r).inReset then s
  else
    let s1 := recordMgmtAt s 2 0x0A03 .regionFatal (unitAddr 6 r)
    orderReset s1 { scope := .region, unit := r, cause := .containment }
where
  /-- A record of the management core at a level of its own. -/
  recordMgmtAt (s : State) (level code : Nat) (cls : RecClass) (addr : Nat) : State :=
    record s { code := code, level := level, cls := cls, kind := 7, unit := 0, addr := addr }

/-- DEVICE_FATAL_RESET_TIMER: 10 ms after a record that R504 names. -/
def fatalResetTimer (s : State) : State :=
  if s.errors.fatalPending && managerUp s then
    orderReset { s with errors := { s.errors with fatalPending := false } } { scope := .warm, unit := 0, cause := .deviceFatal }
  else s

/-- WATCHDOG_EXPIRY: the watchdog runs from the end of phase 1 and not under RESCUE_ONLY (R505). -/
def watchdogExpiry (s : State) : State :=
  if managerUp s && !s.pcie.rescueOnly then orderReset s { scope := .warm, unit := 0, cause := .watchdog } else s

/-! ### M-layer and C-die resets (R206, R207) -/

/-- A bobbin run is abandoned by a reset of its layer; the program that started it is aborted (log 41). -/
def dropRun (s : State) (ch : Nat) : State :=
  match (getChan s ch).run with
  | none => s
  | some r => programAbort r.core (abandonRun s ch 0 stAborted)

/-- The order of a layer's reset that is under way. -/
def layerOrder (s : State) (unit : Nat) : Option ResetOrder :=
  firstThat (fun o => o.scope == .mLayer && o.unit == unit) s.resets

/-- The queues of a layer's channels. -/
def layerQueues (s : State) (pos layer : Nat) : List QueueAt :=
  (queuesInUse s).filter (fun x => match x with
    | .near ch => ch / 16384 == pos && ch % 8 == layer
    | .far _ => false)

/-- Steps 2 to 4 of Table 07-5: the layer enters self-refresh, its runs are abandoned, and its accesses are refused. -/
def layerResetBegin (pos layer : Nat) (s : State) : State :=
  let unit := pos * 8 + layer
  let s1 : State := { s with
    layers := tmod s.layers unit (fun l => { l with selfRefresh := true, inReset := true })
    resets := s.resets ++ [{ scope := .mLayer, unit := unit, cause := .containment, start := counterOf s 4 }] }
  let mine := (s1.chans.filter (fun e => e.1 / 16384 == pos && e.1 % 8 == layer)).map (·.1)
  let s2 := mine.foldl dropRun s1
  (layerQueues s2 pos layer).foldl drainQueue s2

/-- The layer serves again, unless a stop holds it in self-refresh (R205). -/
def layerLeaves (pos layer : Nat) (s : State) : State :=
  let s1 : State := { s with layers := tmod s.layers (pos * 8 + layer) (fun l => { l with
    selfRefresh := decide (2 ≤ s.thermal.stop), inReset := false }) }
  (layerQueues s1 pos layer).foldl drainQueue s1

/-- The reset of a layer ends and is reported. -/
def layerResetEnd (s : State) (o : ResetOrder) : State :=
  resetRecord (layerLeaves (o.unit / 8) (o.unit % 8) { s with resets := s.resets.filter (· != o) }) o

/-- M_LAYER_RESET: the layer's reset begins, unless one is under way (Table 07-5, steps 1 to 4); every row keeps its contents.
It ends 20 µs later, or at the die's RESET_DONE (log 105). -/
def mLayerReset (pos layer : Nat) (s : State) : State :=
  if !managerUp s || decide (4 ≤ pos) || decide (8 ≤ layer) || !dieServes s pos || (tget s.dies pos).clocksStopped then s
  else if (layerOrder s (pos * 8 + layer)).isSome then s
  else layerResetBegin pos layer s

/-- Counts of a local counter from the order of an M-layer reset to its last bound (Table 07-5, step 5). -/
def layerBound : Nat := 2000

/-- Layers whose reset has run for its bound serve again. -/
def layersDue (s : State) : State :=
  (s.resets.filter (fun o => o.scope == .mLayer && decide (layerBound ≤ since (counterOf s 4) o.start))).foldl layerResetEnd s

/-- One edge of the reference with nothing commanded: the counters count, the check units' FIFOs drain, layers leave their
resets, and the controllers serve what is queued (log 21). -/
def tick (s : State) : State := drainQueues (layersDue (clockEdge s))

/-- A weft link at its C-die's reset: its link layer starts again; what was received and sent stays so. -/
def linkAfterReset (l : WeftLink) : WeftLink := { disabled := l.disabled, rxMsgs := l.rxMsgs, sent := l.sent }

/-- C_DIE_RESET: of a die that H has taken out of service (R40, R207): the C-die domain of Table 01-9 and its layers; the
layers stay in self-refresh and the die in reset until a bring-up. -/
def cDieReset (pos : Nat) (s : State) : State :=
  if !managerUp s || decide (4 ≤ pos) || !(tget s.dies pos).heldOut || (tget s.dies pos).inReset then s
  else
    let mine := (s.chans.filter (fun e => e.1 / 16384 == pos)).map (·.1)
    let s1 := selfRefreshDies (mine.foldl (fun t ch => abandonRun t ch 0 stAborted) s) pos 1
    let s2 : State := { s1 with
      layers := tmodRange s1.layers (pos * 8) 8 (fun l => { l with inReset := true })
      sensors := tmodRange s1.sensors (pos * 64) 64 (fun x => { x with reading := none })
      weft := { s1.weft with links := tmodRange s1.weft.links (pos * 4) 4 linkAfterReset }
      resets := s1.resets.filter (fun o => o.scope != .mLayer || o.unit / 8 != pos) }
    resetRecord (drainQueues (modDie s2 pos (fun d => { d with inReset := true })))
      { scope := .cDie, unit := pos, cause := .containment, start := counterOf s 4 }

/-! ### RESET_BOUND_MISS (R512) -/

/-- A RESET_FAILED record at the level of the scope that the reset escalates to. -/
def resetFailed (s : State) (o : ResetOrder) (level : Nat) (cls : RecClass) : State :=
  record s { code := 0x0A02, level := level, cls := cls, kind := 7, unit := 0, addr := resetAddr o, detail := resetDetail s o
             status := stDegraded }

/-- Forget an order; units that no other order covers leave reset. -/
def forgetOrder (s : State) (o : ResetOrder) : State :=
  let s1 := flagUnits false { s with resets := s.resets.filter (fun x => x != o) } o
  (s1.resets.filter (fun x => !x.done)).foldl (flagUnits true) s1

/-- Answer the command or mailbox of an order that failed, and forget the order. -/
def failOrder (s : State) (o : ResetOrder) : State :=
  let s1 := forgetOrder s o
  let s2 := match o.packet with
    | some p => fail s1 p stDegraded
    | none => s1
  match o.mailbox with
  | some m => rescueAnswer s2 m stDegraded (failResult 0 0 0) []
  | none => s2

/-- What a region out of service takes with it: slots with a tile or far data there reload; the sequences with a pair whose
page service lies there are lost, their pages there ABSENT. -/
def loseRegion (s : State) (r : Nat) : State :=
  let inWindow := fun (a : Nat × Nat) => decide (0 < a.2) && decide (windowBase r ≤ a.1) && decide (a.1 < windowBase (r + 1))
  let s1 := reloadSlots s (fun sl => sl.tiles.any (fun t => t.kind != 3 && regionOfCore t.core == r) || inWindow sl.far
    || inWindow sl.keptAt)
  s1.seqs.foldl (fun t e =>
    let sl := getSlot t e.2.modelSlot
    let pairs : List (Nat × Nat) := (usedPairs sl).filter (fun q => pairService sl q.1 q.2 == r)
    if e.2.phase = .free ∨ pairs.isEmpty = true then t
    else
      let keys := (seqKeys t e.1).filter (fun k => pairs.contains (pteLayer k, pteHgroup k))
      let t1 := keys.foldl (fun u k => modPte u k (fun x =>
        if x.state = .present ∨ x.state = .recomputing then { x with state := .absent, fn := 0 } else x)) t
      degrade (modSeq t1 e.1 (fun x => { x with lost := true })) 24 (some (listEntry 0x0E e.1))) s1

/-- A region leaves service until the next bring-up; a second within an hour is device-fatal. -/
def regionOut (s : State) (o : ResetOrder) : State :=
  let r := o.unit
  let now := counterOf s 4
  let recent := s.boot.regionsLost.filter (fun t => decide (since now t < 3600 * countsPerSecond))
  let s1 := modRegion { s with boot := { s.boot with regionsLost := recent ++ [now] } } r (fun g => { g with outOfService := true })
  let s2 := degrade (loseRegion s1 r) 1 (some (listEntry 0x0B (r + 16)))
  if recent.isEmpty then resetFailed s2 o 3 .regionFatal
  else
    let s3 := recordFatal s2 { code := 0x0A02, level := 3, cls := .deviceFatal, kind := 7, unit := 0, addr := resetAddr o
                               detail := resetDetail s2 o, status := stDegraded }
    { s3 with errors := { s3.errors with fatalPending := true } }

/-- The channels of an M-layer that missed its bound are mapped out in every core of the stack, and the pages there are lost
(R211). -/
def layerLost (s : State) (pos layer : Nat) : State :=
  let s1 := (List.range 2048).foldl (fun t c => mapOutChannel t (chanOf (pos * 2048 + c) layer) 2) s
  let s2 := degrade s1 6 (some (listEntry 0x05 (pos * 8 + layer)))
  let frames := (s2.frames.filter (fun e => e.2.allocated)).map (fun e => indexFn (e.1 / 4194304) (e.1 % 4194304))
  (frames.filter (fun fn => !bitOf fn 25 && fn / 4096 / 2048 == pos && fn / 512 % 8 == layer)).foldl (fun t fn =>
    absentFrame t fn true) s2

/-- RESET_BOUND_MISS: of a block, whose region is reset in its place, the RESET replies when that has ended. -/
def resetBoundMiss (scope : Scope) (unit : Nat) (s : State) : State :=
  if scope = .mLayer then
    if !managerUp s || decide (32 ≤ unit) || !dieServes s (unit / 8) then s
    else match layerOrder s unit with
      | none => s
      | some o => layerLost (resetFailed { s with resets := s.resets.filter (· != o) } o 3 .regionFatal) (unit / 8) (unit % 8)
  else match firstThat (fun o => o.scope == scope && o.unit == unit) s.resets with
    | none => s
    | some o =>
      match scope with
      | .core => failOrder (fenceCore (coresReset s unit 1) unit 2) o
      | .block =>
        orderReset (resetFailed (forgetOrder s o) o 2 .regionFatal)
          { scope := .region, unit := unit / 8, cause := .containment, packet := o.packet, mailbox := o.mailbox }
      | .region => regionOut (failOrder (regionReset s unit) o) o
      | _ => s

/-! ### RESET and FENCE_UNIT (R362 to R364) -/

/-- The status that refuses a command on a region's unit. -/
def regionRefusal (s : State) (r : Nat) : Nat :=
  if !licensedRegion s r then stNotLicensed else if !regionOn s r || (getRegion s r).darnOut then stDegraded
  else if (getRegion s r).inReset then stInReset else stOk

/-- The status that refuses a command on a core. -/
def coreRefusal (s : State) (c : Nat) : Nat :=
  let g := regionRefusal s (regionOfCore c)
  if g ≠ stOk then g
  else if (getCore s c).absent ∨ (getCore s c).fenced = true then stDegraded
  else if (getCore s c).inReset then stInReset
  else stOk

/-- RESET: a unit's reset is ordered and replies when it ends; a device scope replies, and its reset follows the reply. -/
def resetCmd (p : Nat) (s : State) : State :=
  runCmd s p 0x0A01 (fun k =>
    let scope := argAt k 0x10 4
    let unit := argAt k 0x14 4
    let order := fun (sc : Scope) (n st : Nat) =>
      if n ≤ unit then fail s p stBadPacket
      else if st ≠ stOk then fail s p st
      else orderReset (markStarted s p) { scope := sc, unit := unit, cause := .command, packet := some p }
    if s.thermal.stop = 1 then s
    else match scope with
      | 0 => order .core 8192 (coreRefusal s unit)
      | 1 => order .block 128 (regionRefusal s (unit / 8))
      | 2 => order .region 16 (regionRefusal s unit)
      | 3 => orderReset (finish s p stOk []) { scope := .warm, unit := 0, cause := .command, packet := some p }
      | 4 => orderReset (finish s p stOk []) { scope := .cold, unit := 0, cause := .command, packet := some p }
      | _ => fail s p stBadPacket)

/-- FENCE_UNIT: as containment would take the unit out, with SOURCE 3 in the darn map. -/
def fenceUnit (p : Nat) (s : State) : State :=
  runCmd s p 0x0A04 (fun k =>
    let u := argAt k 0x14 4
    let act := fun (n st : Nat) (t : State) =>
      if n ≤ u then fail s p stBadPacket else if st ≠ stOk then fail s p st else finish t p stOk []
    let near := fun (out : Bool) (st : Nat) => if st ≠ stOk then st else if out then stDegraded else stOk
    match argAt k 0x10 4 with
    | 0 => act 8192 (coreRefusal s u) (fenceCore s u 3)
    | 1 => act 1048576 (near (bankMappedOut s u) (coreRefusal s (u / 128))) (mapOutBank s (u / 16) (u % 16) 3)
    | 2 => act 65536 (near (getChan s u).chOut (coreRefusal s (u / 8))) (mapOutChannel s u 3)
    | 3 => act 512 (near ((getPc s u).out || (getPc s u).hole) (regionRefusal s (regionOfPc u))) (mapOutPc s u 3)
    | 4 => act 16 (if (getLink s u).disabled then stDegraded else stOk) (disableLink s u)
    | _ => fail s p stBadPacket)

/-- FW_ACTIVATE: TRY names the staged slot, and a warm reset follows the reply (R360, R472). -/
def fwActivate (p : Nat) (s : State) : State :=
  runCmd s p 0x0903 (fun k =>
    if hostBarred s k || !s.flash.staged then fail s p stState
    else
      let s1 : State := { s with flash := { s.flash with try? := some (1 - s.boot.slot), staged := false } }
      orderReset (finish s1 p stOk []) { scope := .warm, unit := 0, cause := .fwActivate, packet := some p })

/-! ### The rows of the table -/

/-- CORE_SELF_FENCE. -/
def execCoreSelfFence (core : Nat) (s : State) : Host.Outcome State Fault Refusal := .next (coreSelfFence core s)

/-- BLOCK_HEARTBEAT_MISS. -/
def execBlockHeartbeatMiss (block : Nat) (s : State) : Host.Outcome State Fault Refusal := .next (blockHeartbeatMiss block s)

/-- REGION_HEARTBEAT_MISS. -/
def execRegionHeartbeatMiss (region : Nat) (s : State) : Host.Outcome State Fault Refusal := .next (regionHeartbeatMiss region s)

/-- DEVICE_FATAL_RESET_TIMER: 10 ms after the record. -/
def execDeviceFatalResetTimer (s : State) : Host.Outcome State Fault Refusal := .next (fatalResetTimer s)

/-- WATCHDOG_EXPIRY. -/
def execWatchdogExpiry (s : State) : Host.Outcome State Fault Refusal := .next (watchdogExpiry s)

/-- CORE_RESET. -/
def execCoreReset (core : Nat) (cause : ResetCause) (s : State) : Host.Outcome State Fault Refusal := .next (runReset s .core core cause)

/-- BLOCK_RESET. -/
def execBlockReset (block : Nat) (cause : ResetCause) (s : State) : Host.Outcome State Fault Refusal := .next (runReset s .block block cause)

/-- REGION_RESET. -/
def execRegionReset (region : Nat) (cause : ResetCause) (s : State) : Host.Outcome State Fault Refusal := .next (runReset s .region region cause)

/-- M_LAYER_RESET. -/
def execMLayerReset (pos layer : Nat) (s : State) : Host.Outcome State Fault Refusal := .next (mLayerReset pos layer s)

/-- C_DIE_RESET. -/
def execCDieReset (pos : Nat) (s : State) : Host.Outcome State Fault Refusal := .next (cDieReset pos s)

/-- RESET_BOUND_MISS. -/
def execResetBoundMiss (scope : Scope) (unit : Nat) (s : State) : Host.Outcome State Fault Refusal := .next (resetBoundMiss scope unit s)

/-- RESET. -/
def execReset (p : Nat) (s : State) : Host.Outcome State Fault Refusal := .next (resetCmd p s)

/-- FENCE_UNIT. -/
def execFenceUnit (p : Nat) (s : State) : Host.Outcome State Fault Refusal := .next (fenceUnit p s)

/-- FW_ACTIVATE. -/
def execFwActivate (p : Nat) (s : State) : Host.Outcome State Fault Refusal := .next (fwActivate p s)

end Sys2Proof.Machine
end

