-- ==== Sys2Proof/Machine/Device.lean ====
section
/-!
DEFINITION. Device resets (spec/17_errors_and_resets.md R507; spec/16_bring_up.md R464; spec/11_host_interface.md R302 to R305;
spec/10_sequences_and_kv.md R297; spec/15_power_and_thermal.md R445, R455, R457), PCIe events (R300, R302 to R305) and the
power and clock pins (spec/18_package_and_board.md R519, R523).
-/
namespace Sys2Proof.Machine

/-! ### What a device reset leaves -/

/-- The order that led to the bring-up, its start moved to the counters that restart at 0 (R64). -/
def carriedOrder (s : State) (o : ResetOrder) : ResetOrder :=
  { o with start := (2 ^ 48 - since (counterOf s 4) o.start) % 2 ^ 48, packet := none, mailbox := none, done := false }

/-- Whether a stop or a latched trip makes the next bring-up hold at phase 2 (R457). -/
def holdDue (s : State) : Bool :=
  s.thermal.stop != 0 || s.thermal.tripCdie != 0 || s.thermal.tripMlayer != 0 || s.thermal.tripHub || s.thermal.hold

/-- The sequences that a device reset leaves: those that an orderly stop wrote (R297). -/
def keptSeqs (s : State) : Bool := s.thermal.savedState && s.thermal.stop == 2

/-- A model slot after a device reset: an epoch origin whose knots the reset has cleared (R187). -/
def slotAfter (sl : ModelSlot) : ModelSlot :=
  { sl with epoch := 0, origins := sl.origins + 1, evicting := false, knotsToClear := false }

/-- A region after a warm reset: the layout of its window, its allocations, and what the darn map gives it. -/
def regionAfter (keepSeqs : Bool) (models : List Nat) (g : Region) : Region :=
  { homeN := g.homeN, pool := if keepSeqs then g.pool else g.pool.filter (fun e => models.contains e.1)
    ptArea := if keepSeqs then g.ptArea else [] }

/-- A frame after a warm reset: no gather holds it. -/
def frameAfter (f : Frame) : Frame := { f with gpins := 0 }

/-- The window offsets where model slots hold far allocations. -/
def modelOffsets (s : State) (r : Nat) : List Nat :=
  (s.slots.flatMap (fun e => [e.2.far, e.2.keptAt])).filterMap (fun a =>
    if 0 < a.2 ∧ windowBase r ≤ a.1 ∧ a.1 < windowBase (r + 1) then some (a.1 - windowBase r) else none)

/-- The AER registers keep their values over a function-level reset; the other configuration words do not (log 120). -/
def stickyConfig (c : Table (Option Word)) : Table (Option Word) := c.filter (fun e => decide (0x104 ≤ e.1) && decide (e.1 < 0x148))

/-- The endpoint after a warm reset (R303, R304): a function-level reset returns the configuration registers and the MSI-X
table to the base specification's values (log 4). -/
def pcieAfterWarm (s : State) (pcie : Bool) : Pcie :=
  let p := s.pcie
  { linkUp := p.linkUp, speed := p.speed, width := p.width, resetCount := p.resetCount + 1, tx := p.tx
    d3hot := p.d3hot && !pcie, busMaster := p.busMaster && !pcie
    msixEnable := p.msixEnable && !pcie, msixMaskAll := p.msixMaskAll && !pcie
    config := if pcie then stickyConfig p.config else p.config
    msixEntry := if pcie then [] else p.msixEntry, msixUnmasked := if pcie then [] else p.msixUnmasked
    msixPending := if pcie then [] else p.msixPending }

/-- Sequences that a reset closes enter the report (R297, Table 17-12). -/
def closedSeqs (old s : State) : State :=
  (old.seqs.filter (fun e => e.2.phase != .free)).foldl (fun t e => degrade t 24 (some (listEntry 0x0F e.1))) s

/-- A link trained below its full speed or width is a degraded state for as long as it stays so (R300). -/
def linkShown (s : State) : State :=
  if s.pcie.linkUp ∧ (s.pcie.speed < 128 ∨ s.pcie.width < 16) then degrade s 12 none else s

/-- The state that a device warm reset leaves (R464, R304, R501): memory but for the Warp Beam and the core stores, model
slots, the licence, the cap, the trip latches and the log; every M-layer and stack in self-refresh until phase 3 (R43, R207,
R257). -/
def warmState (s : State) (o : ResetOrder) : State :=
  let keep := keptSeqs s
  let t : State := {
    pending := s.pending, free := s.free, pins := s.pins, pcie := pcieAfterWarm s (o.cause == .pcie)
    nextPacket := s.nextPacket, wbWeights := if s.pcie.linkUp then [(7, 1), (8, 1), (9, 16)] else [(8, 1), (9, 16)]
    mem := zeroFill (zeroFill s.mem 0xE000000000 0x20000000) 0xE100000000 0x80000000
    layers := tmodRange [] 0 32 (fun l => { l with selfRefresh := true, inReset := true })
    pcs := tmodRange [] 0 512 (fun p => { p with selfRefresh := true })
    cores := (s.cores.map (fun e => (e.1, { absent := e.2.absent, spare := e.2.spare }))).filter (fun e => e.2 != default)
    regions := (s.regions.map (fun e => (e.1, regionAfter keep (modelOffsets s e.1) e.2))).filter (fun e => e.2 != default)
    slots := s.slots.map (fun e => (e.1, slotAfter e.2)), staging := s.staging
    seqs := if keep then s.seqs else [], ptes := if keep then s.ptes else [], dirs := if keep then s.dirs else []
    leaves := if keep then s.leaves else []
    frames := if keep then s.frames.map (fun e => (e.1, frameAfter e.2)) else []
    nextSerial := s.nextSerial, nextOrder := s.nextOrder
    power := { capSet := s.power.capSet }
    thermal := { tripCdie := s.thermal.tripCdie, tripMlayer := s.thermal.tripMlayer, tripHub := s.thermal.tripHub, hold := holdDue s }
    errors := { log := s.errors.log, logNext := s.errors.logNext }
    flash := s.flash
    boot := { order := some (carriedOrder s o), memoryKept := s.boot.memoryKept, licence := s.boot.licence } }
  let u := if keep then t else closedSeqs s t
  linkShown ((s.slots.filter (fun e => e.2.phase == .reload)).foldl (fun v e => degrade v 23 (some (listEntry 0x0D e.1))) u)

/-- The state that a device cold reset leaves: fuses and boot flash (Table 17-7); the report will list the sequences that were
open (R297). -/
def coldState (s : State) (o : ResetOrder) : State :=
  let t : State := {
    pending := s.pending, free := s.free, pins := s.pins, pcie := { tx := s.pcie.tx }, nextPacket := s.nextPacket
    thermal := { hold := holdDue s }, flash := s.flash, boot := { order := some (carriedOrder s o) } }
  closedSeqs s t

/-! ### The device scopes -/

/-- Whether the reply to the command that ordered a device reset has been written (R363). -/
def replied (s : State) (o : ResetOrder) : Bool := !((o.packet.bind (getPacket s)).isSome)

/-- Whether the device has power and its reference (R519, R523). -/
def powered (s : State) : Bool := s.pins.pwrok && !s.pins.refclkLost

/-- DEVICE_WARM_RESET: a reset that PCIe did not cause sends vector 0 before the rings stop (R304). -/
def deviceWarmReset (cause : ResetCause) (s : State) : State :=
  match orderFor s .warm 0 cause with
  | none => s
  | some o =>
    if powered s && replied s o then warmState (if cause = .pcie then s else sendVector s 0) o else s

/-- DEVICE_COLD_RESET: READY changes, so vector 0 is sent where the link still stands (R301). -/
def deviceColdReset (cause : ResetCause) (s : State) : State :=
  match orderFor s .cold 0 cause with
  | none => s
  | some o => if powered s && replied s o then coldState (if cause = .pcie then s else sendVector s 0) o else s

/-! ### PCIe events -/

/-- PERST#, and a hot reset, link disable or DL_Down: a device cold reset; the link is down from then on. -/
def pcieColdEvent (s : State) : State :=
  if powered s then
    orderReset { s with pcie := { s.pcie with linkUp := false } } { scope := .cold, unit := 0, cause := .pcie }
  else s

/-- FUNCTION_LEVEL_RESET: the configuration registers return to their values, and a device warm reset starts. -/
def functionLevelReset (s : State) : State :=
  if powered s && s.pcie.linkUp then
    orderReset { s with pcie := { s.pcie with
      d3hot := false, busMaster := false, msixEnable := false, msixMaskAll := false, config := stickyConfig s.pcie.config
      msixEntry := [], msixUnmasked := [], msixPending := [] } } { scope := .warm, unit := 0, cause := .pcie }
  else s

/-- D3HOT_ENTRY: D3hot, or Bus Master Enable cleared. -/
def d3hotEntry (d3hot : Bool) (s : State) : State :=
  if !s.pcie.linkUp then s
  else { s with pcie := if d3hot then { s.pcie with d3hot := true } else { s.pcie with busMaster := false } }

/-- D0_RESTORE: D0 with Bus Master Enable set; what waits is sent in its order. -/
def d0Restore (s : State) : State :=
  if !s.pcie.linkUp then s
  else openHost { s with pcie := { s.pcie with d3hot := false, busMaster := true } }

/-- PCIE_LINK_TRAINED: below 128 GT/s or ×16 is a degraded state (R300). -/
def pcieLinkTrained (speed width : Nat) (s : State) : State :=
  if !powered s then s
  else
    let s1 : State := { s with
      pcie := { s.pcie with linkUp := true, speed := speed, width := width }, wbWeights := tset s.wbWeights 7 1 }
    if speed < 128 ∨ width < 16 then degrade s1 12 none else undegrade s1 12 none

/-! ### Pins -/

/-- PWROK_RISE: the straps are sampled and the dies leave reset. -/
def pwrokRise (straps : Straps) (s : State) : State :=
  if s.pins.pwrok then s else { s with pins := { pwrok := true, refclkLost := false, straps := straps } }

/-- PWROK_FALL: every clock stops, as a device cold reset; the cause shown is a PCIe event's (log 42). -/
def pwrokFall (s : State) : State :=
  if s.pins.pwrok then
    let t := coldState s { scope := .cold, unit := 0, cause := .pcie, start := counterOf s 4 }
    { t with pins := { s.pins with pwrok := false } }
  else s

/-- REFCLK_LOSS: every clock stops and nothing is recorded. -/
def refclkLoss (s : State) : State :=
  if s.pins.pwrok then
    { s with
      pins := { s.pins with refclkLost := true }
      dies := tmodAll s.dies (List.range 6) (fun _ d => { d with clocksStopped := true }) }
  else s

/-! ### The rows of the table -/

/-- DEVICE_WARM_RESET. -/
def execDeviceWarmReset (cause : ResetCause) (s : State) : Host.Outcome State Fault Refusal := .next (deviceWarmReset cause s)

/-- DEVICE_COLD_RESET. -/
def execDeviceColdReset (cause : ResetCause) (s : State) : Host.Outcome State Fault Refusal := .next (deviceColdReset cause s)

/-- PERST. -/
def execPerst (s : State) : Host.Outcome State Fault Refusal := .next (pcieColdEvent s)

/-- PCIE_HOT_RESET. -/
def execPcieHotReset (s : State) : Host.Outcome State Fault Refusal := .next (pcieColdEvent s)

/-- FUNCTION_LEVEL_RESET. -/
def execFunctionLevelReset (s : State) : Host.Outcome State Fault Refusal := .next (functionLevelReset s)

/-- D3HOT_ENTRY. -/
def execD3hotEntry (d3hot : Bool) (s : State) : Host.Outcome State Fault Refusal := .next (d3hotEntry d3hot s)

/-- D0_RESTORE. -/
def execD0Restore (s : State) : Host.Outcome State Fault Refusal := .next (d0Restore s)

/-- PCIE_LINK_TRAINED. -/
def execPcieLinkTrained (speed width : Nat) (s : State) : Host.Outcome State Fault Refusal := .next (pcieLinkTrained speed width s)

/-- PWROK_RISE. -/
def execPwrokRise (straps : Straps) (s : State) : Host.Outcome State Fault Refusal := .next (pwrokRise straps s)

/-- PWROK_FALL. -/
def execPwrokFall (s : State) : Host.Outcome State Fault Refusal := .next (pwrokFall s)

/-- REFCLK_LOSS. -/
def execRefclkLoss (s : State) : Host.Outcome State Fault Refusal := .next (refclkLoss s)

end Sys2Proof.Machine
end

