-- ==== Sys2Proof/Machine/BringUp.lean ====
section
/-!
DEFINITION. Bring-up (spec/16_bring_up.md R459 to R468, R475 to R477, R485 to R489, R493; spec/01_organisation.md R22, R23, R28 to
R31; spec/14_die_to_die.md R402 to R405, R409 to R413, R421; spec/07_near_memory.md R194, R208; spec/09_far_memory.md R246 to R249,
R256, R262; spec/13_weft_links.md R378; spec/15_power_and_thermal.md R442, R457; spec/17_errors_and_resets.md R505, R510).
-/
namespace Sys2Proof.Machine

/-- Set PHASE (Table 11-5). -/
def setPhase (s : State) (n : Nat) : State := { s with pcie := { s.pcie with phase := BitVec.ofNat 3 n } }

/-- Whether a phase may run: power, clocks, and the phase in progress. -/
def phaseDue (s : State) (n : Nat) : Bool := powered s && hubRuns s && s.pcie.phase.toNat == n

/-! ### Phase 1 (R465 to R468, R485, R505) -/

/-- One fallback: its record (R467). -/
def fallback (s : State) : State :=
  recordMgmt { s with flash := { s.flash with fallback := true } } 0x0901 .contained

/-- Run a verified image from a slot. -/
def bootSlot (s : State) (slot : Nat) : State := { s with boot := { s.boot with slot := slot, image := flashImage s slot } }

/-- Whether a slot's image verifies. -/
def slotVerifies (s : State) (slot : Nat) : Bool := imgReason s (flashImage s slot) == 0

/-- No image verifies: the boot ROM serves rescue (R468). -/
def rescueOnly (s : State) : State :=
  { s with boot := { s.boot with image := flashImage s s.flash.active }, pcie := { s.pcie with rescueOnly := true } }

/-- The last part of R467: the active slot, then the other, which sets FALLBACK. -/
def selectCommitted (s : State) : State :=
  if slotVerifies s s.flash.active then bootSlot s s.flash.active
  else if slotVerifies s (1 - s.flash.active) then bootSlot (fallback s) (1 - s.flash.active)
  else rescueOnly s

/-- The selection of an image (R467). -/
def selectImage (s : State) : State :=
  let s1 := if s.flash.pending.isSome then fallback { s with flash := { s.flash with pending := none } } else s
  match s1.flash.try? with
  | none => selectCommitted s1
  | some slot =>
    let s2 : State := { s1 with flash := { s1.flash with try? := none, pending := some slot } }
    if slotVerifies s2 slot then bootSlot s2 slot
    else selectCommitted (fallback { s2 with flash := { s2.flash with pending := none } })

/-- The licence that phase 1 reads: the pending one when present, else the active one (R475). -/
def readLicence (s : State) : Option Licence :=
  match s.flash.licPending with
  | some b => some (licOf b)
  | none => if s.flash.licActive.isEmpty then none else some (licOf s.flash.licActive)

/-- The flash areas of phase 1: darn map, licence, topology table, role; and whether the bring-up is warm (R463). -/
def readFlash (s : State) : State :=
  let warm := s.boot.order.any (·.scope == .warm) && s.boot.memoryKept && s.flash.darnValid
  let s1 := if s.flash.darnValid then s else degrade (recordMgmt s 0x0904 .contained) 18 none
  let lic := readLicence s1
  { s1 with
    pcie := { s1.pcie with warm := warm }
    boot := { s1.boot with licenceRead := lic }
    weft := { s1.weft with table := s1.flash.topology, manager := s1.flash.manager && lic.any (·.manager)
                           ownManager := s1.flash.ownManager } }

/-- Phase 1 ends: a DOE request that was held is answered (R325). -/
def endPhase1 (s : State) : State :=
  let s1 := if s.pcie.rescueOnly then s else setPhase s 2
  match s1.pcie.doeHeld with
  | none => s1
  | some r => if doeServed s1 then doeAnswer s1 r else s1

/-- BRING_UP_PHASE_1; with BOOT_SRC host it waits for BOOT_HOST_GO. -/
def bringUpPhase1 (s : State) : State :=
  if !phaseDue s 0 then s
  else
    let s1 := readFlash (setPhase s 1)
    let s2 := if s.boot.order.any (·.cause == .watchdog) then recordMgmt s1 0x0A04 .deviceFatal else s1
    if s.pins.straps.bootSrc = 1 then s2
    else
      let s3 := selectImage s2
      endPhase1 (if s3.flash.fallback then degrade s3 21 none else s3)

/-- BOOT_HOST_GO: the image at BOOT_HOST_ADDR boots and is not written to the flash. -/
def bootHostGo (h : HostData) (s : State) : State :=
  if !phaseDue s 1 || !(s.pcie.rescueOnly || s.pins.straps.bootSrc == 1) then s
  else
    let refuse := fun (r : Nat) => { s with pcie := { s.pcie with
      bootHostDone := false, bootHostFail := true, bootHostReason := BitVec.ofNat 4 r } }
    if !hostOpen s then refuse 1
    else match h with
      | .failed _ => refuse 1
      | .bytes b =>
        let r := imgReason s b
        if r ≠ 0 then refuse r
        else endPhase1 { s with
          pcie := { s.pcie with bootHostDone := true, bootHostFail := false, bootHostReason := 0, rescueOnly := false }
          boot := { s.boot with hostBoot := true, slot := s.flash.active, image := b.take (fieldAt b 0x14 4) } }

/-! ### The darn map (R485 to R487) -/

/-- The map: the fuse area, then the extension when it is valid. -/
def darnMap (s : State) : List Word64 := s.flash.darnFuse ++ (if s.flash.darnValid then s.flash.darn else [])

/-- Bits of an entry. -/
def dField (e : Word64) (hi lo : Nat) : Nat := bitsOf e.toNat hi lo

/-- The entries of a KIND. -/
def darnOf (s : State) (kind : Nat) : List Word64 := (darnMap s).filter (fun e => darnKind e == kind)

/-- Write an entry at once. -/
def appendNow (s : State) (e : Word64) : State :=
  let t := darnAppend { s with boot := { s.boot with appendQueue := [e] } }
  { t with boot := { t.boot with appendQueue := s.boot.appendQueue } }

/-! ### Phase 2 (Table 14-6) -/

/-- What stands for a die of which the step has no answer. -/
def silentDie : DieAnswer :=
  { responds := false, dieType := 3, pos := 0, stepMajor := 0, stepMinor := 0, capSent := false, caps := 0, revision := 0
    tableVersion := 0, modulesTrained := 0 }

/-- Modules of a port that the map marks out (KIND 0x9), as a bit set. -/
def darnModules (s : State) (port : Nat) : Nat :=
  sumOf ((((darnOf s 9).filter (fun e => dField e 18 16 == port)).map (fun e => dField e 22 19)).eraseDups.map (2 ^ ·))

def portMinimum (port : Nat) : Nat := if port < 4 then 8 else if port = 6 then 1 else 0

/-- A module is mapped out: the map, the record and the report (R405, R419). -/
def noteModuleOut (s : State) (port m source : Nat) : State :=
  let s1 := queueDarn s (darnEntry 9 source (port + m * 8))
  let s2 := recordMgmt s1 0x0703 .contained (unitAddr 9 (port * 16 + m)) 0 stDegraded
  degrade s2 15 (some (listEntry 0x09 (port * 16 + m)))

/-- The end of a module that receives in a direction (Table 16-13: true, towards H or the lower POS). -/
def rxEnd (port : Nat) (towardHub : Bool) : Nat := if port = 4 ∨ port = 5 then b2n (!towardHub) else b2n towardHub

/-- Repairs of a module's direction in the map (KIND 0x8): redundant lanes in use. -/
def laneRepairs (s : State) (port m : Nat) (towardHub : Bool) : Nat :=
  ((darnOf s 8).filter (fun e => dField e 18 16 == port && dField e 22 19 == m && dField e 23 23 == b2n (!towardHub))).length

/-- The link layers of a port's modules as they come up. -/
def freshModules (s : State) (port : Nat) : Table EwModule :=
  (List.range (portModules port)).foldl (fun (t : Table EwModule) m =>
    [true, false].foldl (fun u d => tset u (2 * m + rxEnd port d) { spares := Nat.min 3 (laneRepairs s port m d) }) t) []

/-- A port comes up with the modules that trained at 32 GT/s and are not out by the map. -/
def trainPort (s : State) (port trained : Nat) : State :=
  let all := List.range (portModules port)
  let known := all.filter (bitOf (darnModules s port))
  let failed := all.filter (fun m => !known.contains m && !bitOf trained m)
  let s1 := known.foldl (fun t m => degrade t 15 (some (listEntry 0x09 (port * 16 + m)))) s
  let s2 := failed.foldl (fun t m => noteModuleOut t port m 1) s1
  modPort s2 port (fun x => { x with
    modulesOut := BitVec.ofNat 16 (sumOf ((known ++ failed).map (2 ^ ·))), modules := portModules port - known.length - failed.length
    quiesced := false, repairing := [], links := freshModules s port })

/-- The revision-table version in use: the highest that both Pygrim and the die accept; 0 where there is none (R413). -/
def commonTable (a : DieAnswer) : Nat :=
  let ours := if a.revision = 0x0B01 ∧ a.dieType.toNat < 2 then 1 else Config.tableVersion a.dieType.toNat a.revision.toNat
  Nat.min ours a.tableVersion.toNat

/-- The mandatory bits of Table 14-8 for a die: C-dies all ten, a partner six. -/
def mandatoryBits (d : Nat) : List Nat := if d < 4 then List.range 10 else [0, 1, 4, 7, 8, 9]

/-- HOLD_CAUSE of a die in the order of Table 14-6, with DETAIL of its record; 0 when it stays in service. -/
def holdOf (s : State) (d : Nat) (a : DieAnswer) : Nat × Nat :=
  let port := (portOfDie d).getD 0
  if (getPort s port).modules < portMinimum port then (4, 4)
  else if a.responds && decide (d < 4) && (a.dieType != 0 || a.pos.toNat != d) then (1, 1)
  else if !a.responds || !a.capSent then (7, 7)
  else if commonTable a = 0 then (3, a.revision.toNat + a.tableVersion.toNat * 65536)
  else match firstThat (fun b => !bitOf a.caps.toNat b) (mandatoryBits d) with
    | some b => (2, 2 + b * 256)
    | none => (0, 0)

/-- Take a die out of service in the registers: HELD_OUT, HOLD_CAUSE, and its port's state (R403, R421). -/
def markHeld (s : State) (d cause : Nat) : State :=
  let s1 := modDie s d (fun x => { x with heldOut := true, holdCause := BitVec.ofNat 3 cause })
  let port := (portOfDie d).getD 0
  let s2 : State := { modPort s1 port (fun x => { x with state := 3 }) with wbWeights := terase s1.wbWeights port }
  degrade s2 0 (some (listEntry 0x0A (d + cause * 8)))

/-- Hold a die out with its record. -/
def holdDie (s : State) (d cause detail : Nat) : State :=
  recordMgmt (markHeld s d cause) 0x0701 .contained (unitAddr 7 d) detail stDegraded

/-- Steps 1 to 5 of Table 14-6 for one die. A chiplet site where nothing answers holds nothing. -/
def agreeDie (s : State) (d : Nat) (a : DieAnswer) : State :=
  if d = 5 ∧ ¬ a.responds then s
  else
    let s1 := trainPort s ((portOfDie d).getD 0) a.modulesTrained.toNat
    let s2 := modDie s1 d (fun x => { x with
      dieType := if a.responds then a.dieType else 3
      pos := if a.responds ∧ a.dieType = 0 then a.pos else 0
      posMatch := a.responds && a.dieType == 0 && a.pos.toNat == d
      stepMajor := if a.responds then a.stepMajor else 0, stepMinor := if a.responds then a.stepMinor else 0
      revision := if a.capSent then a.revision else 0 })
    let h := holdOf s2 d a
    if h.1 ≠ 0 then holdDie s2 d h.1 h.2
    else
      let s3 := modDie s2 d (fun x => { x with tableVersion := BitVec.ofNat 16 (commonTable a) })
      if d = 5 ∧ ¬ s.boot.licenceRead.any (·.chiplet) then markHeld s3 5 5 else s3

/-- The dies that have been agreed and stay in service. -/
def agreedDies (s : State) : List Nat := [0, 1, 2, 3, 5].filter (fun d => (tget s.dies d).tableVersion != 0 && !(tget s.dies d).heldOut)

/-- Bits that H advertises (stepping B1). -/
def hubBits : List Nat := List.range 10 ++ [128, 129, 130, 131]

/-- The agreed set of a die (R411, Table 14-8). -/
def agreedSet (s : State) (answer : Nat → DieAnswer) (d : Nat) : BitVec 256 :=
  let has := fun (e b : Nat) => bitOf (answer e).caps.toNat b
  let ok := fun (b : Nat) =>
    if [0, 1, 4, 7, 8, 9].contains b then (agreedDies s).all (fun e => has e b)
    else if b = 5 ∨ b = 6 ∨ 128 ≤ b then (if b < 128 then decide (d < 4) && has d b else d == 5 && has d b)
    else has d b
  BitVec.ofNat 256 (sumOf ((hubBits.filter ok).map (2 ^ ·)))

/-- Step 6: the ports of agreed dies open, with their Warp Beam weights (R82). -/
def openPort (answer : Nat → DieAnswer) (s : State) (d : Nat) : State :=
  let port := (portOfDie d).getD 0
  let s1 := modDie s d (fun x => { x with agreed := agreedSet s answer d })
  { modPort s1 port (fun x => { x with state := 2 }) with wbWeights := tset s1.wbWeights port (getPort s1 port).modules }

/-- The side links come up after both of their C-dies have been agreed. -/
def openSide (sides : List (BitVec 4)) (s : State) (i : Nat) : State :=
  if (agreedDies s).contains (2 * i) && (agreedDies s).contains (2 * i + 1) then
    let s1 := trainPort s (4 + i) (sides.getD i 0).toNat
    modPort s1 (4 + i) (fun x => { x with state := if x.modules = 0 then 0 else 2 })
  else s

/-- CLASS of a record's bytes. -/
def clsOfBytes (b : Bytes) : RecClass :=
  match bitsOf (fieldAt b 2 1) 3 2 with
  | 0 => .corrected
  | 1 => .contained
  | 2 => .regionFatal
  | _ => .deviceFatal

/-- The rings come up in the zeroed Warp Beam: RESET_DONE first, then the records kept for it (R510). -/
def openRings (s : State) : State :=
  let early := s.errors.early
  let s1 : State := { s with errors := { s.errors with ringUp := true, early := [] } }
  let s2 := resetRecord s1 (s.boot.order.getD { scope := .cold, unit := 0, cause := .pcie })
  early.foldl (fun t b => ringRecord t (clsOfBytes b) b) s2

/-- BRING_UP_PHASE_2; under a hold it stays in phase 2 (R457), and without a C-die bring-up stops (R462). -/
def bringUpPhase2 (dies : List DieAnswer) (sides : List (BitVec 4)) (r : HubReadings) (s : State) : State :=
  if !phaseDue s 2 || s.errors.ringUp then s
  else
    let answer := fun (d : Nat) => dies.getD (if d = 5 then 4 else d) silentDie
    let s0 := modDie s 4 (fun x => { x with dieType := 1, posMatch := true, stepMajor := 0xB, stepMinor := 1 })
    let s1 := [0, 1, 2, 3, 5].foldl (fun t d => agreeDie t d (answer d)) s0
    let s2 := (List.range 2).foldl (openSide sides) ((agreedDies s1).foldl (openPort answer) s1)
    let s3 := allCDies s2 (fun p x => { x with setpoint := setpointOf p 0 })
    let s4 : State := { s3 with
      regions := tmodAll s3.regions ((darnOf s 10).map (fun e => dField e 19 16)) (fun _ g => { g with darnOut := true }) }
    let s5 := openRings { s4 with mem := zeroFill s4.mem 0xE000000000 0x20000000 }
    if ((agreedDies s5).filter (· < 4)).isEmpty then
      recordFatal s5 { code := 0x0906, level := 3, cls := .deviceFatal, kind := 7, unit := 0, status := stDegraded }
    else
      let s6 := sampleReadings s5 r
      if s6.thermal.hold then s6 else setPhase s6 3

/-- Whether every counted sensor of the dies and the inlet are back in range (R457). -/
def holdOver (s : State) : Bool :=
  (List.range 512).all (fun n => !dieServes s (n % 256 / 64) || (getSensor s n).faulty
    || (getSensor s n).reading.any (fun v => decide (v < 680)))
    && (getSensor s inletSensor).reading.any (fun v => decide (v ≤ 360))

/-- BRINGUP_HOLD_END. -/
def bringupHoldEnd (s : State) : State :=
  if phaseDue s 2 && s.errors.ringUp && s.thermal.hold && holdOver s && !((agreedDies s).filter (· < 4)).isEmpty then
    setPhase { s with thermal := { s.thermal with hold := false } } 3
  else s

/-! ### Phase 3: bindings (R28 to R31, R487) -/

/-- Bindings while the map is merged: bad physical cores and failed spares (block × 128 + index), and the spares by logical
core. -/
structure Binds where
  bad : List Nat := []
  spares : List (Nat × Nat) := []

/-- Whether a spare of a block is bound. -/
def spareBound (b : Binds) (block idx : Nat) : Bool := b.spares.any (fun e => e.1 / 64 == block && e.2 == idx)

/-- Apply one entry. -/
def bindEntry (b : Binds) (e : Word64) : Binds :=
  match darnKind e with
  | 2 => { b with bad := b.bad ++ [dField e 29 16] }
  | 1 =>
    let block := dField e 22 16
    let idx := 64 + dField e 23 23
    let core := block * 64 + dField e 29 24
    if dField e 30 30 = 1 then
      { bad := b.bad ++ [block * 128 + idx], spares := b.spares.filter (fun x => !(x.1 / 64 == block && x.2 == idx)) }
    else if b.bad.contains (block * 128 + idx) || spareBound b block idx || b.spares.any (fun x => x.1 == core) then b
    else { b with spares := b.spares ++ [(core, idx)] }
  | _ => b

/-- Layers of a physical core that the map takes away. -/
def lostLayers (s : State) (phys : Nat) : List Nat :=
  (((darnOf s 5).filter (fun e => dField e 29 16 == phys)).map (fun e => dField e 32 30)
    ++ ((darnOf s 6).filter (fun e => dField e 17 16 == phys / 4096)).map (fun e => dField e 20 18)).eraseDups

/-- The lowest layer above a boundary: 0 to 4 count the bond, the layers up to L3 and the spacer's lower face, 5 its upper
face (R193, Table 16-13; log 48). -/
def layerAbove (boundary : Nat) : Nat := if boundary < 5 then boundary else boundary - 1

/-- Channels above a boundary with more repairs than its 8 spares (R194). -/
def tsvLost (s : State) : List (Nat × Nat) :=
  let keys := ((darnOf s 3).map (fun e => (dField e 29 16, dField e 33 30))).eraseDups
  let ovf := keys.filter (fun k => decide (8 < (((darnOf s 3).filter (fun e =>
    dField e 29 16 == k.1 && dField e 33 30 == k.2)).map (fun e => dField e 42 34)).eraseDups.length))
  ovf.flatMap (fun k => (rangeFrom (layerAbove k.2) (8 - layerAbove k.2)).map (fun l => (k.1, l)))

/-- Physical cores that have lost all 8 channels (R194). -/
def channellessCores (s : State) : List Nat :=
  let whole := (List.range 4).filter (fun p =>
    decide (8 ≤ (((darnOf s 6).filter (fun e => dField e 17 16 == p)).map (fun e => dField e 20 18)).eraseDups.length))
  let tsv := tsvLost s
  let lost := fun (c : Nat) => (lostLayers s c ++ (tsv.filter (fun k => k.1 == c)).map (·.2)).eraseDups
  (((darnOf s 5).map (fun e => dField e 29 16) ++ tsv.map (·.1)).eraseDups.filter (fun c => decide (8 ≤ (lost c).length)))
    ++ whole.flatMap (fun p => (rangeFrom (32 * p) 32).flatMap (fun b => rangeFrom (b * 128) 66))

/-- The bindings that the map gives, before free spares are taken. -/
def mergeBinds (s : State) : Binds :=
  let b := (darnMap s).foldl bindEntry {}
  let gone := channellessCores s
  { bad := (b.bad ++ gone).eraseDups, spares := b.spares.filter (fun x => !gone.contains (x.1 / 64 * 128 + x.2)) }

/-- A bad core without a spare takes the lowest good spare that is free, which a CORE_BIND entry records. -/
def bindSpare (b : Binds) (core : Nat) : Option Nat :=
  firstThat (fun i => !b.bad.contains (core / 64 * 128 + i) && !spareBound b (core / 64) i) [64, 65]

/-- Fix the bindings of the cores whose own physical core is bad; the new entries are given back. -/
def fixBinds (b : Binds) : List Nat → Binds × List Word64
  | [] => (b, [])
  | c :: t =>
    if b.spares.any (fun x => x.1 == c) then fixBinds b t
    else match bindSpare b c with
      | none => fixBinds b t
      | some i =>
        let r := fixBinds { b with spares := b.spares ++ [(c, i)] } t
        (r.1, darnEntry 1 1 (c / 64 + (i - 64) * 128 + c % 64 * 256) :: r.2)

/-- The logical cores whose own physical core is bad. -/
def displaced (b : Binds) : List Nat := (b.bad.filter (fun p => decide (p % 128 < 64))).map (fun p => p / 128 * 64 + p % 128)

/-- A core whose slice lies elsewhere now, or nowhere: the slice is empty (R30), and an absent core's slots reload (R29, R31). -/
def rebound (s : State) (core : Nat) : State :=
  let s1 : State := { s with mem := zeroFill s.mem (core * 0x4000000) 0x4000000 }
  let s2 := reloadSlots s1 (fun sl => tileOnCore sl core || ((getCore s core).absent && slotUsesCore sl core))
  let mine := (s2.frames.filter (fun e => e.2.allocated)).map (fun e => indexFn (e.1 / 4194304) (e.1 % 4194304))
  (mine.filter (fun fn => !bitOf fn 25 && fn / 4096 == core)).foldl (fun t fn => settle (absentFrame t fn true) fn) s2

/-- Phase 3 fixes the bindings. -/
def bindCores (s : State) : State :=
  let b := mergeBinds s
  let moved := displaced b
  let r := fixBinds b moved
  let spareOf := fun (c : Nat) => (firstThat (fun x => x.1 == c) r.1.spares).map (·.2)
  let touched := (moved ++ s.cores.map (·.1)).eraseDups
  let s1 := r.2.foldl queueDarn s
  touched.foldl (fun t c =>
    let spare := if moved.contains c then spareOf c else none
    let absent := moved.contains c && spare.isNone
    let old := getCore t c
    let t1 := modCore t c (fun x => { x with absent := absent, spare := spare })
    let t2 := if absent then degrade t1 2 (some (listEntry 0x01 c)) else t1
    if (old.absent, old.spare) = (absent, spare) then t2 else rebound t2 c) s1

/-! ### Phase 3: near memory -/

/-- The logical core bound to a physical core. -/
def coreOfPhys (s : State) (phys : Nat) : Option Nat :=
  let block := phys / 128
  let idx := phys % 128
  if idx < 64 then
    let c := getCore s (block * 64 + idx)
    if c.absent || c.spare.isSome then none else some (block * 64 + idx)
  else firstThat (fun c => (getCore s c).spare == some idx) (rangeFrom (block * 64) 64)

/-- A bank that the map takes out. -/
def darnBank (s : State) (e : Word64) : State :=
  match coreOfPhys s (dField e 29 16) with
  | none => s
  | some c =>
    let ch := chanOf c (dField e 32 30)
    let bank := dField e 36 33
    degrade (modChan s ch (fun x => { x with bankOut := x.bankOut ||| BitVec.ofNat 16 (2 ^ bank) })) 4
      (some (listEntry 0x03 (ch * 16 + bank)))

/-- A channel that the map takes out. -/
def darnChannel (s : State) (phys layer : Nat) : State :=
  match coreOfPhys s phys with
  | none => s
  | some c => degrade (modChan s (chanOf c layer) (fun x => { x with chOut := true })) 5 (some (listEntry 0x04 (chanOf c layer)))

/-- A layer of a stack leaves service: CH_OUT in every core (R211). -/
def layerFlags (s : State) (pos layer : Nat) : State :=
  let s1 : State := { s with
    chans := tmodAll s.chans ((List.range 2048).map (fun c => chanOf (pos * 2048 + c) layer)) (fun _ x => { x with chOut := true }) }
  degrade s1 6 (some (listEntry 0x05 (pos * 8 + layer)))

/-- What a layer takes with it: slots with a tile there, and every page with a frame there (R211). -/
def layerContents (s : State) (pos layer : Nat) : State :=
  let s1 := reloadSlots s (fun sl => sl.tiles.any (fun t => t.kind != 3 && dieOfCore t.core == pos && t.layer == layer))
  let frames := (s1.frames.filter (fun e => e.2.allocated)).map (fun e => indexFn (e.1 / 4194304) (e.1 % 4194304))
  (frames.filter (fun fn => !bitOf fn 25 && fn / 4096 / 2048 == pos && fn / 512 % 8 == layer)).foldl (fun t fn =>
    settle (absentFrame t fn true) fn) s1

/-- A layer whose ladder is wrong: the map, a record, and its contents (R23). -/
def ladderOut (s : State) (pos layer : Nat) : State :=
  if (getChan s (chanOf (pos * 2048) layer)).chOut && (getChan s (chanOf (pos * 2048 + 2047) layer)).chOut then s
  else
    let s1 := queueDarn (layerFlags s pos layer) (darnEntry 6 1 (pos + layer * 4))
    layerContents (record s1 { code := 0x0207, level := 2, cls := .contained, kind := 7, unit := 0
                               addr := unitAddr 11 (pos * 8 + layer), status := stDegraded }) pos layer

/-- The C-dies in service. -/
def servingDies (s : State) : List Nat := (List.range 4).filter (fun d => !(tget s.dies d).heldOut)

/-- The ladder check of every stack. -/
def ladderCheck (ladders : List (BitVec 8)) (s : State) : State :=
  (servingDies s).foldl (fun t p =>
    let ok := ladders.getD p 0
    let t1 := modDie t p (fun x => { x with ladderOk := ok })
    ((List.range 8).filter (fun l => !bitOf ok.toNat l)).foldl (fun u l => ladderOut u p l) t1) s

/-- Near memory under the map, the ladders and the bring-up tests, which run cold only (R208, R463). -/
def nearPhase3 (ladders : List (BitVec 8)) (failedBanks failedTsv : List Nat) (s : State) : State :=
  let s1 := (darnOf s 4).foldl darnBank s
  let s2 := (darnOf s 5).foldl (fun t e => darnChannel t (dField e 29 16) (dField e 32 30)) s1
  let s3 := (tsvLost s).foldl (fun t k => match coreOfPhys t k.1 with
    | none => t
    | some c => mapOutChannel t (chanOf c k.2) 1) s2
  let s4 := (darnOf s 6).foldl (fun t e => layerFlags t (dField e 17 16) (dField e 20 18)) s3
  let s5 := failedTsv.foldl (fun t ch => if ch < 65536 then mapOutChannel t ch 1 else t) (ladderCheck ladders s4)
  if s.pcie.warm then s5
  else failedBanks.foldl (fun t b => if b < 1048576 then mapOutBank t (b / 16) (b % 16) 1 else t) s5

/-! ### Phase 3: far memory -/

/-- A pseudo-channel out from this bring-up on. -/
def pcOut (s : State) (pc : Nat) : State := degrade (modPc s pc (fun x => { x with out := true })) 8 (some (listEntry 0x06 pc))

/-- What training found at a stack (R246). -/
def trainStack (s : State) (n : Nat) (t : HbmTraining) : State :=
  let bit := BitVec.ofNat 2 (2 ^ (n % 2))
  let here := fun (u : State) => modDie u (n / 2) (fun d => { d with hbmPresent := d.hbmPresent ||| bit })
  match t with
  | .full => here s
  | .slow =>
    degrade (recordDie (here (modStack s n (fun x => { x with rate6g4 := true }))) (n / 2) 0x0303 .contained (unitAddr 8 n) 0 stDegraded)
      9 (some (listEntry 0x07 (n + 8)))
  | .out =>
    let s1 := recordDie (modStack s n (fun x => { x with out := true })) (n / 2) 0x0304 .contained (unitAddr 8 n) 0 stDegraded
    (rangeFrom (64 * n) 64).foldl pcOut (degrade s1 10 (some (listEntry 0x07 (n + 16))))

/-- A pseudo-channel that fails its quick march (R262). -/
def marchPc (s : State) (pc : Nat) : State :=
  if 512 ≤ pc ∨ (getPc s pc).out = true then s
  else
    let s1 := recordRegion (pcOut s pc) (regionOfPc pc) 0x0302 .contained (unitAddr 3 pc) 0 stDegraded
    queueDarn s1 (darnEntry 7 1 (pc / 64 + pc % 64 * 8))

/-- What a window whose layout changed takes with it (R256): its bytes, slots and sequences with far data, and the page and
frame tables it held. -/
def windowLost (s : State) (r : Nat) : State :=
  let here := fun (a : Nat) => decide (windowBase r ≤ a) && decide (a < windowBase (r + 1))
  let s1 : State := { s with mem := zeroFill s.mem (windowBase r) 0x600000000 }
  let s2 := reloadSlots s1 (fun sl => (here sl.far.1 && decide (0 < sl.far.2)) || (here sl.keptAt.1 && decide (0 < sl.keptAt.2)))
  let served := fun (t : State) (q : Nat) =>
    let sl := getSlot t (getSeq t q).modelSlot
    (usedPairs sl).filter (fun (x : Nat × Nat) => pairService sl x.1 x.2 == r)
  let s3 := s2.seqs.foldl (fun t e =>
    let pairs := served t e.1
    if e.2.phase = .free ∨ (pairs.isEmpty = true ∧ here e.2.tokenLog = false) then t
    else
      let keys := (seqKeys t e.1).filter (fun k => pairs.contains (pteLayer k, pteHgroup k))
      let t1 := keys.foldl (fun u k => modPte u k (fun x => if x.state = .noPage then x else { x with state := .absent, fn := 0, pins := 0 })) t
      degrade (modSeq t1 e.1 (fun x => { x with lost := true })) 24 (some (listEntry 0x0E e.1))) s2
  let far := (s3.frames.filter (fun e => e.2.kind != 2 && e.1 / 4194304 == r && decide (2097152 ≤ e.1 % 4194304))).map (fun e =>
    (e.1 % 4194304 - 2097152) * 16384)
  modRegion { s3 with frames := s3.frames.filter (fun e => e.1 / 4194304 != r || e.2.kind == 2) } r (fun g => { g with
    pool := g.pool.filter (fun e => !far.contains e.1) })

/-- The sequences that an orderly stop wrote are lost with region 0's window. -/
def seqsLost (s : State) : State :=
  closedSeqs s { s with seqs := [], ptes := [], dirs := [], leaves := [], frames := [] }

/-- Fix a home's n (R248, R249); a warm bring-up that changes it loses the window. -/
def fixHome (s : State) (r : Nat) : State :=
  let old := (getRegion s r).homeN
  let pcs := if (tget s.dies (r / 4)).heldOut then [] else homePcs s r
  let n := pcs.length
  let s1 := modRegion s r (fun g => { g with homeN := n, windowOut := decide (n < 16) })
  let s2 : State := { s1 with pcs := (List.zip pcs (List.range n)).foldl (fun t e => tmod t e.1 (fun x => { x with position := e.2 })) s1.pcs }
  let s3 := if n < 16 then degrade s2 11 none else s2
  if s.pcie.warm ∧ n ≠ old then
    let s4 := windowLost s3 r
    if r = 0 then seqsLost s4 else s4
  else s3

/-- Far memory: the map, training, the quick march (cold only) and each home's n. -/
def farPhase3 (hbmStacks : List HbmTraining) (failedPcs : List Nat) (s : State) : State :=
  let s1 := (darnOf s 7).foldl (fun t e => pcOut t (dField e 18 16 * 64 + dField e 24 19)) s
  let s2 := ((List.range 8).filter (fun n => (servingDies s).contains (n / 2))).foldl (fun t n => trainStack t n (hbmStacks.getD n .out)) s1
  let s3 := if s.pcie.warm then s2 else failedPcs.foldl marchPc s2
  (List.range 16).foldl fixHome s3

/-! ### Phase 3: the re-weave journal and what a cold bring-up loses -/

/-- A layer whose re-weave started and did not end. -/
def openReweave : List Word64 → Option (Nat × Nat)
  | [] => none
  | e :: t =>
    if darnKind e = 0xB ∧ t.any (fun x => darnKind x == 0xD && darnLayer x == darnLayer e) = false then
      some (dField e 17 16, dField e 20 18)
    else openReweave t

/-- The journal (R493): cold, the layer leaves at once; warm, the re-weave restarts when a READ_ONLY pass finds the layer
clean, and else the layer leaves with what lay there. -/
def journal (clean : Bool) (s : State) : State :=
  match openReweave (darnMap s) with
  | none => s
  | some (pos, layer) =>
    if s.pcie.warm ∧ clean then
      degrade { s with boot := { s.boot with reweave := some (pos, layer, 0) } } 22 none
    else
      let s1 := appendNow (appendNow s (darnEntry 6 4 (pos + layer * 4))) (darnEntry 0xD 4 (pos + layer * 4))
      layerContents (layerFlags s1 pos layer) pos layer

/-- A cold bring-up of the memories: contents, slots and sequences are lost (R463). -/
def memoriesLost (s : State) : State :=
  if s.pcie.warm then s
  else
    let s1 := (s.slots.filter (fun e => e.2.phase == .reload)).foldl (fun t e => undegrade t 23 (some (listEntry 0x0D e.1))) s
    seqsLost { s1 with
      mem := zeroFill s1.mem 0 0xE000000000, slots := [], staging := []
      regions := s1.regions.map (fun e => (e.1, { e.2 with pool := [], ptArea := [] })) }

/-- The M-layers of the dies that serve and the stacks leave self-refresh (R205, R207 step 5, R257). -/
def portsTrained (s : State) : State :=
  { s with
    layers := s.layers.filter (fun e => (tget s.dies (e.1 / 8)).heldOut)
    pcs := tmodRange s.pcs 0 512 (fun p => { p with selfRefresh := false }) }

/-- BRING_UP_PHASE_3. -/
def bringUpPhase3 (ladders : List (BitVec 8)) (hbmStacks : List HbmTraining) (failedBanks failedPcs failedTsv : List Nat)
    (clean : Bool) (s : State) : State :=
  if !phaseDue s 3 then s
  else
    let s1 := nearPhase3 ladders failedBanks failedTsv (bindCores (memoriesLost (portsTrained s)))
    let s2 := journal clean (farPhase3 hbmStacks failedPcs s1)
    setPhase { s2 with boot := { s2.boot with memoryKept := true } } 4

/-! ### Phases 4 and 5 (R378, R461, R462) -/

/-- Whether a licence as phase 1 read it enables a link. -/
def linkRead (s : State) (l : Nat) : Bool := s.boot.licenceRead.any (fun x => bitOf x.weftLinks.toNat l)

/-- One link of phase 4: an unlicensed one is never trained and shows DISABLED; a die out of service has none. -/
def phase4Link (links : List (Option WeftTraining)) (s : State) (l : Nat) : State :=
  if !linkRead s l then modLink s l (fun k => { k with disabled := true })
  else if (tget s.dies (l / 4)).heldOut then modLink s l (fun k => { k with state := 3 })
  else match links.getD l none with
    | some t => trainLink s l t
    | none => modLink s l (fun k => { k with state := 3 })

/-- BRING_UP_PHASE_4. -/
def bringUpPhase4 (links : List (Option WeftTraining)) (s : State) : State :=
  if !phaseDue s 4 then s else setPhase (selvedge ((List.range 16).foldl (phase4Link links) s)) 5

/-- Whether a region may be enabled: the licence as phase 1 read it, the map, and its die (R476). -/
def regionReady (s : State) (r : Nat) : Bool :=
  s.boot.licenceRead.any (fun x => bitOf x.regions.toNat r) && !(getRegion s r).darnOut && !(tget s.dies (r / 4)).heldOut

/-- BRING_UP_PHASE_5: cores that fail the self-test are fenced, and the regions are enabled. -/
def bringUpPhase5 (failedCores : List Nat) (s : State) : State :=
  if !phaseDue s 5 then s
  else
    let s1 := failedCores.foldl (fun t c => if c < 8192 then fenceCore t c 1 else t) s
    let s2 : State := { s1 with
      regions := tmodAll s1.regions (List.range 16) (fun r g => { g with
        enabled := regionReady s r, outOfService := (tget s.dies (r / 4)).heldOut }) }
    setPhase s2 6

/-! ### Licence verification (R461, R475 to R477) -/

/-- The active licence when it verifies. -/
def activeLicence (s : State) : Option Licence :=
  if ¬ s.flash.licActive.isEmpty ∧ licStatus s s.flash.licActive = stOk then some (licOf s.flash.licActive) else none

/-- The verified licence: pending, else active; a warm bring-up without a pending licence keeps the last result. -/
def verifyLicence (s : State) : State :=
  match s.flash.licPending with
  | some b =>
    if licStatus s b = stOk then
      { s with
        flash := { s.flash with licActive := b, licPending := none, licCounter := Nat.max s.flash.licCounter (licOf b).serial }
        boot := { s.boot with licence := some (licOf b) } }
    else
      let s1 := recordMgmt s 0x0902 .contained 0 0 (licStatus s b)
      { s1 with boot := { s1.boot with licence := activeLicence s1 } }
  | none => if s.pcie.warm then s else { s with boot := { s.boot with licence := activeLicence s } }

/-- Disable what phases 4 and 5 enabled and the verified licence does not grant. -/
def applyLicence (s : State) : State :=
  let l := s.boot.licence
  let s1 : State := { s with
    regions := tmodAll s.regions (List.range 16) (fun r g => { g with enabled := g.enabled && l.any (fun x => bitOf x.regions.toNat r) }) }
  let s2 := ((List.range 16).filter (fun n => !l.any (fun x => bitOf x.weftLinks.toNat n) && !(getLink s1 n).disabled)).foldl disableLink s1
  let s3 := if (agreedDies s2).contains 5 && !l.any (·.chiplet) then markHeld s2 5 5 else s2
  let s4 := if s3.flash.manager && !l.any (·.manager) then
      { recordMgmt s3 0x0903 .corrected with weft := { s3.weft with manager := false } }
    else s3
  if l.isNone then degrade s4 20 none else s4

/-- The regions that the licence names and that stay disabled enter the report (R476). -/
def reportRegions (s : State) : State :=
  ((List.range 16).filter (fun r => licensedRegion s r && !(getRegion s r).enabled)).foldl (fun t r =>
    degrade t 1 (some (listEntry 0x0B (r + 16 * b2n (getRegion t r).outOfService + 32 * b2n (getRegion t r).darnOut)))) s

/-- LICENCE_VERIFICATION, after which the device reports ready, or is held by the selvedge check (R483). Without a licence
it reports ready (R477). -/
def licenceVerification (s : State) : State :=
  if !phaseDue s 6 then s
  else
    let s1 := setPhase (reportRegions (applyLicence (verifyLicence s))) 7
    if s1.weft.discrepancies.isEmpty || s1.boot.licence.isNone then reportReady s1 else holdTopology s1

/-! ### The rows of the table -/

/-- BOOT_HOST_GO. -/
def execBootHostGo (image : HostData) (s : State) : Host.Outcome State Fault Refusal := .next (bootHostGo image s)

/-- BRING_UP_PHASE_1. -/
def execBringUpPhase1 (s : State) : Host.Outcome State Fault Refusal := .next (bringUpPhase1 s)

/-- BRING_UP_PHASE_2. -/
def execBringUpPhase2 (dies : List DieAnswer) (sides : List (BitVec 4)) (hubReadings : HubReadings) (s : State) :
    Host.Outcome State Fault Refusal := .next (bringUpPhase2 dies sides hubReadings s)

/-- BRING_UP_PHASE_3. -/
def execBringUpPhase3 (ladders : List (BitVec 8)) (hbmStacks : List HbmTraining) (failedBanks failedPcs failedTsvChannels : List Nat)
    (reweaveClean : Bool) (s : State) : Host.Outcome State Fault Refusal :=
  .next (bringUpPhase3 ladders hbmStacks failedBanks failedPcs failedTsvChannels reweaveClean s)

/-- BRING_UP_PHASE_4. -/
def execBringUpPhase4 (links : List (Option WeftTraining)) (s : State) : Host.Outcome State Fault Refusal :=
  .next (bringUpPhase4 links s)

/-- BRING_UP_PHASE_5. -/
def execBringUpPhase5 (failedCores : List Nat) (s : State) : Host.Outcome State Fault Refusal := .next (bringUpPhase5 failedCores s)

/-- LICENCE_VERIFICATION. -/
def execLicenceVerification (s : State) : Host.Outcome State Fault Refusal := .next (licenceVerification s)

/-- BRINGUP_HOLD_END. -/
def execBringupHoldEnd (s : State) : Host.Outcome State Fault Refusal := .next (bringupHoldEnd s)

end Sys2Proof.Machine
end

