-- ==== Sys2Proof/Machine/Links.lean ====
section
/-!
DEFINITION. The receiving side of the weft links (spec/13_weft_links.md R372 to R381, R391): the code of a frame, flits
and the go-back-N resend, retraining in service, identity flits (spec/16_bring_up.md R484), and stalled virtual channels.
-/
namespace Sys2Proof.Machine

/-! ### RS(272,256) over GF(2^10) (R372, R373) -/

/-- One step of a product in GF(2^10) with the primitive polynomial x^10 + x^3 + 1. -/
def gfDouble (a : Nat) : Nat := if 512 ≤ a then Nat.xor (a * 2 % 1024) 9 else a * 2

/-- The product of two field elements, by the bits of the second from the highest. -/
def gfMul (a b : Nat) : Nat :=
  (List.range 10).foldl (fun acc i => let d := gfDouble acc; if bitOf b (9 - i) then Nat.xor d a else d) 0

/-- α to a power. -/
def gfAlpha (n : Nat) : Nat := iterate gfDouble (n % 1023) 1

/-- The inverse of a nonzero element: its power 1,022. -/
def gfInv (a : Nat) : Nat :=
  ((List.range 9).foldl (fun (x : Nat × Nat) _ => let q := gfMul x.1 x.1; (q, gfMul x.2 q)) (a, 1)).2

/-- A polynomial, lowest coefficient first, at a point. -/
def gfEval (p : List Nat) (x : Nat) : Nat := p.foldr (fun c acc => Nat.xor (gfMul acc x) c) 0

/-- The sum of two polynomials. -/
def gfAdd : List Nat → List Nat → List Nat
  | [], q => q
  | p, [] => p
  | a :: p, b :: q => Nat.xor a b :: gfAdd p q

/-- The product of two polynomials. -/
def gfPolyMul : List Nat → List Nat → List Nat
  | [], _ => []
  | a :: p, q => gfAdd (q.map (gfMul a)) (0 :: gfPolyMul p q)

/-- The syndromes of a codeword at the roots α^0 to α^15; its first symbol is the highest coefficient. -/
def rsSyndromes (w : List Nat) : List Nat := (List.range 16).map (fun j => gfEval w.reverse (gfAlpha j))

/-- State of the search for the error locator: locator, previous locator, errors assumed, shift, previous discrepancy. -/
structure RsSearch where
  loc : List Nat
  prev : List Nat
  len : Nat
  shift : Nat
  disc : Nat
deriving DecidableEq, Repr

/-- One syndrome of the search (Berlekamp and Massey's). -/
def rsSearchStep (syn : List Nat) (x : RsSearch) (n : Nat) : RsSearch :=
  let d := (List.range (x.len + 1)).foldl (fun a i => Nat.xor a (gfMul (x.loc.getD i 0) (syn.getD (n - i) 0))) 0
  if d = 0 then { x with shift := x.shift + 1 }
  else
    let new := gfAdd x.loc (List.replicate x.shift 0 ++ x.prev.map (gfMul (gfMul d (gfInv x.disc))))
    if 2 * x.len ≤ n then { loc := new, prev := x.loc, len := n + 1 - x.len, shift := 1, disc := d }
    else { x with loc := new, shift := x.shift + 1 }

/-- The error locator of some syndromes and the number of errors it assumes. -/
def rsLocator (syn : List Nat) : RsSearch :=
  (List.range 16).foldl (rsSearchStep syn) { loc := [1], prev := [1], len := 0, shift := 1, disc := 1 }

/-- The error value at a position of power `p`, for an error there. -/
def rsValue (syn loc : List Nat) (p : Nat) : Nat :=
  let inv := gfAlpha (1023 - p % 1023)
  let omega := (gfPolyMul syn loc).take 16
  let slope := (List.range loc.length).map (fun i => if i % 2 = 0 then loc.getD (i + 1) 0 else 0)
  gfMul (gfAlpha p) (gfMul (gfEval omega inv) (gfInv (gfEval slope inv)))

/-- A received codeword decoded: the corrected symbols and how many were corrected; none when more than 8 were wrong
(R374). -/
def rsDecode (w : List Nat) : Option (List Nat × Nat) :=
  let syn := rsSyndromes w
  if syn.all (· == 0) then some (w, 0)
  else
    let x := rsLocator syn
    let bad := (List.range 272).filter (fun i => gfEval x.loc (gfAlpha (1023 - (271 - i))) == 0)
    if 8 < x.len ∨ bad.length ≠ x.len then none
    else
      let fixed := bad.foldl (fun (t : List Nat) i => t.set i (Nat.xor (t.getD i 0) (rsValue syn x.loc (271 - i)))) w
      if (rsSyndromes fixed).all (· == 0) then some (fixed, x.len) else none

/-- The bytes that a list of bits spells, the first bit lowest. -/
def bytesOfBits : Nat → List Bool → Bytes
  | 0, _ => []
  | n + 1, b => BitVec.ofNat 8 ((b.take 8).foldr (fun x acc => b2n x + 2 * acc) 0) :: bytesOfBits n (b.drop 8)

/-- The 1,280 data bytes of a frame: data symbol j is symbol j div 4 of codeword j mod 4 (R373). -/
def frameBytes (ws : List (List Nat)) : Bytes :=
  bytesOfBits 1280 ((List.range 1024).flatMap (fun j =>
    let v := (ws.getD (j % 4) []).getD (j / 4) 0
    (List.range 10).map (bitOf v)))

/-- The generator polynomial, with the roots α^0 to α^15. -/
def rsGenerator : List Nat := (List.range 16).foldl (fun g i => gfPolyMul g [gfAlpha i, 1]) [1]

/-- The 16 parity symbols of 256 data symbols: the remainder of the data, moved up 16 places, by the generator. -/
def rsParity (data : List Nat) : List Nat :=
  let g := (rsGenerator.take 16).reverse
  data.foldl (fun (r : List Nat) d =>
    let q := Nat.xor d (r.headD 0)
    (List.zip (r.drop 1 ++ [0]) g).map (fun e => Nat.xor e.1 (gfMul q e.2))) (List.replicate 16 0)

/-- The codewords of the frame that five flits make (R372, R373). -/
def frameWords (flits : List Bytes) : List (List Nat) :=
  let b := flits.flatten
  let symbol := fun (j : Nat) => fieldAt b (10 * j / 8) 2 / 2 ^ (10 * j % 8) % 1024
  (List.range 4).map (fun k => let d := (List.range 256).map (fun i => symbol (4 * i + k)); d ++ rsParity d)

/-- Symbol `t` that a lane sends of a frame at a width: the codewords in strict rotation (R373). -/
def laneSymbol (ws : List (List Nat)) (width lane t : Nat) : Nat := (ws.getD (t % 4) []).getD (t / 4 * width + lane) 0

/-! ### Acknowledgement and resend (R376) -/

/-- Whether a link's link layer runs: it is in service and its C-die's clocks run. -/
def linkRuns (s : State) (l : Nat) : Bool :=
  decide (l < 16) && linkInService s l && !(tget s.dies (l / 4)).clocksStopped && !s.pins.refclkLost

/-- Drop the flits of the replay buffer up to an acknowledged SEQ. -/
def ackReplay (ack : Nat) (r : List (Nat × Bytes)) : List (Nat × Bytes) :=
  match findIndex (fun e => e.1 == ack) r with
  | some i => r.drop (i + 1)
  | none => r

/-- The replay buffer's flits in order, with the control word of now. -/
def replayFlits (k : WeftLink) : List Bytes := k.replay.map (fun e => e.2.take 252 ++ linkControl k false)

/-- Resend every unacknowledged flit, and count the resend and its repetitions from one SEQ. -/
def resendAll (k : WeftLink) : WeftLink :=
  match k.replay with
  | [] => k
  | e :: _ =>
    { k with
      sent := k.sent ++ replayFlits k, sinceAck := 0, replays := satAdd k.replays 1, resendSeq := e.1
      resends := if k.resends = 0 ∨ k.resendSeq ≠ e.1 then 1 else k.resends + 1 }

/-- A received link-control word: its ACK frees the replay buffer, its NAK asks for a resend. -/
def takeControl (k : WeftLink) (cw : Bytes) : WeftLink :=
  let v := leNat (cw.take 3)
  if crc8 (cw.take 3) ≠ fieldAt cw 3 1 then k
  else
    let k1 := if bitOf v 12 then { k with replay := ackReplay (bitsOf v 11 0) k.replay } else k
    pumpLink (if bitOf v 13 then resendAll k1 else k1)

/-- Credits that a flit returns. -/
def takeCredits (k : WeftLink) (h : Nat) : WeftLink :=
  let vc := bitsOf h 21 20
  pumpLink { k with credits := k.credits.set vc (k.credits.getD vc 0 + bitsOf h 29 22) }

/-- A flit that the receiver refuses: one NAK for the gap. -/
def refuseFlit (k : WeftLink) : WeftLink :=
  let k1 := { k with crcFail := satAdd k.crcFail 1 }
  if k.nakSent then k1 else { sendNull k1 0 0 true with nakSent := true }

/-- A DATA flit in order: its payload joins its message, an ACK leaves after every 32. -/
def acceptFlit (k : WeftLink) (h : Nat) (payload : Bytes) : WeftLink :=
  let vc := bitsOf h 5 4
  let part := (if bitOf h 18 then [] else tget k.rxPart vc) ++ payload
  let k1 := { k with expected := (k.expected + 1) % 4096, got := true, nakSent := false, sinceAck := k.sinceAck + 1 }
  let k2 := if bitOf h 19 then { k1 with rxPart := terase k1.rxPart vc, rxMsgs := k1.rxMsgs ++ [msgOf vc part] }
    else { k1 with rxPart := tset k1.rxPart vc part }
  if 32 ≤ k2.sinceAck then sendNull k2 0 0 false else k2

/-- A flit after the code (R375, R376). The identity that a CTRL flit carries enters by IDENTITY_FLIT. -/
def takeFlit (k : WeftLink) (b : Bytes) : WeftLink :=
  let h := fieldAt b 0 6
  let k1 := takeControl k (b.drop 252)
  if crc32 (b.take 248) ≠ fieldAt b 248 4 then refuseFlit k1
  else if bitsOf h 3 0 = flNull then takeCredits k1 h
  else if bitsOf h 3 0 ≠ flData then k1
  else if bitsOf h 17 6 ≠ k1.expected then refuseFlit k1
  else takeCredits (acceptFlit k1 h ((b.drop 6).take 242)) h

/-- A flit arrives on a link. -/
def weftFlit (link : Nat) (flit : Bytes) (s : State) : State :=
  if linkRuns s link && flit.length == 256 then modLink s link (fun k => takeFlit k flit) else s

/-- A received frame: its flits, or one more uncorrectable frame (R374). -/
def weftFrame (link : Nat) (codewords : List (List (BitVec 10))) (s : State) : State :=
  if !linkRuns s link || codewords.length != 4 || codewords.any (fun w => w.length != 272) then s
  else
    let got := codewords.map (fun w => rsDecode (w.map (·.toNat)))
    let fixed := sumOf (got.map (fun g => (g.map (·.2)).getD 0))
    let s1 := modLink s link (fun k => { k with fecCorr := satAdd k.fecCorr fixed })
    if got.any (·.isNone) then modLink s1 link (fun k => { k with fecUncorr := satAdd k.fecUncorr 1 })
    else (chunks 5 256 (frameBytes (got.map (fun g => (g.map (·.1)).getD [])))).foldl (fun t b => weftFlit link b t) s1

/-- WEFT_ACK_TIMER: 100 ns have passed since the last ACK. -/
def weftAckTimer (link : Nat) (s : State) : State :=
  if linkRuns s link && (getLink s link).got then modLink s link (fun k => sendNull k 0 0 false) else s

/-- WEFT_RESEND_TIMEOUT: no ACK has advanced for 2 µs while flits are unacknowledged. -/
def weftResendTimeout (link : Nat) (s : State) : State :=
  if linkRuns s link then modLink s link resendAll else s

/-! ### Retraining (R380) -/

/-- The width that usable lanes give a link that may not widen. -/
def narrowerWidth (now : BitVec 2) (lanes : BitVec 8) : Option (BitVec 2 × BitVec 8) :=
  firstThat (fun c => decide (c.1.toNat ≤ now.toNat) && lanes &&& c.2 == c.2)
    [(3, 0xFF), (2, 0x0F), (2, 0xF0), (1, 0x03), (1, 0x0C), (1, 0x30), (1, 0xC0)]

/-- The width of an in-service link fell: a record, the report, and a LINK_DEGRADED notice (Table 13-5, step 5). -/
def noteFell (s : State) (l : Nat) : State :=
  let s1 := modLink s l (fun k => { k with
    degraded := decide (lanesOf k.width.toNat < requiredWidth s l), fell := true })
  let s2 := recordDie s1 (l / 4) 0x0601 .contained (unitAddr 4 l) 0 stDegraded
  sendNotice (relist s2 l) 3 l stDegraded (lastRecord s2)

/-- LINK_RETRAIN: `lanes` are those that both ends passed. -/
def linkRetrain (l : Nat) (lanes : BitVec 8) (s : State) : State :=
  if !linkRuns s l then s
  else
    let k := getLink s l
    match narrowerWidth k.width lanes with
    | none => linkOut s l
    | some (w, m) =>
      let now := counterOf s (l / 4)
      let times := k.retrainAt.filter (fun t => decide (since now t < countsPerSecond)) ++ [now]
      let s1 := modLink s l (fun x => { x with
        width := w, lanes := m, retrains := if x.retrains = 0xFF then 0xFF else x.retrains + 1, retrainAt := times
        sent := x.sent ++ replayFlits x, sinceAck := 0, resends := 0 })
      let s2 := if w.toNat < k.width.toNat then noteFell s1 l else s1
      if 3 ≤ times.length then linkOut s2 l else s2

/-! ### Identity flits (R378, R484) -/

/-- Judge a link again under Table 16-11. A ready device takes a link with a discrepancy out of service and stays ready;
one that is held not ready keeps its list of discrepancies. -/
def judgeAgain (s : State) (l : Nat) : State :=
  match s.weft.table with
  | none => s
  | some t =>
    let kind := judge s t l
    if s.pcie.ready then (if kind = 0 then s else linkOut (discrepancy s l kind) l)
    else if s.pcie.phase.toNat < 5 then s
    else
      let others := s.weft.discrepancies.filter (· != l)
      if kind = 0 then { s with weft := { s.weft with discrepancies := others } }
      else
        let s1 := discrepancy s l kind
        { s1 with weft := { s1.weft with discrepancies := others ++ [l] } }

/-- IDENTITY_FLIT. -/
def identityFlitIn (l : Nat) (i : WeftIdentity) (s : State) : State :=
  if linkRuns s l then judgeAgain (modLink s l (fun k => { k with remote := some i })) l else s

/-- Whether a link may train: licensed, not disabled, not under test, its die in service and running. -/
def mayTrain (s : State) (l : Nat) : Bool :=
  let d := tget s.dies (l / 4)
  decide (l < 16) && s.boot.licence.any (fun x => bitOf x.weftLinks.toNat l) && !(getLink s l).disabled && !(getLink s l).test
    && !d.heldOut && !d.clocksStopped && !d.inReset && !s.pins.refclkLost && decide (5 ≤ s.pcie.phase.toNat)

/-- FAR_END_LINK_TRAINING: the device at the far end runs its own bring-up. A link that was in service has lost its far end,
so it leaves service first (R379, R381). -/
def farEndLinkTraining (l : Nat) (t : WeftTraining) (s : State) : State :=
  if !mayTrain s l then s
  else
    let s1 := if linkInService s l then linkOut s l else s
    let s2 := trainLink s1 l t
    if linkInService s2 l then judgeAgain s2 l else s2

/-! ### Stalled channels (R391) -/

/-- VC_STALL_TIMEOUT: a virtual channel of a link's input has forwarded no flit for 10 ms while it holds flits. -/
def vcStall (l vc : Nat) (s : State) : State :=
  let k := getLink s l
  if linkRuns s l && (k.rxMsgs.any (fun m => m.vc == vc) || !(tget k.rxPart vc).isEmpty) then
    recordDie (modLink s l (fun x => { x with stall := true })) (l / 4) 0x0604 .contained (unitAddr 4 l)
  else s

/-! ### The rows of the table -/

/-- WEFT_FRAME. -/
def execWeftFrame (link : Nat) (codewords : List (List (BitVec 10))) (s : State) : Host.Outcome State Fault Refusal :=
  .next (weftFrame link codewords s)

/-- WEFT_DATA_FLIT. -/
def execWeftDataFlit (link : Nat) (flit : Flit) (s : State) : Host.Outcome State Fault Refusal := .next (weftFlit link flit s)

/-- WEFT_ACK_TIMER. -/
def execWeftAckTimer (link : Nat) (s : State) : Host.Outcome State Fault Refusal := .next (weftAckTimer link s)

/-- WEFT_RESEND_TIMEOUT. -/
def execWeftResendTimeout (link : Nat) (s : State) : Host.Outcome State Fault Refusal := .next (weftResendTimeout link s)

/-- LINK_RETRAIN. -/
def execLinkRetrain (link : Nat) (lanes : BitVec 8) (s : State) : Host.Outcome State Fault Refusal :=
  .next (linkRetrain link lanes s)

/-- IDENTITY_FLIT. -/
def execIdentityFlit (link : Nat) (identity : WeftIdentity) (s : State) : Host.Outcome State Fault Refusal :=
  .next (identityFlitIn link identity s)

/-- FAR_END_LINK_TRAINING. -/
def execFarEndLinkTraining (link : Nat) (t : WeftTraining) (s : State) : Host.Outcome State Fault Refusal :=
  .next (farEndLinkTraining link t s)

/-- VC_STALL_TIMEOUT. -/
def execVcStallTimeout (link vc : Nat) (s : State) : Host.Outcome State Fault Refusal := .next (vcStall link vc s)

end Sys2Proof.Machine
end

