-- ==== Sys2Proof/Machine/Rings.lean ====
section
/-!
DEFINITION. Submission and completion rings (spec/11_host_interface.md R310, R312 to R319, Tables 11-6 to 11-8;
spec/13_weft_links.md R393, R394): their registers, doorbells, and the fetch of packets.
-/
namespace Sys2Proof.Machine

/-! ### Ring registers (R313) -/

def getSq (s : State) (q : Nat) : Sq := tget s.sqs q
def getCq (s : State) (q : Nat) : Cq := tget s.cqs q

/-- ACTIVE: ENABLE is 1 or a fetched packet has not replied (Table 11-6). -/
def sqActive (s : State) (q : Nat) : Bool := (getSq s q).enable || s.packets.any (fun k => k.src == .ring q)

/-- Whether an ACTIVE submission ring names a completion ring. -/
def cqNamed (s : State) (c : Nat) : Bool := (List.range 64).any (fun q => sqActive s q && (getSq s q).cq.toNat == c)

/-- PCI_SQ_CTRL as it reads. -/
def sqCtrl (s : State) (q : Nat) : Nat :=
  let x := getSq s q
  b2n x.enable + 2 * b2n x.loc + 4 * b2n (sqActive s q) + 8 * b2n x.cfgErr + 16 * x.sizeLog2.toNat + 4096 * x.weight.toNat
    + 65536 * x.cq.toNat

/-- PCI_CQ_CTRL as it reads. -/
def cqCtrl (s : State) (q : Nat) : Nat :=
  let x := getCq s q
  b2n x.enable + 2 * b2n x.loc + 4 * b2n x.cfgErr + 16 * x.sizeLog2.toNat + 65536 * x.vector.toNat + 8388608 * b2n x.irqEn

/-- Whether a ring's place satisfies R312: its base aligned to 4 KiB, and in the Warp Beam inside partition 0. -/
def ringPlaceOk (loc : Bool) (base bytes : Nat) : Bool :=
  base % 4096 == 0 && (!loc || decide (base + bytes ≤ 0x08000000))

/-- The fields of a write of PCI_SQ_CTRL other than ENABLE and CFG_ERR. -/
def sqFields (x : Sq) (v : Nat) : Sq :=
  { x with loc := bitOf v 1, sizeLog2 := BitVec.ofNat 5 (v / 16), weight := BitVec.ofNat 4 (v / 4096)
           cq := BitVec.ofNat 6 (v / 65536) }

/-- The fields of a write of PCI_CQ_CTRL other than ENABLE and CFG_ERR. -/
def cqFields (x : Cq) (v : Nat) : Cq :=
  { x with loc := bitOf v 1, sizeLog2 := BitVec.ofNat 5 (v / 16), vector := BitVec.ofNat 7 (v / 65536), irqEn := bitOf v 23 }

/-- A written 1 clears CFG_ERR (RW1C). -/
def sqClear (x : Sq) (v : Nat) : Sq := { x with cfgErr := x.cfgErr && !bitOf v 3 }
def cqClear (x : Cq) (v : Nat) : Cq := { x with cfgErr := x.cfgErr && !bitOf v 2 }

/-- Whether a submission ring may be enabled with the fields given (R312, R313, R393). -/
def sqEnableOk (s : State) (x : Sq) : Bool :=
  barsServed s && (getCq s x.cq.toNat).enable && decide (7 ≤ x.sizeLog2.toNat) && decide (x.sizeLog2.toNat ≤ 16)
    && ringPlaceOk x.loc x.base.toNat (64 * sqSize x)
    && (s.weft.manager || !(bitOf x.target.toNat 18 || bitOf x.target.toNat 19))

/-- Whether a completion ring may be enabled with the fields given (R301, R312, R313). -/
def cqEnableOk (s : State) (x : Cq) : Bool :=
  barsServed s && decide (4 ≤ x.sizeLog2.toNat) && decide (x.sizeLog2.toNat ≤ 16)
    && ringPlaceOk x.loc x.base.toNat (32 * cqSize x) && (!x.irqEn || decide (4 ≤ x.vector.toNat))

/-- A write of PCI_SQ_CTRL with ENABLE 1. -/
def sqEnable (q v : Nat) (s : State) : State :=
  let x := sqClear (getSq s q) v
  let y := sqFields x v
  if sqActive s q then
    let bad := y != x || !sqEnableOk s x
    let z := if x.enable || !sqEnableOk s x then x else { x with enable := true, head := 0, tail := 0, short := false }
    modSq s q (fun _ => { z with cfgErr := z.cfgErr || bad })
  else if sqEnableOk s y then modSq s q (fun _ => { y with enable := true, head := 0, tail := 0, short := false })
  else modSq s q (fun _ => { x with cfgErr := true })

/-- ENABLE 0: fetching stops at once (R313). -/
def sqDisable (q : Nat) (s : State) : State := modSq s q (fun x => { x with enable := false })

/-- A write of PCI_CQ_CTRL with ENABLE 1: an enabled ring keeps to R312 and to its vectors. -/
def cqEnable (q v : Nat) (s : State) : State :=
  let x := cqClear (getCq s q) v
  let y := cqFields x v
  if !x.enable then
    if cqEnableOk s y then
      modCq s q (fun _ => { y with
        enable := true, tail := 0, phase := true, head := 0, reserved := 0, unread := 0, unsignalled := 0 })
    else modCq s q (fun _ => { x with cfgErr := true })
  else if cqNamed s q || !cqEnableOk s y then modCq s q (fun _ => { x with cfgErr := true })
  else modCq s q (fun _ => y)

/-- A write of PCI_CQ_CTRL with ENABLE 0 (R313). -/
def cqDisable (q : Nat) (s : State) : State :=
  if (getCq s q).enable && cqNamed s q then modCq s q (fun x => { x with cfgErr := true })
  else modCq s q (fun x => { x with enable := false })

/-- The fields of a write of PCI_SQ_CTRL while ENABLE stays 0. -/
def sqCtrlWrite (q v : Nat) (s : State) : State :=
  let x := sqClear (getSq s q) v
  if sqActive s q then modSq s q (fun _ => { x with enable := false, cfgErr := x.cfgErr || sqFields x v != x })
  else modSq s q (fun _ => { sqFields x v with enable := false })

/-- The fields of a write of PCI_CQ_CTRL with ENABLE 0. -/
def cqCtrlWrite (q v : Nat) (s : State) : State :=
  let x := cqClear (getCq s q) v
  let y := cqFields x v
  if x.enable && (cqNamed s q || (y.irqEn && decide (y.vector.toNat < 4))) then modCq s q (fun _ => { x with cfgErr := true })
  else modCq s q (fun _ => { y with enable := false })

/-- A write of PCI_SQ_BASE, PCI_CQ_BASE or PCI_SQ_TARGET: discarded with CFG_ERR while the ring is in use (R313, R393), and where
an enabled completion ring would leave the places that R312 allows. -/
def sqBaseWrite (q : Nat) (f : Word64 → Word64) (s : State) : State :=
  if sqActive s q then modSq s q (fun x => { x with cfgErr := true }) else modSq s q (fun x => { x with base := f x.base })
def cqBaseWrite (q : Nat) (f : Word64 → Word64) (s : State) : State :=
  let c := getCq s q
  if c.enable && (cqNamed s q || !ringPlaceOk c.loc (f c.base).toNat (32 * cqSize c)) then
    modCq s q (fun x => { x with cfgErr := true })
  else modCq s q (fun x => { x with base := f x.base })
def sqTargetWrite (q v : Nat) (s : State) : State :=
  if sqActive s q then modSq s q (fun x => { x with cfgErr := true })
  else modSq s q (fun x => { x with target := BitVec.ofNat 21 v })

/-! ### Doorbells (R310) -/

/-- SQ_TAIL. -/
def sqTail (q v : Nat) (s : State) : State :=
  let x := getSq s q
  let i := v % 65536
  if !barsServed s || !x.enable then s
  else if sqSize x ≤ i then modSq s q (fun y => { y with cfgErr := true })
  else modSq s q (fun y => { y with tail := BitVec.ofNat 16 i, short := false })

/-- CQ_HEAD: the entries from the freed index up to the named one are released. -/
def cqHead (q v : Nat) (s : State) : State :=
  let x := getCq s q
  let i := v % 65536
  if !barsServed s || !x.enable then s
  else if cqSize x ≤ i then modCq s q (fun y => { y with cfgErr := true })
  else
    let n := (i + cqSize x - x.head.toNat) % cqSize x
    modCq s q (fun y => { y with head := BitVec.ofNat 16 i, unread := y.unread - n })

/-! ### Fetch (R314, R316, R317) -/

/-- Slots between HEAD and the tail. -/
def sqWaiting (x : Sq) : Nat := (x.tail.toNat + sqSize x - x.head.toNat) % sqSize x

/-- Whether a completion ring has an entry that is neither unreleased nor reserved. -/
def cqRoom (s : State) (c : Nat) : Bool := decide ((getCq s c).unread + (getCq s c).reserved < cqSize (getCq s c))

/-- The bytes of `n` slots of a ring in the Warp Beam from slot `i` on, wrapping. -/
def ringBytes (s : State) (x : Sq) (i n : Nat) : Bytes :=
  (List.range n).flatMap (fun j => readBytes s.mem (wbAddr (x.base.toNat + 64 * ((i + j) % sqSize x))) 64)

/-- The entry of a worker that ordered packets go to, made on first use (R394). -/
def workerOf (s : State) (d : Nat) : Worker := (firstThat (fun w => w.device == d) s.weft.workers).getD { device := d }
def setWorker (s : State) (w : Worker) : State :=
  let old := s.weft.workers
  let all := if old.any (fun x => x.device == w.device) then modFirst (fun x => x.device == w.device) (fun _ => w) old
    else old ++ [w]
  { s with weft := { s.weft with workers := all } }

/-- Whether a submission ring may be fetched from but for the length of its packet: enabled, slots waiting, an entry of its
completion ring free (R314), and for a worker's ring fewer than 256 packets without a reply (R394). -/
def fetchOpen (s : State) (q : Nat) : Bool :=
  let x := getSq s q
  let worker := bitOf x.target.toNat 18 && !bitOf x.target.toNat 19
  x.enable && cqRoom s x.cq.toNat && decide (0 < sqWaiting x)
    && !(worker && decide (256 ≤ (workerOf s (x.target.toNat % 262144)).unreplied.length))

/-- Whether a submission ring has a fetchable packet as far as the device knows: a ring in the Warp Beam shows its slots, and a
ring in host memory has one until a fetch finds that the packet's slots are not all there (log 32). -/
def fetchable (s : State) (q : Nat) : Bool :=
  let x := getSq s q
  fetchOpen s q
    && (if x.loc then decide (1 + fieldAt (ringBytes s x x.head.toNat 1) 0x0C 1 % 64 ≤ sqWaiting x) else !x.short)

/-- Whether a ring has packets left in its round (R316). -/
def inRound (s : State) (q : Nat) : Bool := decide ((getSq s q).served ≤ (getSq s q).weight.toNat)

/-- Whether a ring may be served now: it has packets left in the round, or no other ring with packets left waits. -/
def mayServe (s : State) (q : Nat) : Bool :=
  inRound s q || !(List.range 64).any (fun p => p != q && inRound s p && fetchable s p)

/-- Count a packet served; a ring that had none left begins a new round. -/
def countServed (s : State) (q : Nat) : State :=
  if inRound s q then modSq s q (fun x => { x with served := x.served + 1 })
  else { s with sqs := tmodAll s.sqs (List.range 64) (fun p x => { x with served := if p = q then 1 else 0 }) }

/-- Send a fetched packet to a worker as an ordered PACKET (R393 to R395). -/
def forwardPacket (s : State) (d p : Nat) (body : Bytes) : State :=
  let w := workerOf s d
  sendPacket (setWorker s { w with next := (w.next + 1) % 65536, unreplied := w.unreplied ++ [(w.next, p)] }) d w.next true none
    body

/-- A packet's bytes enter the device from ring q (R314): its entry is reserved and HEAD advances. -/
def takePacket (s : State) (q : Nat) (b : Bytes) : State :=
  let x := getSq s q
  let n := 1 + fieldAt b 0x0C 1 % 64
  let head := (x.head.toNat + n) % sqSize x
  let s1 := modCq (modSq s q (fun y => { y with head := BitVec.ofNat 16 head, short := false })) x.cq.toNat
    (fun c => { c with reserved := c.reserved + 1 })
  let s2 := countServed s1 q
  let t := x.target.toNat
  let addr := if x.loc then wbAddr (x.base.toNat + 64 * x.head.toNat) else x.base.toNat + 64 * x.head.toNat
  if bitOf t 19 ∨ bitOf t 18 then
    let k := { packetOf s2.nextPacket (.ring q) b head x.cq.toNat with away := true }
    let s3 : State := { s2 with packets := s2.packets ++ [k], nextPacket := s2.nextPacket + 1 }
    if bitOf t 19 then
      let i := s3.weft.nextBcast
      let s4 := bcastDown s3 (some k.id) i k.tag (bitOf t 20) b
      if bitOf t 20 then acceptPacket s4 (.bcast i) b 0 0 addr stOk else s4
    else forwardPacket s3 (t % 262144) k.id b
  else acceptPacket s2 (.ring q) b head x.cq.toNat addr stOk

/-- PACKET_FETCH: the next packet of a ring, with the bytes that the host returned for a ring in host memory. A host read
that fails is recorded, and the packet stays in the ring (R324). -/
def packetFetch (q : Nat) (host : HostData) (s : State) : State :=
  let x := getSq s q
  if !fetchOpen s q || !hostOpen s || !barsServed s || decide (4096 ≤ s.packets.length) || !mayServe s q then s
  else if x.loc then
    let n := 1 + fieldAt (ringBytes s x x.head.toNat 1) 0x0C 1 % 64
    if sqWaiting x < n then s
    else
      let blks := (List.range n).map (fun j => (wbAddr (x.base.toNat + 64 * ((x.head.toNat + j) % sqSize x)) / 256))
      let r := readBlocks s [] blks.eraseDups
      takePacket r.1 q (ringBytes r.1 x x.head.toNat n)
  else match host with
    | .failed a => recordPcie (modSq s q (fun y => { y with short := true })) 0x0504 .contained a 0 stHostDma
    | .bytes b =>
      let n := 1 + fieldAt b 0x0C 1 % 64
      if sqWaiting x < n then modSq s q (fun y => { y with short := true })
      else if b.length < 64 * n then s
      else takePacket s q (b.take (64 * n))

/-- CQ_COALESCE_TIMER (R319): TIME has passed since the oldest unsignalled reply. -/
def cqTimer (q : Nat) (s : State) : State :=
  let c := getCq s q
  if c.irqEn && decide (0 < c.unsignalled) then
    sendVector (modCq s q (fun x => { x with unsignalled := 0 })) c.vector.toNat
  else s

/-! ### The rows of the table -/

/-- SQ_TAIL. -/
def execSqTail (q : Nat) (value : Word) (s : State) : Host.Outcome State Fault Refusal := .next (sqTail q value.toNat s)

/-- CQ_HEAD. -/
def execCqHead (q : Nat) (value : Word) (s : State) : Host.Outcome State Fault Refusal := .next (cqHead q value.toNat s)

/-- PACKET_FETCH. -/
def execPacketFetch (q : Nat) (host : HostData) (s : State) : Host.Outcome State Fault Refusal :=
  .next (packetFetch q host s)

/-- CQ_COALESCE_TIMER. -/
def execCqCoalesceTimer (q : Nat) (s : State) : Host.Outcome State Fault Refusal := .next (cqTimer q s)

/-- SQ_ENABLE: a write of PCI_SQ_CTRL with ENABLE 1. -/
def execSqEnable (q : Nat) (value : Word) (s : State) : Host.Outcome State Fault Refusal := .next (sqEnable q value.toNat s)

/-- SQ_DISABLE. -/
def execSqDisable (q : Nat) (s : State) : Host.Outcome State Fault Refusal := .next (sqDisable q s)

/-- CQ_ENABLE: a write of PCI_CQ_CTRL with ENABLE 1. -/
def execCqEnable (q : Nat) (value : Word) (s : State) : Host.Outcome State Fault Refusal := .next (cqEnable q value.toNat s)

/-- CQ_DISABLE. -/
def execCqDisable (q : Nat) (s : State) : Host.Outcome State Fault Refusal := .next (cqDisable q s)

end Sys2Proof.Machine
end

