-- ==== Sys2Proof/Machine/Managers.lean ====
section
/-!
DEFINITION. Weft messages at their destination (spec/13_weft_links.md R382 to R390, R392 to R397): packets and their
authority, ordered packets, replies, WRITEs and WACKs, remote knot operations, notices, transit and relay, and the timers.
-/
namespace Sys2Proof.Machine

/-! ### Messages that have arrived -/

/-- Whether what arrived on a link can be handled: the hub's clocks run, and those of the link's C-die. Index 16 holds the
messages that this device sent to itself. -/
def inputRuns (s : State) (l : Nat) : Bool :=
  hubRuns s && (l == 16 || (decide (l < 16) && !(tget s.dies (l / 4)).clocksStopped))

/-- Whether a message is for this device (R387, step 1). -/
def forHere (s : State) (l : Nat) (m : Msg) : Bool := l == 16 || m.linkLocal || ownDevice s == some m.dest

/-- Take the oldest message of a link that satisfies a test; its flits leave the buffer and their credits return (R377). -/
def takeMsg (s : State) (l : Nat) (p : Msg → Bool) : Option (Msg × State) :=
  match firstThat p (getLink s l).rxMsgs with
  | none => none
  | some m =>
    some (m, modLink s l (fun k =>
      let k1 := { k with rxMsgs := k.rxMsgs.erase m }
      if k1.state = 2 then sendNull k1 m.vc (msgFlits m) false else k1))

/-- Forward a message from this device on (R387 to R389). -/
def forwardOn (s : State) (m : Msg) : State :=
  match routeOf s m with
  | .here => deliverHere s m
  | _ => if 31 ≤ m.hops then discardMsg s m else sendMsg s { m with hops := m.hops + 1 }

/-- A message with RELAY 1 for this device: a manager routes it again towards FINAL (R390). -/
def relayOn (s : State) (m : Msg) : State :=
  if s.weft.manager then forwardOn s { m with dest := m.final, relay := false, final := 0 } else discardMsg s m

/-- Handle the oldest message of a kind for this device. -/
def onMsg (s : State) (l kind : Nat) (f : State → Msg → State) : State :=
  if !inputRuns s l then s
  else match takeMsg s l (fun m => m.kind == kind && forHere s l m) with
    | none => s
    | some (m, t) => if m.relay then relayOn t m else f t m

/-- TRANSIT_FORWARD: the oldest message of a link for another device. It reaches the outgoing link's C-die over the side link or
through H (R19, R388), and waits while a port on that way carries nothing. -/
def transitForward (l : Nat) (s : State) : State :=
  if (tget s.dies (l / 4)).clocksStopped || s.pins.refclkLost || !decide (l < 16) then s
  else match takeMsg s l (fun m => !forHere s l m) with
    | none => s
    | some (m, t) => match routeOf t m with
      | .link x y =>
        if 31 ≤ m.hops then forwardOn t m
        else if transitOpen t (l / 4) (x / 4) then forwardOn (crossPackage t (l / 4) (x / 4) y) m
        else s
      | _ => forwardOn t m

/-- PKT_NUM, ORDERED and BCAST or COMBINED of a message (Table 13-7). -/
def pktNum (m : Msg) : Nat := bitsOf m.spec.toNat 15 0
def pktOrdered (m : Msg) : Bool := bitOf m.spec.toNat 16
def pktTree (m : Msg) : Bool := bitOf m.spec.toNat 17

/-! ### PACKET (R385, R394 to R396, R398) -/

/-- The status that a packet's source has authority for (R385, R398). Class 0xF0 from the own manager fails the opcode check
(R368, log 68). -/
def packetAllowed (s : State) (l : Nat) (m : Msg) : Nat :=
  let op := fieldAt m.body 0 2
  if s.weft.ownManager = some m.src then stOk
  else if op / 256 = 5 then stOk
  else if ownDevice s = none ∧ m.linkLocal = true ∧ op = 0x0905 ∧ (getLink s l).remote.any (·.manager) = true then stOk
  else stTopology

/-- Release the kept replies that the manager has acknowledged (R395). -/
def releaseReplies (s : State) (ack : Nat) : State :=
  { s with weft := { s.weft with kept := s.weft.kept.filter (fun e => decide (32768 ≤ (ack + 65536 - e.1) % 65536)) } }

/-- Start the ordered packet whose turn it is. -/
def startOrdered (s : State) (m : Msg) : State :=
  acceptPacket { s with weft := { s.weft with expectNum := (s.weft.expectNum + 1) % 65536 } }
    (.manager m.src (pktNum m) true) m.body 0 0 0 (packetAllowed s 16 m)

/-- Start the early arrivals whose turn has come. -/
def startEarly : Nat → State → State
  | 0, s => s
  | n + 1, s =>
    match firstThat (fun e => e.1 == s.weft.expectNum) s.weft.early with
    | none => s
    | some e => startEarly n (startOrdered { s with weft := { s.weft with early := s.weft.early.erase e } } e.2)

/-- An ordered packet of the manager: started in turn, held when up to 255 numbers ahead, discarded otherwise (R394). -/
def orderedPacket (s : State) (m : Msg) : State :=
  let ahead := (pktNum m + 65536 - s.weft.expectNum) % 65536
  if ahead = 0 then startEarly (s.weft.early.length + 1) (startOrdered s m)
  else if ahead ≤ 255 ∧ ¬ s.weft.early.any (fun e => e.1 == pktNum m) then
    { s with weft := { s.weft with early := s.weft.early ++ [(pktNum m, m)] } }
  else s

/-- A broadcast packet on the PARENT link (R396, steps 1 to 3). -/
def bcastPacket (s : State) (m : Msg) : State :=
  let i := s.weft.nextBcast
  acceptPacket (bcastDown s none (pktNum m) (fieldAt m.body 4 4) true m.body) (.bcast i) m.body 0 0 0 stOk

/-- The lagging indication of a remote ARRIVE is in the message's header (log 30). -/
def markLag (s : State) (p : Nat) (m : Msg) : State :=
  if bitOf m.spec.toNat 49 then modPacket s p (fun k => { k with lag := true }) else s

/-- PACKET. A broadcast packet that did not come on the PARENT link is answered ST_TOPOLOGY. -/
def packetIn (l : Nat) (s : State) : State :=
  onMsg s l mkPacket (fun t m =>
    let t1 := if bitOf m.spec.toNat 48 ∧ t.weft.ownManager = some m.src then releaseReplies t (bitsOf m.spec.toNat 47 32) else t
    if pktTree m && (treeLinks t 1).contains l then bcastPacket t1 m
    else if pktTree m then acceptPacket t1 (.neighbour l (pktNum m)) m.body 0 0 0 stTopology
    else if m.linkLocal then acceptPacket t1 (.neighbour l (pktNum m)) m.body 0 0 0 (packetAllowed t l m)
    else if pktOrdered m ∧ t.weft.ownManager = some m.src then orderedPacket t1 m
    else markLag (acceptPacket t1 (.manager m.src (pktNum m) false) m.body 0 0 0 (packetAllowed t l m)) t1.nextPacket m)

/-! ### Completion of a remote knot operation (R98, R384, R386) -/

/-- The slot of an engine that waits for a remote operation of a descriptor. -/
def remoteSlot (s : State) (core : Nat) (e : Engine) (index : Nat) : Option EngSlot :=
  firstThat (fun x => x.index == index && x.waiting) (slotsOf (getCore s core) e)

/-- A remote operation of a descriptor has completed. -/
def remoteEngine (s : State) (core : Nat) (e : Engine) (o : RemoteOp) (status value : Nat) : State :=
  match remoteSlot s core e o.tag with
  | none => s
  | some x =>
    if status ≠ stOk then faultCore s core o.tag 0x04 status
    else match o.op with
      | .wait _ => deliverWake s { issuer := o.issuer, knot := o.knot, value := value, tag := o.tag }
      | _ => modKnotSlots s core opKnotArrive (enginesOf x.desc) (fun y => { y with state := .executed, waiting := false })

/-- What the reply to a remote operation does at its issuer. -/
def remoteIssuer (s : State) (o : RemoteOp) (status : Nat) (result : Bytes) : State :=
  match o.issuer with
  | .command p => finish s p status result
  | .engine core e => remoteEngine s core e o status (fieldAt result 0 8)
  | .reduction n => if status ≠ stOk then collAbort s n status else collCheck s n
  | _ =>
    if status ≠ stOk then s
    else match o.op with
      | .wait _ => deliverWake s { issuer := o.issuer, knot := o.knot, value := fieldAt result 0 8, tag := o.tag }
      | .query => { s with delivered := { status := stOk, data := result, poison := false } }
      | _ => s

/-- A remote operation is complete when its reply arrives; a second one on its knot may then go. -/
def remoteDone (s : State) (o : RemoteOp) (status : Nat) (result : Bytes) : State :=
  pumpRemote (remoteIssuer { s with weft := { s.weft with remoteOps := s.weft.remoteOps.filter (fun x => x.num != o.num) } } o
    status result)

/-! ### REPLY (R393 to R396) -/

/-- The number up to which every ordered packet to a worker has been replied. -/
def ackNumber (w : Worker) : Nat :=
  ((match w.unreplied with
    | [] => w.next
    | e :: _ => e.1) + 65535) % 65536

/-- Acknowledge a worker's replies. -/
def sendReplyAck (s : State) (w : Worker) : State :=
  sendMsg s { dest := w.device, src := (ownDevice s).getD 0, kind := mkReplyAck, vc := 1, spec := BitVec.ofNat 128 (ackNumber w) }

/-- A worker's reply to an ordered packet: written once, with the manager's TAG, and acknowledged. -/
def orderedReply (s : State) (m : Msg) : State :=
  match firstThat (fun w => w.device == m.src) s.weft.workers with
  | none => s
  | some w =>
    match firstThat (fun e => e.1 == pktNum m) w.unreplied with
    | none => sendReplyAck s w
    | some e =>
      let w1 := { w with unreplied := w.unreplied.erase e }
      sendReplyAck (finish (setWorker s w1) e.2 (fieldAt m.body 4 2) ((m.body.drop 0xC).take 16)) w1

/-- A child's combined reply (Table 13-10); one that comes late is discarded. -/
def combinedReply (s : State) (l : Nat) (m : Msg) : State :=
  if s.weft.bcasts.any (fun w => w.index == pktNum m && w.children.contains l) then
    bcastNote s (pktNum m) (fun w =>
      { bcastCount w (fieldAt m.body 0x0C 4) (fieldAt m.body 0x10 4) (fieldAt m.body 0x14 4 % 262144) (fieldAt m.body 0x18 2) with
        children := w.children.erase l })
  else s

/-- REPLY. -/
def replyIn (l : Nat) (s : State) : State :=
  onMsg s l mkReply (fun t m =>
    if pktTree m then combinedReply t l m
    else if pktOrdered m then orderedReply t m
    else match firstThat (fun o => o.sent && o.num == pktNum m && o.device == m.src) t.weft.remoteOps with
      | none => t
      | some o => remoteDone t o (fieldAt m.body 4 2) ((m.body.drop 0xC).take 16))

/-- REPLY_ACK. -/
def replyAckIn (l : Nat) (s : State) : State :=
  onMsg s l mkReplyAck (fun t m => if t.weft.ownManager = some m.src then releaseReplies t (pktNum m) else t)

/-! ### WRITE and WACK (R383, R384, R386) -/

/-- The status of a WRITE: whole blocks, 1 to 15 of them, all in partition 1. -/
def writeInStatus (m : Msg) : Nat :=
  let a := bitsOf m.spec.toNat 39 0
  let n := bitsOf m.spec.toNat 43 40 + 1
  if a % 256 = 0 ∧ n ≤ 15 ∧ 256 * n ≤ m.body.length ∧ 0xE008000000 ≤ a ∧ a + 256 * n ≤ 0xE018000000 then stOk else stBadAddress

/-- Store the blocks of a WRITE: a check value with RESTARTED 0 for each, poisoned where its POISON bit says so. -/
def storeWrite (s : State) (m : Msg) : State :=
  let blk := bitsOf m.spec.toNat 39 0 / 256
  (List.range (bitsOf m.spec.toNat 43 40 + 1)).foldl (fun t i =>
    putBlock t (blk + i) ((m.body.drop (256 * i)).take 256) false (bitOf m.spec.toNat (44 + i))) s

/-- WRITE. -/
def writeIn (l : Nat) (s : State) : State :=
  onMsg s l mkWrite (fun t m =>
    let st := writeInStatus m
    let t1 := if st = stOk then storeWrite t m else t
    sendMsg t1 { dest := m.src, src := (ownDevice t).getD 0, kind := mkWack, vc := 1
                 spec := BitVec.ofNat 128 (bitsOf m.spec.toNat 79 64 + st * 65536) })

/-- A WRITE of this device has ended with a status. -/
def writeEnded (s : State) (w : WriteOut) (status : Nat) : State :=
  let s1 : State := { s with weft := { s.weft with writes := s.weft.writes.erase w } }
  match w.issuer with
  | .reduction n => pumpRemote (if status ≠ stOk then collAbort s1 n status else collCheck s1 n)
  | _ => pumpRemote s1

/-- WACK. -/
def wackIn (l : Nat) (s : State) : State :=
  onMsg s l mkWack (fun t m =>
    match firstThat (fun w => w.token == bitsOf m.spec.toNat 15 0 && w.device == m.src) t.weft.writes with
    | none => t
    | some w => writeEnded t w (bitsOf m.spec.toNat 31 16))

/-- WACK_TIMEOUT. -/
def wackTimeout (token : Nat) (s : State) : State :=
  match firstThat (fun w => w.token == token) s.weft.writes with
  | none => s
  | some w => if hubRuns s then writeEnded s w stTopology else s

/-- Whether an operation's wait for its reply is bounded. -/
def bounded : KnotOp → Bool
  | .wait _ => false
  | _ => true

/-- REMOTE_REPLY_TIMEOUT. -/
def remoteTimeout (num : Nat) (s : State) : State :=
  match firstThat (fun o => o.sent && o.num == num && bounded o.op) s.weft.remoteOps with
  | none => s
  | some o => if hubRuns s then remoteDone s o stTopology (failResult 0 0 0) else s

/-! ### Notices (R392, R397) -/

/-- CLASS of a notice's record (Table 17-3). -/
def noticeClass (code : Nat) : RecClass := if code = 6 ∨ code = 8 then .contained else .corrected

/-- A manager's record of a notice (Table 17-4). -/
def noticeRecord (device code number link bodyCode status : Nat) : Rec :=
  { code := 0x0B00 + code, level := 3, cls := noticeClass code, kind := 0xA, unit := device
    addr := number + link * 2 ^ 32 + bodyCode * 2 ^ 36, detail := status }

/-- The workers that a manager tracks. -/
def trackedCount (s : State) : Nat := (s.weft.workers.filter (·.tracked)).length

/-- Forward a notice to this manager's own manager. -/
def noticeUp (s : State) (m : Msg) : State :=
  match s.weft.ownManager with
  | none => s
  | some g => sendMsg s { m with dest := g, hops := 0, relay := false, final := 0, linkLocal := false }

/-- NOTICE. -/
def noticeIn (l : Nat) (s : State) : State :=
  onMsg s l mkNotice (fun t m =>
    let v := m.spec.toNat
    let code := bitsOf v 7 0
    let w := workerOf t m.src
    if !t.weft.manager || code == 0 || decide (8 < code) then t
    else if !w.tracked && decide (4096 ≤ trackedCount t) then recordMgmt t 0x0605 .corrected
    else
      let t1 := if code ≤ 2 then setWorker t { w with tracked := true, live := true } else t
      let t2 := record t1 (noticeRecord m.src code (bitsOf v 63 32) (bitsOf v 11 8) (fieldAt m.body 0 2) (bitsOf v 31 16))
      if code = 5 ∨ code = 6 ∨ code = 8 then noticeUp t2 m else t2)

/-- LIVE_NOTICE_TIMER. -/
def liveNotice (s : State) : State := if s.pcie.ready && hubRuns s then sendNotice s 1 0 stOk [] else s

/-- LIVE_MISSING_TIMEOUT: a worker's LIVE notices have stopped for 300 ms. -/
def liveMissing (worker : Nat) (s : State) : State :=
  let w := workerOf s worker
  if s.weft.manager && hubRuns s && w.tracked && w.live then
    let s1 := record (setWorker s { w with live := false }) (noticeRecord worker 8 0 0 0 stTopology)
    sendNotice s1 8 0 stTopology (lastRecord s1)
  else s

/-! ### Timers of packets and replies (R394 to R396) -/

/-- BCAST_TIMEOUT: a child counts as one failure with ST_TOPOLOGY. -/
def bcastTimeout (index child : Nat) (s : State) : State :=
  if hubRuns s && s.weft.bcasts.any (fun w => w.index == index && w.children.contains child) then
    bcastNote s index (fun w =>
      { bcastCount w 0 1 ((s.weft.table.map (leDevice · child)).getD 0) stTopology with children := w.children.erase child })
  else s

/-- ORDERED_GAP_TIMEOUT: the missing number is passed and answered ST_TOPOLOGY. -/
def orderedGap (s : State) : State :=
  match s.weft.ownManager with
  | none => s
  | some g =>
    if s.weft.early.isEmpty || !hubRuns s then s
    else
      let n := s.weft.expectNum
      let s1 : State := { s with weft := { s.weft with expectNum := (n + 1) % 65536 } }
      let k := packetOf 0 (.manager g n true) [] 0 0
      startEarly (s.weft.early.length + 1)
        (sendReply s1 g n true k { status := stTopology, result := failResult 0 0 0 })

/-- REPLY_RESEND_TIMER: a kept reply is sent again, up to 8 times, and then dropped with a record. -/
def replyResend (num : Nat) (s : State) : State :=
  match firstThat (fun e => e.1 == num) s.weft.kept with
  | none => s
  | some e =>
    if !hubRuns s then s
    else if e.2.2 < 8 then
      sendMsg { s with weft := { s.weft with
        kept := modFirst (fun (x : Nat × Msg × Nat) => x.1 == num) (fun x => (x.1, x.2.1, x.2.2 + 1)) s.weft.kept } } e.2.1
    else recordMgmt { s with weft := { s.weft with kept := s.weft.kept.erase e } } 0x0606 .contained

/-! ### The rows of the table -/

/-- PACKET. -/
def execPacket (link : Nat) (s : State) : Host.Outcome State Fault Refusal := .next (packetIn link s)

/-- REPLY. -/
def execReply (link : Nat) (s : State) : Host.Outcome State Fault Refusal := .next (replyIn link s)

/-- WRITE. -/
def execWrite (link : Nat) (s : State) : Host.Outcome State Fault Refusal := .next (writeIn link s)

/-- WACK. -/
def execWack (link : Nat) (s : State) : Host.Outcome State Fault Refusal := .next (wackIn link s)

/-- NOTICE. -/
def execNotice (link : Nat) (s : State) : Host.Outcome State Fault Refusal := .next (noticeIn link s)

/-- REPLY_ACK. -/
def execReplyAck (link : Nat) (s : State) : Host.Outcome State Fault Refusal := .next (replyAckIn link s)

/-- TRANSIT_FORWARD. -/
def execTransitForward (link : Nat) (s : State) : Host.Outcome State Fault Refusal := .next (transitForward link s)

/-- BCAST_TIMEOUT. -/
def execBcastTimeout (index child : Nat) (s : State) : Host.Outcome State Fault Refusal := .next (bcastTimeout index child s)

/-- WACK_TIMEOUT. -/
def execWackTimeout (token : Nat) (s : State) : Host.Outcome State Fault Refusal := .next (wackTimeout token s)

/-- REMOTE_REPLY_TIMEOUT. -/
def execRemoteReplyTimeout (pktNum : Nat) (s : State) : Host.Outcome State Fault Refusal := .next (remoteTimeout pktNum s)

/-- ORDERED_GAP_TIMEOUT. -/
def execOrderedGapTimeout (s : State) : Host.Outcome State Fault Refusal := .next (orderedGap s)

/-- REPLY_RESEND_TIMER. -/
def execReplyResendTimer (pktNum : Nat) (s : State) : Host.Outcome State Fault Refusal := .next (replyResend pktNum s)

/-- LIVE_NOTICE_TIMER. -/
def execLiveNoticeTimer (s : State) : Host.Outcome State Fault Refusal := .next (liveNotice s)

/-- LIVE_MISSING_TIMEOUT. -/
def execLiveMissingTimeout (worker : Nat) (s : State) : Host.Outcome State Fault Refusal := .next (liveMissing worker s)

end Sys2Proof.Machine
end

