-- ==== Sys2Proof/Machine/Registers.lean ====
section
/-!
DEFINITION. Register accesses (spec/00_scope.md R11; spec/11_host_interface.md R301, R306 to R310; spec/02 R44, R47): the
control space of H and of the C-dies, BAR0 and BAR4. A read gives the next state and the 32 bits read.
-/
namespace Sys2Proof.Machine

abbrev allOnes : Nat := 0xFFFFFFFF

/-! ### CORE_ registers (R140, R158, R185) -/

/-- Code of a sequencer state (Table 06-20). -/
def seqrCode : SeqrState → Nat
  | .idle => 0
  | .running => 1
  | .draining => 2
  | .faulted => 3
  | .aborting => 4

/-- Whether a slot's operation uses an accumulator: an ARRAY_MM that was issued, or a drain of it in any column. -/
def accBusy (c : Core) (acc : Nat) : Bool :=
  c.arraySlots.any (fun x => x.state == .issued
    && ((dOpcode x.desc == opArrayMm && (mmPass x.desc == 1 || mmAcc x.desc == acc))
        || (dOpcode x.desc == opArrayDrain && drAcc x.desc == acc)))

/-- A CORE_ register: its value and the core after the read. -/
def coreReg (c : Core) (off : Nat) : Core × Nat :=
  match off with
  | 0x00 => (c, b2n c.arrInvalid + 2 * b2n c.arrOverflow + 4 * b2n c.arrWrap + 256 * b2n (accBusy c 0) + 512 * b2n (accBusy c 1))
  | 0x04 => (c, b2n c.vecIv + 2 * b2n c.vecDz + 4 * b2n c.vecOf + 8 * b2n c.vecUf + 16 * b2n c.vecNx)
  | 0x08 => ({ c with stallDry := 0 }, c.stallDry.toNat)
  | 0x0C => ({ c with stallHold := 0 }, c.stallHold.toNat)
  | 0x10 => ({ c with stallFreeze := 0 }, c.stallFreeze.toNat)
  | 0x14 => (c, c.warpFmt.toNat + 16 * c.weftFmt.toNat + 256 * b2n c.warpValid + 512 * b2n c.weftValid)
  | 0x18 => (c, seqrCode c.seqr + 16 * c.arraySlots.length + 256 * c.vecSlots.length + 4096 * c.moveSlots.length + 65536 * (c.pc % 512))
  | 0x1C => (c, c.faultIndex.toNat + 512 * c.faultCause.toNat + 65536 * c.faultStatus.toNat)
  | _ => (c, 0)

/-- A write of a CORE_ register (RW1C bits). -/
def coreRegWrite (off v : Nat) (c : Core) : Core :=
  match off with
  | 0x00 => { c with
      arrInvalid := c.arrInvalid && !bitOf v 0, arrOverflow := c.arrOverflow && !bitOf v 1, arrWrap := c.arrWrap && !bitOf v 2 }
  | 0x04 => { c with
      vecIv := c.vecIv && !bitOf v 0, vecDz := c.vecDz && !bitOf v 1, vecOf := c.vecOf && !bitOf v 2
      vecUf := c.vecUf && !bitOf v 3, vecNx := c.vecNx && !bitOf v 4 }
  | _ => c

/-! ### Generators (Tables 07-9 to 07-11, 09-5 to 09-7) -/

/-- A generator's register at 0x40 to 0x54; `near` says whether it has a BANK_MASK. -/
def tgReg (t : TrafficGen) (near : Bool) (off : Nat) : TrafficGen × Nat :=
  match off with
  | 0x40 => (t, 4 * t.mode.toNat + 32 * b2n t.readOnly + (if near then 256 * t.bankMask.toNat else 0))
  | 0x44 => ({ t with errors := 0 },
      b2n t.running + 2 * b2n t.done + 4 * b2n t.fail + 8 * b2n t.refused + 65536 * t.errors.toNat)
  | 0x48 => (t, t.first + 65536 * t.last)
  | 0x4C => (t, t.param.toNat)
  | 0x50 => (t, t.failAddr.toNat)
  | 0x54 => (t, t.failInfo.toNat)
  | _ => (t, 0)

/-- A write of a generator's register other than its START and STOP; `bits` is the width of FIRST and LAST. -/
def tgRegWrite (near : Bool) (bits off v : Nat) (t : TrafficGen) : TrafficGen :=
  match off with
  | 0x40 => if near then tgFields t v else { tgFields t v with bankMask := 0 }
  | 0x44 => { t with done := t.done && !bitOf v 1, fail := t.fail && !bitOf v 2, refused := t.refused && !bitOf v 3 }
  | 0x48 => { t with first := v % 2 ^ bits, last := v / 65536 % 2 ^ bits }
  | 0x4C => { t with param := BitVec.ofNat 32 v }
  | _ => t

/-! ### CH_ and BOB_ registers (R209, R243) -/

/-- Whether a generator holds its unit with a write-mode run. -/
def tgOwns (t : TrafficGen) : Bool := t.running && !t.cur.readOnly

/-- CH_STATUS (Table 07-8). -/
def chStatus (l : MLayer) (c : Chan) : Nat :=
  b2n c.run.isSome + 2 * b2n l.selfRefresh + 4 * b2n l.inReset + 8 * b2n (tgOwns c.tg) + 16 * c.band.toNat + 64 * b2n c.relaxed
    + 256 * c.bankOut.toNat + 2 ^ 24 * b2n c.chOut

/-- BOB_STATUS (Table 08-11). -/
def bobStatus (c : Chan) : Nat :=
  let st := match c.run with
    | none => 0
    | some r =>
      (if r.exiting then 3 else 2) + 16 * b2n r.slot0.isSome + 32 * b2n r.slot1.isSome + 256 * r.slot0.getD 0
        + 4096 * r.slot1.getD 0 + 2 ^ 19 * b2n r.compat + 2 ^ 20 * b2n (r.banks.any (fun b => b.2.state == .atBarrier))
  st + 4 * b2n (!c.waitAdmit.isEmpty && c.run.isNone) + 2 ^ 16 * b2n c.bobInvalid + 2 ^ 17 * b2n c.bobOverflow + 2 ^ 18 * b2n c.bobWrap

/-- A register of a channel's block. -/
def chanReg (l : MLayer) (c : Chan) (off : Nat) : Chan × Nat :=
  match off with
  | 0x000 => (c, chStatus l c)
  | 0x004 => ({ c with eccCorr := 0 }, c.eccCorr.toNat)
  | 0x008 => ({ c with eccUncorr := 0 }, c.eccUncorr.toNat)
  | 0x00C => ({ c with poisonReads := 0 }, c.poisonReads.toNat)
  | 0x100 => (c, bobStatus c)
  | 0x104 => (c, c.faultBank.toNat + 16 * c.faultUop.toNat + 512 * c.faultCause.toNat + 65536 * c.faultStatus.toNat)
  | 0x108 => ({ c with bobSteps := 0 }, c.bobSteps.toNat)
  | 0x10C => ({ c with bobRefAtStep := 0 }, c.bobRefAtStep.toNat)
  | _ => if 0x40 ≤ off ∧ off < 0x58 then ({ c with tg := (tgReg c.tg true off).1 }, (tgReg c.tg true off).2) else (c, 0)

/-- A write of CH_TG_CTRL: STOP ends a run, START begins one with the fields written. -/
def tgCtrlWrite (s : State) (ch v : Nat) : State :=
  let s1 := if bitOf v 1 then modChan s ch (fun c => { c with tg := { c.tg with stopping := c.tg.running } }) else s
  let s2 := modChan s1 ch (fun c => { c with tg := tgRegWrite true 9 0x40 v c.tg })
  if bitOf v 0 then startTg s2 ch (getChan s2 ch).tg else s2

/-- A write of a register of a channel's block. -/
def chanRegWrite (s : State) (ch off v : Nat) : State :=
  if off = 0x40 then tgCtrlWrite s ch v
  else if 0x44 ≤ off ∧ off ≤ 0x4C then modChan s ch (fun c => { c with tg := tgRegWrite true 9 off v c.tg })
  else if off = 0x100 then modChan s ch (fun c => { c with
    bobInvalid := c.bobInvalid && !bitOf v 16, bobOverflow := c.bobOverflow && !bitOf v 17, bobWrap := c.bobWrap && !bitOf v 18 })
  else s

/-! ### RGN_ registers (R244) -/

/-- An admission register of a region. -/
def admitReg (s : State) (r off : Nat) : Nat :=
  let g := getRegion s r
  if off = 0x100 then g.admitLevel.toNat + 65536 * admitLimit g.admitLevel.toNat
  else if off = 0x104 then
    g.active + 65536 * g.admitQueue.length
  else 0

/-! ### FAR_ registers (R263) -/

/-- FAR_PC_STATUS (Table 09-4). -/
def farPcStatus (s : State) (pc : Nat) : Nat :=
  let p := getPc s pc
  b2n p.out + 2 * b2n p.selfRefresh + 4 * b2n p.inReset + 8 * b2n (tgOwns p.tg) + 16 * b2n p.hole + 256 * p.position
    + 65536 * regionOfPc pc

/-- FAR_STACK_STATUS (Table 09-7). -/
def stackStatus (s : State) (n : Nat) : Nat :=
  let k := tget s.hbmStacks n
  k.temp.toNat + 256 * k.threshold.toNat + 65536 * k.step + 2 ^ 19 * b2n k.rate6g4 + 2 ^ 20 * b2n k.out

/-- A register of a pseudo-channel. -/
def farReg (s : State) (pc off : Nat) : State × Nat :=
  let p := getPc s pc
  match off with
  | 0x000 => (s, farPcStatus s pc)
  | 0x004 => (modPc s pc (fun x => { x with eccCorr := 0 }), p.eccCorr.toNat)
  | 0x008 => (modPc s pc (fun x => { x with eccUncorr := 0 }), p.eccUncorr.toNat)
  | 0x00C => (modPc s pc (fun x => { x with poisonReads := 0 }), p.poisonReads.toNat)
  | _ => if 0x40 ≤ off ∧ off < 0x58 then
      (modPc s pc (fun x => { x with tg := (tgReg x.tg false off).1 }), (tgReg p.tg false off).2) else (s, 0)

/-- A write of a pseudo-channel's register. -/
def farRegWrite (s : State) (pc off v : Nat) : State :=
  if off = 0x40 then
    let s1 := if bitOf v 1 then modPc s pc (fun p => { p with tg := { p.tg with stopping := p.tg.running } }) else s
    let s2 := modPc s1 pc (fun p => { p with tg := tgRegWrite false 14 0x40 v p.tg })
    if bitOf v 0 then startFarTg s2 pc (getPc s2 pc).tg else s2
  else if 0x44 ≤ off ∧ off ≤ 0x4C then modPc s pc (fun p => { p with tg := tgRegWrite false 14 off v p.tg })
  else s

/-! ### WL_ registers (R401) -/

/-- WL_REMOTE (Table 13-16). -/
def wlRemote (l : WeftLink) : Nat :=
  match l.remote with
  | none => 0
  | some x => x.device % 2 ^ 18 + 2 ^ 18 * (x.link % 16) + 2 ^ 22 + 2 ^ 23 * b2n x.unnumbered + 2 ^ 24 * b2n x.manager

/-- A register of a weft link. -/
def weftReg (s : State) (l off : Nat) : State × Nat :=
  let k := getLink s l
  match off with
  | 0x00 => (s, wlStatus s l)
  | 0x04 => (s, wlRemote k)
  | 0x08 => (modLink s l (fun x => { x with fecCorr := 0 }), k.fecCorr.toNat)
  | 0x0C => (modLink s l (fun x => { x with fecUncorr := 0 }), k.fecUncorr.toNat)
  | 0x10 => (modLink s l (fun x => { x with crcFail := 0 }), k.crcFail.toNat)
  | 0x14 => (modLink s l (fun x => { x with replays := 0 }), k.replays.toNat)
  | 0x18 => (modLink s l (fun x => { x with retrains := 0 }), k.retrains.toNat)
  | _ => (s, 0)

/-! ### EW_ and HUB_EW_ registers (R425) -/

/-- EW_PORT_STATUS or HUB_EW_PORTd of a port with a hold cause (Table 14-11). -/
def portStatus (p : EwPort) (cause : Nat) : Nat :=
  p.state.toNat + 4 * b2n p.quiesced + 8 * b2n (p.modulesOut != 0) + 16 * p.modules + 512 * cause + 65536 * p.modulesOut.toNat

/-- EW_SPARES_USED of an end: two bits for each module. -/
def sparesUsed (p : EwPort) (second : Bool) : Nat :=
  sumOf ((List.range 16).map (fun m => Nat.min (tget p.links (2 * m + b2n second)).spares 3 * 4 ^ m))

/-- An EW_ register of the C-die with POS n: port end 0 is its hub port, 1 its side link. -/
def ewReg (s : State) (pos e off : Nat) : State × Nat :=
  let p := if e = 0 then pos else sideOf pos
  let second := decide (e = 1) && decide (pos % 2 = 1)
  let k := getPort s p
  match off with
  | 0x00 => (s, portStatus k (if e = 0 then (tget s.dies pos).holdCause.toNat else 0))
  | 0x04 => (s, sparesUsed k second)
  | 0x08 => (modPort s p (fun x => if second then { x with crcFail2 := 0 } else { x with crcFail := 0 }),
      (if second then k.crcFail2 else k.crcFail).toNat)
  | 0x0C => (modPort s p (fun x => if second then { x with replays2 := 0 } else { x with replays := 0 }),
      (if second then k.replays2 else k.replays).toNat)
  | 0x10 => if e = 0 then (modDie s pos (fun d => { d with telemMissedDie := 0 }), (tget s.dies pos).telemMissedDie.toNat) else (s, 0)
  | _ => (s, 0)

/-- A HUB_EW_ register of port d. -/
def hubEwReg (s : State) (d off : Nat) : State × Nat :=
  match portOfDie d with
  | none => (s, 0)
  | some p =>
    let x := tget s.dies d
    if off = 0x00 then (s, portStatus (getPort s p) x.holdCause.toNat)
    else if 0x20 ≤ off ∧ off < 0x40 then (s, x.agreed.toNat / 2 ^ (8 * (off - 0x20)) % 2 ^ 32)
    else if off = 0x40 then (s, x.revision.toNat + 65536 * x.tableVersion.toNat)
    else if off = 0x44 then (modDie s d (fun y => { y with telemMissedHub := 0 }), x.telemMissedHub.toNat)
    else (s, 0)

/-! ### Control space (Table 02-1) -/

/-- A register of the control space, by unit. -/
inductive CtlUnit where
  | core (c off : Nat)
  | chan (ch off : Nat)
  | admission (r off : Nat)
  | far (pc off : Nat)
  | stack (n : Nat)
  | weft (l off : Nat)
  | ew (pos e off : Nat)
  | hubEw (d off : Nat)
  | pwr (off : Nat)
  | thm (off : Nat)
  | partner
  | none
deriving DecidableEq, Repr

/-- The unit of an offset in a C-die's control space. -/
def dieUnit (pos off : Nat) : CtlUnit :=
  let b := off / 0x10000000
  let o := off % 0x10000000
  if b = 8 then (if o / 0x10000 < 2048 then .core (2048 * pos + o / 0x10000) (o % 0x10000) else .none)
  else if b = 9 then
    (if o / 0x1000 < 2048 then .chan (chanOf (2048 * pos + o / 0x1000) (o % 0x1000 / 0x200)) (o % 0x200) else .none)
  else if b = 0xA then (if o / 0x10000 < 4 then .admission (4 * pos + o / 0x10000) (o % 0x10000) else .none)
  else if b = 0xB then
    let t := o % 0x100000
    if o / 0x100000 < 2 then
      if t < 0x40000 then .far ((2 * pos + o / 0x100000) * 64 + t / 0x1000) (t % 0x1000)
      else if t = 0x80000 then .stack (2 * pos + o / 0x100000)
      else .none
    else .none
  else if b = 0xC then (if o / 0x10000 < 4 then .weft (4 * pos + o / 0x10000) (o % 0x10000) else .none)
  else if b = 0xD then (if o / 0x1000 < 2 then .ew pos (o / 0x1000) (o % 0x1000) else .none)
  else .none

/-- The unit of a control-space address. -/
def unitOf (a : Nat) : CtlUnit :=
  let off := a % 2 ^ 32
  let top := a / 2 ^ 32
  if top = 0xF0 then
    if 0x100000 ≤ off ∧ off < 0x100600 then .hubEw ((off - 0x100000) / 0x100) (off % 0x100)
    else if 0x200000 ≤ off ∧ off < 0x200200 then .pwr (off - 0x200000)
    else if 0x300000 ≤ off ∧ off < 0x300300 then .thm (off - 0x300000)
    else .none
  else if 0xF1 ≤ top ∧ top ≤ 0xF4 then dieUnit (top - 0xF1) off
  else if top = 0xF8 then .partner
  else .none

/-- Whether an address lies in control space (Table 02-1). -/
def inControl (a : Nat) : Bool :=
  let top := a / 2 ^ 32
  (decide (0xF0 ≤ top) && decide (top ≤ 0xF4)) || top == 0xF8

/-- Whether the partner die serves its control space (R422): TARGET agreed, in service and not in reset. -/
def partnerServes (s : State) : Bool :=
  (tget s.dies 5).agreed.getLsbD 130 && (getPort s 6).state == 2 && !(tget s.dies 5).inReset && !(tget s.dies 5).heldOut

/-- Whether a C-die's registers cannot be reached: it is held out or in reset, or its clocks have stopped. -/
def dieAway (s : State) (pos : Nat) : Bool :=
  let d := tget s.dies pos
  d.heldOut || d.inReset || d.clocksStopped

/-- Whether a unit is in reset (R308, R507). -/
def ctlAway (s : State) : CtlUnit → Bool
  | .core c _ => dieAway s (dieOfCore c) || (getCore s c).inReset || (getRegion s (regionOfCore c)).inReset
  | .chan ch _ => dieAway s (ch / 16384) || (getRegion s (ch / 4096)).inReset
  | .admission r _ => dieAway s (r / 4) || (getRegion s r).inReset
  | .far pc _ => dieAway s (pc / 128) || (getRegion s (regionOfPc pc)).inReset
  | .stack n => dieAway s (n / 2)
  | .weft l _ => dieAway s (l / 4)
  | .ew pos _ _ => dieAway s pos
  | .partner => !partnerServes s
  | _ => false

/-- A read of a control-space register. What a partner die's register reads is the partner's: a free value. -/
def ctlRead (s : State) (a : Nat) : State × Nat :=
  let u := unitOf a
  if ctlAway s u then (s, allOnes)
  else match u with
    | .core c off => let r := coreReg (getCore s c) off; (modCore s c (fun _ => r.1), r.2)
    | .chan ch off => let r := chanReg (layerOf s ch) (getChan s ch) off; (modChan s ch (fun _ => r.1), r.2)
    | .admission r off => (s, admitReg s r off)
    | .far pc off => farReg s pc off
    | .stack n => (s, stackStatus s n)
    | .weft l off => weftReg s l off
    | .ew pos e off => ewReg s pos e off
    | .hubEw d off => hubEwReg s d off
    | .pwr off => (s, pwrReg s off)
    | .thm off => (s, thmReg s off)
    | .partner => (drawFree s, (Config.freeBits 32 s.free).toNat)
    | .none => (s, 0)

/-- A write of a control-space register. -/
def ctlWrite (s : State) (a v : Nat) : State :=
  let u := unitOf a
  if ctlAway s u then s
  else match u with
    | .core c off => modCore s c (coreRegWrite off v)
    | .chan ch off => chanRegWrite s ch off v
    | .far pc off => farRegWrite s pc off v
    | .weft l off => if off = 0 then modLink s l (fun k => { k with stall := k.stall && !bitOf v 6 }) else s
    | _ => s

/-! ### BAR0 (R301, R307) -/

/-- Whether the host's accesses reach the BARs: H's clocks run and the function is not in D3hot. -/
def barAlive (s : State) : Bool := hubRuns s && !s.pcie.d3hot

/-- HUB_WB_PARTn (Table 03-3). -/
def wbPart (n : Nat) : Nat :=
  match partitions[n]? with
  | none => 0
  | some (lo, hi) => lo / 65536 + 65536 * ((hi - lo) / 65536) + 2 ^ 30 * hostAccess n

/-- A 32-bit half of a 64-bit register. -/
def halfOf (v : Word64) (high : Bool) : Nat := if high then v.toNat / 2 ^ 32 else v.toNat % 2 ^ 32
def withHalf (high : Bool) (v : Nat) (old : Word64) : Word64 :=
  BitVec.ofNat 64 (if high then old.toNat % 2 ^ 32 + 2 ^ 32 * (v % 2 ^ 32) else old.toNat / 2 ^ 32 * 2 ^ 32 + v % 2 ^ 32)

/-- A register of ring pair q. -/
def ringReg (s : State) (q off : Nat) : Nat :=
  let x := getSq s q
  let c := getCq s q
  match off with
  | 0x00 => halfOf x.base false
  | 0x04 => halfOf x.base true
  | 0x08 => sqCtrl s q
  | 0x0C => x.head.toNat + 65536 * x.tail.toNat
  | 0x10 => halfOf c.base false
  | 0x14 => halfOf c.base true
  | 0x18 => cqCtrl s q
  | 0x1C => c.tail.toNat + 65536 * b2n c.phase
  | 0x20 => c.coalesce.toNat
  | 0x28 => x.target.toNat
  | _ => 0

/-- A write of a register of ring pair q. -/
def ringRegWrite (s : State) (q off v : Nat) : State :=
  match off with
  | 0x00 => sqBaseWrite q (withHalf false v) s
  | 0x04 => sqBaseWrite q (withHalf true v) s
  | 0x08 => if bitOf v 0 then sqEnable q v s else sqCtrlWrite q v s
  | 0x10 => cqBaseWrite q (withHalf false v) s
  | 0x14 => cqBaseWrite q (withHalf true v) s
  | 0x18 => if bitOf v 0 then cqEnable q v s else cqCtrlWrite q v s
  | 0x20 => modCq s q (fun x => { x with coalesce := BitVec.ofNat 32 (v % 2 ^ 24) })
  | 0x28 => sqTargetWrite q v s
  | _ => s

/-- A word of the MSI-X table: address low and high, data, vector control (PCIe base specification, log 4). -/
def msixWord (s : State) (off : Nat) : Nat :=
  let v := off / 16
  let k := off % 16
  if k = 12 then b2n (!s.pcie.msixUnmasked.contains v) else (tget s.pcie.msixEntry v).toNat / 2 ^ (8 * k) % 2 ^ 32

/-- A write of a word of the MSI-X table; a vector that is unmasked is sent when it is pending. -/
def msixWrite (s : State) (off v : Nat) : State :=
  let n := off / 16
  let k := off % 16
  let p := s.pcie
  if k = 12 then
    if bitOf v 0 then { s with pcie := { p with msixUnmasked := p.msixUnmasked.filter (· != n) } }
    else
      let s1 : State := { s with pcie := { p with
        msixUnmasked := if p.msixUnmasked.contains n then p.msixUnmasked else n :: p.msixUnmasked
        msixPending := p.msixPending.filter (· != n) } }
      if p.msixPending.contains n then sendVector s1 n else s1
  else
    let old := (tget p.msixEntry n).toNat
    let sh := 2 ^ (8 * k)
    { s with pcie := { p with
        msixEntry := tset p.msixEntry n (BitVec.ofNat 96 (old % sh + old / (sh * 2 ^ 32) * (sh * 2 ^ 32) + v % 2 ^ 32 * sh)) } }

/-- A word of the pending-bit array. -/
def pendingWord (s : State) (off : Nat) : Nat :=
  sumOf ((List.range 32).map (fun i => if s.pcie.msixPending.contains (8 * off + i) then 2 ^ i else 0))

/-- BOOT_HOST_CTRL (Table 16-4). -/
def bootHostCtrl (s : State) : Nat :=
  let p := s.pcie
  4 * b2n p.bootHostDone + 8 * b2n p.bootHostFail + 256 * p.bootHostReason.toNat

/-- A word of the ring-index registers (Table 17-5). -/
def indexReg (s : State) (off : Nat) : State × Nat :=
  let e := s.errors
  match off with
  | 0x400 => (s, e.tail.toNat)
  | 0x404 => (s, e.head.toNat)
  | 0x408 => ({ s with errors := { e with dropped := 0 } }, e.dropped.toNat)
  | 0x40C => (s, e.irq.toNat)
  | 0x410 => (s, e.logNext.toNat)
  | 0x420 => (s, e.tlmTail.toNat)
  | 0x424 => (s, e.tlmHead.toNat)
  | 0x428 => ({ s with errors := { e with tlmDropped := 0 } }, e.tlmDropped.toNat)
  | _ => (s, 0)

/-- A word of a check unit (Tables 03-8 to 03-10); a result waits until every byte is processed. -/
def chkReg (s : State) (n off : Nat) : State × Nat :=
  let u := tget s.chk n
  let d := chkDrain u
  match off with
  | 0x00 => (s, chkCtrl u)
  | 0x04 => (s, chkStatus u)
  | 0x08 => (modChk s n (fun _ => d), chkResult d % 2 ^ 32)
  | 0x0C => (modChk s n (fun _ => d), chkResult d / 2 ^ 32)
  | 0x18 => (s, u.owner.toNat)
  | _ => (s, 0)

/-- A write of a check unit's register. -/
def chkRegWrite (s : State) (n off : Nat) (b : Bytes) : State :=
  match off with
  | 0x00 => modChk s n (fun u => chkWriteCtrl u (leNat b))
  | 0x04 => modChk s n (fun u => { u with cfgErr := u.cfgErr && !bitOf (leNat b) 2 })
  | 0x18 => modChk s n (fun u => chkWriteOwner u (leNat b))
  | _ => if 0x10 ≤ off ∧ off + b.length ≤ 0x18 then modChk s n (fun u => chkWriteData u off b) else s

/-- The control-space address of an aperture offset (R308). -/
def apertureAddr (s : State) (off : Nat) : Nat := s.pcie.ctlWindow.toNat * 0x80000 + off

/-- A 4-byte read through the aperture. -/
def apertureRead (s : State) (off : Nat) : State × Nat :=
  let a := apertureAddr s off
  if inControl a then ctlRead s a else (recordPcie s 0x0502 .contained a, allOnes)

/-- A 4-byte write through the aperture. -/
def apertureWrite (s : State) (off v : Nat) : State :=
  let a := apertureAddr s off
  if inControl a then ctlWrite s a v else recordPcie s 0x0502 .contained a

/-- A 4-byte read of BAR0 at an aligned offset. -/
def bar0Word (s : State) (off : Nat) : State × Nat :=
  let phase := s.pcie.phase.toNat
  if off < 0x200 then
    (s, if off = 0x10 then pciReady s
      else if off = 0x20 then s.pcie.ctlWindow.toNat
      else if 0x40 ≤ off ∧ off < 0x50 then Config.deviceId.toNat / 2 ^ (8 * (off - 0x40)) % 2 ^ 32
      else if off = 0x80 then halfOf s.pcie.bootHostAddr false
      else if off = 0x84 then halfOf s.pcie.bootHostAddr true
      else if off = 0x88 then bootHostCtrl s
      else if 0x100 ≤ off ∧ off < 0x118 then strapsReg s ((off - 0x100) / 4)
      else 0)
  else if 0x200 ≤ off ∧ off < 0x240 ∧ 3 ≤ phase then (s, wbPart ((off - 0x200) / 4))
  else if 0x400 ≤ off ∧ off < 0x800 ∧ 3 ≤ phase then indexReg s off
  else if 0x2000 ≤ off ∧ off < 0x2800 ∧ 3 ≤ phase then (s, msixWord s (off - 0x2000))
  else if 0x2800 ≤ off ∧ off < 0x2810 ∧ 3 ≤ phase then (s, pendingWord s (off - 0x2800))
  else if 0x4000 ≤ off ∧ off < 0x5000 ∧ rescueServed s = true then (s, leNat (mailboxBytes s 0 (off - 0x4000) 4))
  else if 0x8000 ≤ off ∧ off < 0x10000 ∧ 4 ≤ phase ∧ s.capacity.valid = true then (s, capacityWord s (off - 0x8000))
  else if ¬ barsServed s then (s, allOnes)
  else if 0x1000 ≤ off ∧ off < 0x2000 then (s, ringReg s ((off - 0x1000) / 0x40) (off % 0x40))
  else if 0x3000 ≤ off ∧ off < 0x3400 then chkReg s ((off - 0x3000) / 0x40) (off % 0x40)
  else if 0x80000 ≤ off ∧ off < 0x100000 then apertureRead s (off - 0x80000)
  else (s, 0)

/-- A 4-byte write of BAR0 at an aligned offset. -/
def bar0WordWrite (s : State) (off v : Nat) : State :=
  let phase := s.pcie.phase.toNat
  if off < 0x200 then
    if off = 0x20 then { s with pcie := { s.pcie with ctlWindow := BitVec.ofNat 21 v } }
    else if off = 0x80 then { s with pcie := { s.pcie with bootHostAddr := withHalf false v s.pcie.bootHostAddr } }
    else if off = 0x84 then { s with pcie := { s.pcie with bootHostAddr := withHalf true v s.pcie.bootHostAddr } }
    else if off = 0x88 then { s with pcie := { s.pcie with
      bootHostDone := s.pcie.bootHostDone && !bitOf v 2, bootHostFail := s.pcie.bootHostFail && !bitOf v 3 } }
    else s
  else if off = 0x404 then errHead (BitVec.ofNat 32 v) s
  else if off = 0x424 then tlmHead (BitVec.ofNat 32 v) s
  else if off = 0x40C ∧ 3 ≤ phase then { s with errors := { s.errors with irq := BitVec.ofNat 32 (v % 2 ^ 24) } }
  else if 0x2000 ≤ off ∧ off < 0x2800 ∧ 3 ≤ phase then msixWrite s (off - 0x2000) v
  else if 0x4000 ≤ off ∧ off < 0x5000 then mailboxWrite 0 (off - 0x4000) (toBytes 4 v) s
  else if 0x1000 ≤ off ∧ off < 0x2000 then
    let q := (off - 0x1000) / 0x40
    if barsServed s then ringRegWrite s q (off % 0x40) v
    else if off % 0x40 = 0x08 ∧ bitOf v 0 = true then modSq s q (fun x => { x with cfgErr := true })
    else if off % 0x40 = 0x18 ∧ bitOf v 0 = true then modCq s q (fun x => { x with cfgErr := true })
    else s
  else if ¬ barsServed s then s
  else if 0x3000 ≤ off ∧ off < 0x3400 then chkRegWrite s ((off - 0x3000) / 0x40) (off % 0x40) (toBytes 4 v)
  else if 0x80000 ≤ off ∧ off < 0x100000 then apertureWrite s (off - 0x80000) v
  else s

/-- Whether an access of BAR0 or BAR4 is an aligned one of 4 or 8 bytes (R306). -/
def accessFits (off size limit : Nat) : Bool := (size == 4 || size == 8) && off % size == 0 && decide (off + size ≤ limit)

/-- The exception of R306: the data port of a check unit takes aligned writes of 1 and 2 bytes too. -/
def portFits (off size : Nat) : Bool :=
  decide (0x3000 ≤ off) && decide (off < 0x3400) && decide (0x10 ≤ off % 0x40) && decide (off % 0x40 + size ≤ 0x18)
    && (size == 1 || size == 2) && off % size == 0

/-- An access that R306 does not allow writes one record. -/
def badAccess (s : State) (off : Nat) : State := recordPcie s 0x0502 .contained off

/-- A read of BAR0, low word first; one that R306 does not allow returns ones. -/
def bar0Read (s : State) (off size : Nat) : State :=
  if !accessFits off size 0x100000 then hostRead (badAccess s off) (List.replicate size 0xFF)
  else
    let r := bar0Word s off
    if size = 4 then hostRead r.1 (toBytes 4 r.2)
    else
      let t := bar0Word r.1 (off + 4)
      hostRead t.1 (toBytes 4 r.2 ++ toBytes 4 t.2)

/-- A write of BAR0, low word first. -/
def bar0Write (s : State) (off size v : Nat) : State :=
  if portFits off size then
    if barsServed s then chkRegWrite s ((off - 0x3000) / 0x40) (off % 0x40) (toBytes size v) else s
  else if !accessFits off size 0x100000 then badAccess s off
  else if size = 8 ∧ 0x3000 ≤ off ∧ off < 0x3400 ∧ off % 0x40 = 0x10 then
    if barsServed s then chkRegWrite s ((off - 0x3000) / 0x40) 0x10 (toBytes 8 v) else s
  else if size = 4 then bar0WordWrite s off (v % 2 ^ 32)
  else bar0WordWrite (bar0WordWrite s off (v % 2 ^ 32)) (off + 4) (v / 2 ^ 32)

/-- A 4-byte write of BAR4: a doorbell (R310). -/
def doorbell (s : State) (off v : Nat) : State :=
  let q := off / 0x400
  if off % 0x400 = 0 then sqTail q v s else if off % 0x400 = 4 then cqHead q v s else s

/-- A read of BAR4 returns 0 (R310), or ones where R306 does not allow it. -/
def bar4Read (s : State) (off size : Nat) : State :=
  if accessFits off size 0x10000 then hostRead s (toBytes size 0) else hostRead (badAccess s off) (List.replicate size 0xFF)

/-- A write of BAR4. -/
def bar4Write (s : State) (off size v : Nat) : State :=
  if !accessFits off size 0x10000 then badAccess s off
  else if size = 4 then doorbell s off v
  else doorbell (doorbell s off v) (off + 4) (v / 2 ^ 32)

/-! ### The rows of the table -/

/-- CONTROL_APERTURE_ACCESS at an offset of the aperture. -/
def apertureAccess (off size : Nat) (write : Option Word64) (s : State) : State :=
  if 0x80000 ≤ off ∨ ¬ barAlive s then s
  else match write with
    | none => bar0Read s (0x80000 + off) size
    | some v => bar0Write s (0x80000 + off) size v.toNat

/-- CONTROL_APERTURE_ACCESS. -/
def execControlApertureAccess (offset size : Nat) (write : Option Word64) (s : State) : Host.Outcome State Fault Refusal :=
  .next (apertureAccess offset size write s)

end Sys2Proof.Machine
end

