-- ==== Sys2Proof/Machine/Eweum.lean ====
section
/-!
DEFINITION. Eweum in service (spec/14_die_to_die.md R402, R403, R406 to R408, R414, R416 to R424): flits and the go-back-N resend
of each module, the messages that cross a port, the partner die, sideband messages, lane repair and module map-out.
-/
namespace Sys2Proof.Machine

/-! ### Flits (R406, R407) -/

/-- A NULL flit that carries an ACK or a NAK. -/
def ewAck (k : EwModule) (nak : Bool) : EwModule :=
  { k with sent := k.sent ++ [ewFlit k flNull 0 0 nak []], sinceAck := 0 }

/-- A CTRL flit that returns credits. -/
def ewReturn (k : EwModule) (vc count : Nat) : EwModule :=
  { k with sent := k.sent ++ [ewFlit k flCtrl 0 0 false (Config.ewCreditPayload vc count)], sinceAck := 0 }

/-- Resend every unacknowledged flit, and count repetitions from one SEQ. -/
def ewResendAll (k : EwModule) : EwModule :=
  match k.replay with
  | [] => k
  | e :: _ =>
    { k with
      sent := k.sent ++ k.replay.map (fun x => ewFlit k flData x.2.2.1 x.1 false x.2.2.2), sinceAck := 0, resendSeq := e.1
      resends := if k.resends = 0 ∨ k.resendSeq ≠ e.1 then 1 else k.resends + 1 }

/-- Drop the flits up to an acknowledged SEQ. -/
def ewAcked (ack : Nat) (r : List (Nat × Nat × Nat × Bytes)) : List (Nat × Nat × Nat × Bytes) :=
  match findIndex (fun e => e.1 == ack) r with
  | some i => r.drop (i + 1)
  | none => r

/-- A flit that the receiver refuses: one NAK for the gap. -/
def ewRefuse (k : EwModule) : EwModule := if k.nakSent then k else { ewAck k true with nakSent := true }

/-- A DATA flit in order: it passes on at once, its credit returns, and an ACK leaves after every 16. -/
def ewAccept (k : EwModule) (h : Nat) : EwModule :=
  let k1 := ewReturn { k with expected := (k.expected + 1) % 512, got := true, nakSent := false } (bitsOf h 5 4) 1
  if 16 ≤ k.sinceAck + 1 then ewAck k1 false else { k1 with sinceAck := k.sinceAck + 1 }

/-- Credits that a CTRL flit returns. -/
def ewCredited (k : EwModule) (payload : Bytes) : EwModule :=
  { k with credits := (List.range 4).map (fun v => k.credits.getD v 0 + Config.ewCredits payload v) }

/-- A flit at a module's end whose CRC is good. -/
def ewTake (quiesced : Bool) (k : EwModule) (b : Bytes) : EwModule :=
  let h := fieldAt b 0 4
  let k1 := if bitOf h 24 then { k with replay := ewAcked (bitsOf h 23 15) k.replay } else k
  let k2 := if bitOf h 25 then ewResendAll k1 else k1
  let type := bitsOf h 3 0
  let k3 := if type = flCtrl then ewCredited k2 ((b.drop 4).take 248)
    else if type ≠ flData then k2
    else if bitsOf h 14 6 ≠ k2.expected then ewRefuse k2
    else ewAccept k2 h
  ewPump quiesced k3

/-! ### Ports and modules -/

/-- Whether an end's counters are those of the odd POS of a side link; H's ends have none. -/
def ewOdd (port end_ : Nat) : Bool := (port == 4 || port == 5) && end_ == 1
def ewCounted (port end_ : Nat) : Bool := end_ == 0 || ewOdd port end_

def ewCountCrc (port end_ : Nat) (p : EwPort) : EwPort :=
  if !ewCounted port end_ then p
  else if ewOdd port end_ then { p with crcFail2 := satAdd p.crcFail2 1 } else { p with crcFail := satAdd p.crcFail 1 }
def ewCountReplay (port end_ : Nat) (p : EwPort) : EwPort :=
  if !ewCounted port end_ then p
  else if ewOdd port end_ then { p with replays2 := satAdd p.replays2 1 } else { p with replays := satAdd p.replays 1 }

/-- Whether an end of a module runs: the port and the module in service and its die's clocks running. The partner's end is
not this device's. -/
def ewRuns (s : State) (port m end_ : Nat) : Bool :=
  let p := getPort s port
  decide (port < 7) && p.state == 2 && decide (m < portModules port) && !bitOf p.modulesOut.toNat m && !(port == 6 && end_ == 0)
    && !(tget s.dies (ewDie port end_)).clocksStopped && !s.pins.refclkLost

/-- A parity error of a lane, kept with the local counter of its die (R417). -/
def ewParity (s : State) (port end_ : Nat) (lane : Option Nat) (k : EwModule) : EwModule :=
  match lane with
  | none => k
  | some l =>
    let now := counterOf s (ewDie port end_)
    { k with parity := k.parity.filter (fun x => decide (since now x.2 < countsPerSecond / 100)) ++ [(l, now)] }

/-- A flit arrives at an end of a module. -/
def ewFlitIn (port m : Nat) (atHub : Bool) (b : Bytes) (lane : Option Nat) (s : State) : State :=
  let e := b2n atHub
  if !ewRuns s port m e || b.length != 256 then s
  else
    let s1 := modPort s port (modEw m e (ewParity s port e lane))
    let p := getPort s1 port
    if crc32c (b.take 252) ≠ fieldAt b 252 4 then modPort s1 port (fun x => ewCountCrc port e (modEw m e ewRefuse x))
    else
      let nak := bitOf (fieldAt b 0 4) 25
      let k := tget p.links (2 * m + e)
      let again := nak && !(if bitOf (fieldAt b 0 4) 24 then ewAcked (bitsOf (fieldAt b 0 4) 23 15) k.replay else k.replay).isEmpty
      modPort s1 port (fun x =>
        let y := modEw m e (fun q => ewTake x.quiesced q b) x
        if again then ewCountReplay port e y else y)

/-- EW_ACK_TIMER: 50 ns have passed since the last ACK. -/
def ewAckTimer (port m : Nat) (atHub : Bool) (s : State) : State :=
  let e := b2n atHub
  if ewRuns s port m e && (tget (getPort s port).links (2 * m + e)).got then modPort s port (modEw m e (fun k => ewAck k false))
  else s

/-- EW_RESEND_TIMEOUT: no ACK has advanced for 500 ns while flits are unacknowledged. -/
def ewResendTimeout (port m : Nat) (atHub : Bool) (s : State) : State :=
  let e := b2n atHub
  if ewRuns s port m e && !(tget (getPort s port).links (2 * m + e)).replay.isEmpty then
    modPort s port (fun x => ewCountReplay port e (modEw m e ewResendAll x))
  else s

/-! ### Messages (R408) -/

/-- Blocks with their tag words: the stored value, POISON and RESTARTED (R408). -/
def ewBlocks (data : Bytes) (poison restarted : List Bool) : Bytes :=
  (List.range (data.length / 256)).flatMap (fun i =>
    let b := (data.drop (256 * i)).take 256
    let r := restarted.getD i false
    b ++ toBytes 8 ((storedValue b r).toNat + b2n (poison.getD i false) * 2 ^ 32 + b2n r * 2 ^ 33))

/-- A message that only crosses the port: what it asks for is the effect of its issuer's own command, so its flits go out at
the end that sends it. -/
def ewCarry (s : State) (port vc kind : Nat) (m : EwMessage) : State :=
  let p := getPort s port
  let end_ := b2n m.fromHub
  if p.state ≠ 2 ∨ ((port = 4 ∨ port = 5) ∧ kind ≠ ewkTransit) ∨ (port = 6 ∧ m.fromHub = false)
      ∨ (tget s.dies (ewDie port end_)).clocksStopped = true ∨ s.pins.refclkLost = true then s
  else ewSend s port end_ vc (m.addr / 2048) (ewHeader kind m.tag m.addr m.blocks m.status ++ ewBlocks m.data m.poison m.restarted)

/-! ### The partner die (R421 to R424) -/

/-- Whether the partner's messages are served: its port in service, the die not in reset, and H running. -/
def partnerIn (s : State) : Bool :=
  (getPort s 6).state == 2 && !(tget s.dies 5).inReset && !(tget s.dies 5).heldOut && hubRuns s

/-- Whether the partner's agreed set has a bit. -/
def partnerMay (s : State) (bit : Nat) : Bool := (tget s.dies 5).agreed.getLsbD bit

/-- A message of a kind that the agreed set does not allow is discarded with a record (R423). -/
def partnerDiscard (s : State) : State := recordMgmt s 0x0704 .contained (unitAddr 7 5)

/-- A message of the partner: served when the agreed set has a bit, else discarded. -/
def fromPartner (s : State) (bit : Nat) (f : State → State) : State :=
  if !partnerIn s then s else if partnerMay s bit then f s else partnerDiscard s

/-- The status that the partner's access is refused with (R422): its blocks aligned and present, never Warp Beam storage,
control space or knots, and otherwise as R45 and R46 say. -/
def partnerStatus (s : State) (write : Bool) (m : EwMessage) : Nat :=
  if m.addr % 256 ≠ 0 ∨ m.blocks = 0 ∨ 4096 ≤ m.blocks then stBadAddress
  else if meets m.addr (256 * m.blocks) 0xE000000000 0xE020000000 ∨ meets m.addr (256 * m.blocks) 0xE200000000 0xE200100000
      ∨ inControl m.addr = true then stBadAddress
  else accessStatus s .chiplet write m.addr (256 * m.blocks)

/-- H answers the partner with a COMPLETION. -/
def partnerAnswer (s : State) (m : EwMessage) (blocks status : Nat) (body : Bytes) : State :=
  ewSend s 6 1 1 (m.addr / 2048) (ewHeader ewkCompletion m.tag m.addr blocks status ++ body)

/-- A READ of the partner, verified at chiplet port transmit (R71). -/
def partnerRead (m : EwMessage) (finds : Findings) (s : State) : State :=
  let st := partnerStatus s false m
  if st ≠ stOk then partnerAnswer s m 0 st []
  else if accessWaits s m.addr (256 * m.blocks) then s
  else
    let r := issuerRead s .chiplet finds m.addr (256 * m.blocks)
    let e := exitRange r.1 finds .chiplet m.addr (256 * m.blocks) r.2
    partnerAnswer e.1 m m.blocks (readStatus e.2.blocks)
      (ewBlocks e.2.data (e.2.blocks.map (·.poison)) (e.2.blocks.map (·.restarted)))

/-- A WRITE of the partner: each block takes its check value at receive, RESTARTED 0, and its POISON (R69). -/
def partnerWrite (m : EwMessage) (s : State) : State :=
  let st := partnerStatus s true m
  if st ≠ stOk then partnerAnswer s m 0 st []
  else if accessWaits s m.addr (256 * m.blocks) || m.data.length != 256 * m.blocks then s
  else
    let s1 := (List.range m.blocks).foldl (fun t i =>
      putBlock t (m.addr / 256 + i) ((m.data.drop (256 * i)).take 256) false (m.poison.getD i false)) s
    partnerAnswer s1 m 0 stOk []

/-- A knot operation of the partner, on knots 8,192 to 65,535. -/
def partnerKnot (m : EwMessage) (op : KnotOp) (s : State) : State :=
  let n := (m.addr - 0xE200000000) / 16
  if m.addr < 0xE200020000 ∨ 0xE200100000 ≤ m.addr ∨ m.addr % 16 ≠ 0 then partnerAnswer s m 0 stBadAddress []
  else match op with
    | .arrive count lagging => partnerAnswer (arriveKnot s .chiplet n count lagging) m 0 stOk []
    | .wait target => waitKnot s .chiplet n target m.tag
    | .query => partnerAnswer s m 0 stOk (knotBytes s n)
    | _ => partnerAnswer (knotStep s n op) m 0 stOk []

/-- A wake for the partner leaves H. -/
def partnerWake (m : EwMessage) (s : State) : State :=
  match firstThat (fun w => w.issuer == .chiplet && w.tag == m.tag) s.wakes with
  | none => s
  | some w =>
    if partnerIn s then
      ewSend { s with wakes := s.wakes.erase w } 6 1 1 (w.knot * 16 / 2048)
        (ewHeader ewkKnotWake w.tag (0xE200000000 + 16 * w.knot) 0 stOk ++ toBytes 8 w.value)
    else s

/-- The partner's outstanding requests are discarded (R424). -/
def partnerDrop (s : State) : State :=
  let s1 := dropWaits s (· == .chiplet)
  { modPort s1 6 (fun p => { p with links := [] }) with wakes := s1.wakes.filter (fun w => w.issuer != .chiplet) }

/-- EW_READ. -/
def ewRead (port : Nat) (m : EwMessage) (finds : Findings) (s : State) : State :=
  if port = 6 ∧ m.fromHub = false then fromPartner s 128 (partnerRead m finds) else ewCarry s port 0 ewkRead { m with data := [] }

/-- EW_WRITE. -/
def ewWrite (port : Nat) (m : EwMessage) (s : State) : State :=
  if port = 6 ∧ m.fromHub = false then fromPartner s 128 (partnerWrite m) else ewCarry s port 0 ewkWrite m

/-- EW_COMPLETION: the partner's completes an access to its control space, whose result the access has taken. -/
def ewCompletion (port : Nat) (m : EwMessage) (s : State) : State :=
  if port = 6 ∧ m.fromHub = false then fromPartner s 130 id else ewCarry s port 1 ewkCompletion m

/-- EW_KNOT_OP. -/
def ewKnotOp (port : Nat) (m : EwMessage) (op : KnotOp) (s : State) : State :=
  if port = 6 ∧ m.fromHub = false then fromPartner s 129 (partnerKnot m op)
  else if port = 6 then s
  else ewCarry s port 0 ewkKnotOp { m with blocks := 0, data := [] }

/-- EW_KNOT_WAKE. -/
def ewKnotWake (port : Nat) (m : EwMessage) (s : State) : State :=
  if port = 6 ∧ m.fromHub = false then (if partnerIn s then partnerDiscard s else s)
  else if port = 6 then partnerWake m s
  else ewCarry s port 1 ewkKnotWake { m with blocks := 0, data := [] }

/-- EW_TRANSIT: a weft flit crosses the port in two Eweum flits; the partner may carry none (R423). -/
def ewTransit (port : Nat) (fromHub : Bool) (flit : Bytes) (s : State) : State :=
  if port = 6 then (if partnerIn s && !fromHub then partnerDiscard s else s)
  else
    let e := b2n fromHub
    if (getPort s port).state ≠ 2 ∨ (tget s.dies (ewDie port e)).clocksStopped = true ∨ s.pins.refclkLost = true then s
    else ewSend s port e 3 (bitsOf (fieldAt flit 6 4) 17 0) (ewHeader ewkTransit 0 0 0 0 ++ padTo 256 flit)

/-- What a control message does at its C-die. -/
def controlEffect (port : Nat) (c : EwControl) (s : State) : State :=
  match c with
  | .clockStep n => if n < 4 then modDie s port (fun d => { d with clockStep := n }) else s
  | .band layer b => if layer < 8 ∧ b < 4 then setBand s port layer b else s
  | .throttle st n => if st / 2 = port ∧ n < 4 then modStack s st (fun x => { x with step := n }) else s
  | .rung r n => if r / 4 = port ∧ n < 12 then setRung s r n else s
  | .clockStop => if s.thermal.clockOrdered then stopDies s port 1 else s

/-- EW_CONTROL: H sends a C-die a setting, which takes effect there (Table 14-4). No flit starts during a quiesce (R418). -/
def ewControl (port : Nat) (c : EwControl) (s : State) : State :=
  if port = 6 then (if partnerIn s then partnerDiscard s else s)
  else if 4 ≤ port ∨ (getPort s port).state ≠ 2 ∨ (getPort s port).quiesced = true ∨ (tget s.dies port).clocksStopped = true
      ∨ hubRuns s = false then s
  else controlEffect port c (sendControl s port c)

/-! ### A die out of service (R403, R424) -/

/-- A C-die leaves service: its programs are cut, and its regions, HBM4 stacks and weft links leave service with it. -/
def cDieOut (s : State) (d cause : Nat) : State :=
  let mine := fun c => dieOfCore c == d
  let s1 := cutRunning (holdDie s d cause cause) mine
  let s2 := failBatches s1 (fun b => ((List.range 8192).filter mine).any (slotUsesCore (getSlot s1 b.slot))) stDegraded
  let s3 := (rangeFrom (4 * d) 4).foldl (fun t r =>
    if regionOn t r then
      degrade (loseRegion (modRegion t r (fun g => { g with outOfService := true })) r) 1 (some (listEntry 0x0B (r + 16)))
    else t) s2
  let s4 := [2 * d, 2 * d + 1].foldl (fun t n => modStack t n (fun x => { x with out := true })) s3
  (rangeFrom (4 * d) 4).foldl linkOut s4

/-- The partner die leaves service. -/
def partnerOut (s : State) (cause : Nat) : State := partnerDrop (holdDie s 5 cause cause)

/-- What a port below its minimum entails (R403): a side link's transit then crosses H. -/
def belowMinimum (s : State) (port : Nat) : State :=
  if portMinimum port ≤ (getPort s port).modules ∧ (getPort s port).modules ≠ 0 then s
  else if port < 4 then cDieOut s port 4
  else if port = 6 then partnerOut s 4
  else modPort s port (fun p => { p with state := 0 })

/-- PARTNER_SILENT_TIMEOUT. -/
def partnerSilent (s : State) : State := if partnerIn s then partnerOut s 6 else s

/-- HOLD_OUT: the die stops all mainband traffic and sends no further requests. -/
def holdOut (d : Nat) (s : State) : State :=
  match portOfDie d with
  | none => s
  | some p =>
    if !(tget s.dies d).heldOut || !hubRuns s then s
    else
      let s1 := modPort s p (fun x => { x with links := [], quiesced := false, repairing := [] })
      if d = 5 then partnerDrop s1 else s1

/-! ### Sideband (R414, R416) -/

/-- The module that carries a port's sideband messages: the lowest-numbered one in service. -/
def sidebandModule (s : State) (port : Nat) : Option Nat := (ewModules (getPort s port) port).head?

/-- Whether a sideband message can pass between H and a die. -/
def sidebandOpen (s : State) (d : Nat) : Bool := (portOfDie d).any (fun p => (sidebandModule s p).isSome)

/-- STRAPS_READ: H reads the die's fields of Table 01-4 again. -/
def strapsRead (d : Nat) (a : DieAnswer) (s : State) : State :=
  if !hubRuns s || !a.responds || !sidebandOpen s d || decide (s.pcie.phase.toNat < 2) then s
  else modDie s d (fun x => { x with
    dieType := a.dieType, pos := if a.dieType = 0 then a.pos else 0, posMatch := a.dieType == 0 && a.pos.toNat == d
    stepMajor := a.stepMajor, stepMinor := a.stepMinor })

/-- The cause of an order that awaits its reset. -/
def causeOrdered (s : State) (scope : Scope) (unit : Nat) : Option ResetCause :=
  (firstThat (fun o => o.scope == scope && o.unit == unit && !o.done) s.resets).map (·.cause)

/-- The die has no such scope: RESET_DONE with no step reached, and a record. -/
def unknownScope (s : State) (d : Nat) : State := recordMgmt s 0x0705 .corrected (unitAddr 7 d)

/-- RESET_REQ: the die runs the reset of the scope. A region's reset is that which H has ordered. -/
def resetReq (d : Nat) (scope : EwScope) (s : State) : State :=
  if !hubRuns s || !sidebandOpen s d then s
  else match scope with
    | .cDie => if d < 4 then cDieReset d s else unknownScope s d
    | .mLayer n => if d < 4 ∧ n < 8 then mLayerReset d n s else unknownScope s d
    | .region q =>
      if d < 4 ∧ q < 4 then
        match causeOrdered s .region (4 * d + q) with
        | none => s
        | some c => runReset s .region (4 * d + q) c
      else unknownScope s d
    | .partner => if d = 5 then partnerDrop (modDie s 5 (fun x => { x with inReset := true })) else unknownScope s d
    | .other _ => unknownScope s d

/-- RESET_DONE: the partner die is out of reset, and a layer at the last step of Table 07-5; the other scopes' resets have been
reported as they were carried out. -/
def resetDone (d : Nat) (scope : EwScope) (step : Nat) (s : State) : State :=
  match scope with
  | .partner => if d = 5 ∧ 0 < step then modDie s 5 (fun x => { x with inReset := false }) else s
  | .mLayer n =>
    match layerOrder s (8 * d + n) with
    | some o => if d < 4 ∧ n < 8 ∧ 5 ≤ step then layerResetEnd s o else s
    | none => s
  | _ => s

/-! ### Lane repair and module map-out (R417 to R420) -/

/-- Whether a receiver may request the repair of a lane (R417): 32 parity errors on it within 10 ms, or 8 resends in a row
from one SEQ while parity names only this lane. -/
def repairDue (s : State) (port m end_ lane : Nat) : Bool :=
  let k := tget (getPort s port).links (2 * m + end_)
  let other := tget (getPort s port).links (2 * m + (1 - end_))
  let now := counterOf s (ewDie port end_)
  decide (32 ≤ (k.parity.filter (fun x => x.1 == lane && decide (since now x.2 < countsPerSecond / 100))).length)
    || (decide (8 ≤ other.resends || 8 ≤ k.resends) && !k.parity.isEmpty && k.parity.all (fun x => x.1 == lane))

/-- REPAIR_REQ: the port quiesces; the lane moves onto a redundant lane, when one is left and the module retrains. -/
def repairReq (port m : Nat) (towardHub : Bool) (lane : Nat) (retrained : Bool) (s : State) : State :=
  let e := rxEnd port towardHub
  let p := getPort s port
  let runs := ewRuns s port m e || (port == 6 && e == 0 && ewRuns s port m 1)
  if !runs || !(repairDue s port m e lane || (port == 6 && e == 0)) || p.repairing.any (fun r => r.module == m && r.towardHub == towardHub)
  then s
  else
    let ok := retrained && decide ((tget p.links (2 * m + e)).spares < 3)
    modPort s port (fun x => { x with
      quiesced := true, repairing := x.repairing ++ [{ module := m, towardHub := towardHub, lane := lane, moved := ok }] })

/-- A C-die takes the clock step whose message waited at its hub port (R420). -/
def takeStep (s : State) (port : Nat) : State :=
  if port < 4 then modDie s port (fun d => { d with clockStep := s.power.step }) else s

/-- Send what waited through a quiesce. -/
def ewResume (s : State) (port : Nat) : State :=
  if (getPort s port).repairing.isEmpty then
    takeStep (modPort s port (fun x => { x with
      quiesced := false, links := x.links.map (fun e => (e.1, ewPump false e.2)) })) port
  else s

/-- A repair that succeeded: the spare is in use, the record and the map (Table 14-10, step 6). -/
def repairOk (s : State) (port : Nat) (r : EwRepair) : State :=
  let e := rxEnd port r.towardHub
  let spare := (tget (getPort s port).links (2 * r.module + e)).spares
  let s1 := modPort s port (modEw r.module e (fun k => { k with spares := k.spares + 1, parity := [], resends := 0 }))
  let d := ewDie port e
  let addr := unitAddr 9 (port * 16 + r.module)
  let s2 := if d < 4 then recordDie s1 d 0x0702 .corrected addr else recordMgmt s1 0x0702 .corrected addr
  queueDarn s2 (darnEntry 8 2 (port + r.module * 8 + b2n (!r.towardHub) * 128 + r.lane * 256 + spare * 32768))

/-- The flits of one end of a module that is mapped out go to other modules, before what waits there (R419, step 2). -/
def ewMove (s : State) (port m end_ : Nat) : State :=
  let k := tget (getPort s port).links (2 * m + end_)
  let flits := k.replay.map (·.2) ++ k.queued
  flits.reverse.foldl (fun t e =>
    match ewChoose (getPort t port) port e.1 with
    | none => t
    | some n => modPort t port (modEw n end_ (fun q => { q with queued := e :: q.queued }))) s

/-- A module is mapped out in service (R419). -/
def moduleOut (s : State) (port m : Nat) : State :=
  let s1 := modPort s port (fun p => { p with modulesOut := p.modulesOut ||| BitVec.ofNat 16 (2 ^ m), modules := p.modules - 1 })
  let s2 := ewMove (ewMove s1 port m 0) port m 1
  let s3 := modPort s2 port (fun p => { p with links := terase (terase p.links (2 * m)) (2 * m + 1) })
  noteModuleOut s3 port m 2

/-- REPAIR_DONE: the repair ends once every other module's flits are acknowledged; traffic resumes after the last repair of
the quiesce (R420), and a failure maps the module out. -/
def repairDone (port m : Nat) (failed : Bool) (s : State) : State :=
  let p := getPort s port
  match firstThat (fun r => r.module == m) p.repairing with
  | none => s
  | some r =>
    let bad := failed || !r.moved
    if p.links.any (fun x => !x.2.replay.isEmpty && !(bad && x.1 / 2 == m)) then s
    else
      let s1 := modPort s port (fun x => { x with repairing := x.repairing.erase r })
      if bad then belowMinimum (ewResume (moduleOut s1 port m) port) port
      else ewResume (repairOk s1 port r) port

/-! ### The rows of the table -/

/-- EW_DATA_FLIT. -/
def execEwDataFlit (port module : Nat) (atHub : Bool) (flit : Flit) (badLane : Option Nat) (s : State) :
    Host.Outcome State Fault Refusal := .next (ewFlitIn port module atHub flit badLane s)

/-- EW_CTRL_FLIT. -/
def execEwCtrlFlit (port module : Nat) (atHub : Bool) (flit : Flit) (s : State) : Host.Outcome State Fault Refusal :=
  .next (ewFlitIn port module atHub flit none s)

/-- EW_ACK_TIMER. -/
def execEwAckTimer (port module : Nat) (atHub : Bool) (s : State) : Host.Outcome State Fault Refusal :=
  .next (ewAckTimer port module atHub s)

/-- EW_RESEND_TIMEOUT. -/
def execEwResendTimeout (port module : Nat) (atHub : Bool) (s : State) : Host.Outcome State Fault Refusal :=
  .next (ewResendTimeout port module atHub s)

/-- EW_READ. -/
def execEwRead (port : Nat) (m : EwMessage) (finds : Findings) (s : State) : Host.Outcome State Fault Refusal :=
  .next (ewRead port m finds s)

/-- EW_WRITE: whole blocks are written, so no stored block is read. -/
def execEwWrite (port : Nat) (m : EwMessage) (_finds : Findings) (s : State) : Host.Outcome State Fault Refusal :=
  .next (ewWrite port m s)

/-- EW_COMPLETION. -/
def execEwCompletion (port : Nat) (m : EwMessage) (s : State) : Host.Outcome State Fault Refusal := .next (ewCompletion port m s)

/-- EW_KNOT_OP. -/
def execEwKnotOp (port : Nat) (m : EwMessage) (op : KnotOp) (s : State) : Host.Outcome State Fault Refusal :=
  .next (ewKnotOp port m op s)

/-- EW_KNOT_WAKE. -/
def execEwKnotWake (port : Nat) (m : EwMessage) (s : State) : Host.Outcome State Fault Refusal := .next (ewKnotWake port m s)

/-- EW_CONTROL. -/
def execEwControl (port : Nat) (c : EwControl) (s : State) : Host.Outcome State Fault Refusal := .next (ewControl port c s)

/-- EW_TRANSIT. -/
def execEwTransit (port : Nat) (fromHub : Bool) (flit : Flit) (s : State) : Host.Outcome State Fault Refusal :=
  .next (ewTransit port fromHub flit s)

/-- STRAPS_READ. -/
def execStrapsRead (d : Nat) (a : DieAnswer) (s : State) : Host.Outcome State Fault Refusal := .next (strapsRead d a s)

/-- RESET_REQ. -/
def execResetReq (d : Nat) (scope : EwScope) (s : State) : Host.Outcome State Fault Refusal := .next (resetReq d scope s)

/-- RESET_DONE. -/
def execResetDone (d : Nat) (scope : EwScope) (step : Nat) (s : State) : Host.Outcome State Fault Refusal :=
  .next (resetDone d scope step s)

/-- REPAIR_REQ. -/
def execRepairReq (port module : Nat) (towardHub : Bool) (lane : Nat) (retrained : Bool) (s : State) :
    Host.Outcome State Fault Refusal := .next (repairReq port module towardHub lane retrained s)

/-- REPAIR_DONE. -/
def execRepairDone (port module : Nat) (failed : Bool) (s : State) : Host.Outcome State Fault Refusal :=
  .next (repairDone port module failed s)

/-- HOLD_OUT. -/
def execHoldOut (d : Nat) (s : State) : Host.Outcome State Fault Refusal := .next (holdOut d s)

/-- PARTNER_SILENT_TIMEOUT. -/
def execPartnerSilentTimeout (s : State) : Host.Outcome State Fault Refusal := .next (partnerSilent s)

end Sys2Proof.Machine
end

