-- ==== Sys2Proof/Machine/KnotRows.lean ====
section
/-!
DEFINITION. The knot operations as issuers send them (spec/03_warp_beam_and_knots.md Table 03-5, R96 to R98): on device
knots, on a core's local knots, and on knots of other devices.
-/
namespace Sys2Proof.Machine

/-- Whether an issuer may ARRIVE (Table 03-5). -/
def mayArrive : Issuer → Bool
  | .engine _ _ => true
  | .regionCtl _ => true
  | .pageService _ => true
  | .management => true
  | .reduction _ => true
  | _ => false

/-- Whether an issuer may WAIT: those that may ARRIVE, and host commands. -/
def mayWait : Issuer → Bool
  | .command _ => true
  | i => mayArrive i

/-- Whether an issuer may SET or ADD (Table 03-5). -/
def maySet : Issuer → Bool
  | .regionCtl _ => true
  | .management => true
  | .command _ => true
  | _ => false

/-- Whether R97 lets an issuer change a knot: reserved knots only by Pygrim's own units. -/
def knotOpen (i : Issuer) (n : Nat) : Bool :=
  decide (n < 65536) && (decide (8192 ≤ n)
    || (match i with
        | .engine _ _ => false
        | .command _ => false
        | _ => true))

/-- The knot store or device that a reference names, seen from this device: an own device number is this store. -/
def ownKnot (s : State) (k : KnotRef) : KnotRef :=
  match k with
  | .remote dev n => if ownDevice s = some dev then .device n else k
  | _ => k

/-- Whether an issuer is the sequencer of a core (R175: local knots have no device address). -/
def sequencerOf (i : Issuer) (core : Nat) : Bool := engineOf core i

/-- ARRIVE (R57, R94, R260). -/
def arriveRow (i : Issuer) (k : KnotRef) (count : Nat) (lagging : Bool) (s : State) : State :=
  if !mayArrive i || count == 0 || decide (65535 < count) then s
  else match ownKnot s k with
    | .device n => if knotOpen i n then arriveKnot s i n count lagging else s
    | .localTo core n =>
      if sequencerOf i core && decide (n < 32) then
        arriveLocal (clearThrottled s i) core n count (arriveLag s i lagging)
      else s
    | .remote dev n => remoteKnotOp (clearThrottled s i) i 0 dev n (.arrive count (arriveLag s i lagging))

/-- WAIT (R96). A local wait belongs to the engine that issues it. -/
def waitRow (i : Issuer) (k : KnotRef) (target : Nat) (s : State) : State :=
  if !mayWait i then s
  else match ownKnot s k with
    | .device n => if n < 65536 then waitKnot s i n target 0 else s
    | .localTo core n =>
      match i with
      | .engine c e =>
        if c = core ∧ n < 32 ∧ (tget (getCore s core).localKnots n).value.toNat < target then
          modCore s core (fun x => { x with localWaits := x.localWaits ++ [(e, n, target)] })
        else s
      | _ => s
    | .remote dev n => remoteKnotOp s i 0 dev n (.wait target)

/-- SET (R94). -/
def setRow (i : Issuer) (k : KnotRef) (value : Nat) (s : State) : State :=
  if !maySet i then s
  else match ownKnot s k with
    | .device n => if knotOpen i n then knotStep s n (.set value) else s
    | .localTo _ _ => s
    | .remote dev n => remoteKnotOp s i 0 dev n (.set value)

/-- ADD (R94). -/
def addRow (i : Issuer) (k : KnotRef) (delta : Int) (s : State) : State :=
  if !maySet i then s
  else match ownKnot s k with
    | .device n => if knotOpen i n then knotStep s n (.add delta) else s
    | .localTo _ _ => s
    | .remote dev n => remoteKnotOp s i 0 dev n (.add delta)

/-- QUERY (R93): the knot's 16 bytes go to the issuer. -/
def queryRow (i : Issuer) (k : KnotRef) (s : State) : State :=
  match ownKnot s k with
  | .device n => { s with delivered := { status := stOk, data := knotBytes s n, poison := false } }
  | .localTo core n =>
    if sequencerOf i core then
      { s with delivered := { status := stOk, data := localKnotBytes (getCore s core) n, poison := false } }
    else s
  | .remote dev n => remoteKnotOp s i 0 dev n .query

/-! ### The rows of the table -/

/-- ARRIVE. -/
def execArrive (i : Issuer) (k : KnotRef) (count : Nat) (lagging : Bool) (s : State) :
    Host.Outcome State Fault Refusal := .next (arriveRow i k count lagging s)

/-- WAIT. -/
def execWait (i : Issuer) (k : KnotRef) (target : Nat) (s : State) : Host.Outcome State Fault Refusal :=
  .next (waitRow i k target s)

/-- WAIT_RETRY. -/
def execWaitRetry (i : Issuer) (n : Nat) (s : State) : Host.Outcome State Fault Refusal := .next (retryWait s i n)

/-- SET. -/
def execSet (i : Issuer) (k : KnotRef) (value : Nat) (s : State) : Host.Outcome State Fault Refusal :=
  .next (setRow i k value s)

/-- ADD. -/
def execAdd (i : Issuer) (k : KnotRef) (delta : Int) (s : State) : Host.Outcome State Fault Refusal :=
  .next (addRow i k delta s)

/-- QUERY. -/
def execQuery (i : Issuer) (k : KnotRef) (s : State) : Host.Outcome State Fault Refusal := .next (queryRow i k s)

end Sys2Proof.Machine
end

