-- ==== Sys2Proof/Machine/Memory.lean ====
section
/-!
DEFINITION. Accesses of issuers and of the host's BAR2 window (spec/02 R44 to R47, R52 to R55, R66 to R78; spec/03 R83, R84,
R87; spec/11 R309), and the upkeep of the stores (spec/07 R200, R204; spec/08 R217, R225; spec/09 R253).
-/
namespace Sys2Proof.Machine

/-! ### The sequence table as it is written (R264, Table 10-1) -/

/-- State of a sequence by its code; other codes are not written by any unit that the manual names. -/
def seqPhaseOf (n : Nat) : SeqPhase :=
  if n = 1 then .opened else if n = 2 then .batched else if n = 3 then .parked else if n = 4 then .closing else .free

/-- The stored fields of a sequence-table entry; the page counts are views of the page tables. -/
def seqFromBytes (e : Seq) (b : Bytes) : Seq :=
  let f := fieldAt b 0x0F 1
  { e with
    phase := seqPhaseOf (fieldAt b 0 1), privileged := bitOf (fieldAt b 1 1) 0, modelSlot := fieldAt b 2 2
    length := fieldAt b 4 4, maxLength := fieldAt b 8 4, priority := fieldAt b 0x0C 1, bucket := fieldAt b 0x0D 1
    homeRegion := fieldAt b 0x0E 1, retrieval := bitOf f 0, recomputeDue := bitOf f 1, parkedNoPage := bitOf f 2
    parkedHost := bitOf f 3, lost := bitOf f 4, ptRoot := fieldAt b 0x10 8, tokenLog := fieldAt b 0x18 8
    parent := fieldAt b 0x20 2, forkPoint := fieldAt b 0x24 4, lastBatch := fieldAt b 0x34 4
    reservedFrames := fieldAt b 0x38 4, steps := fieldAt b 0x3C 4 }

/-- Write bytes inside one entry of the sequence table. -/
def writeEntry (s : State) (blk : Nat) (cells : List (Nat × Byte)) : State :=
  let n := blk - seqTableBase / 256
  let b := cells.foldl (fun d c => d.set (c.1 % 256) c.2) (seqEntryBytes s n)
  modSeq s n (fun e => seqFromBytes e b)

/-- Write cells as an issuer: blocks of the sequence table change its entries, every other block its memory. -/
def issuerWrite (s : State) (finds : Findings) (a : Nat) (b : Bytes) (restarted : Bool) : State × Nat :=
  let cells := cellsOf a b
  let table := cells.filter (fun c => inSeqTable (c.1 / 256))
  let rest := cells.filter (fun c => !inSeqTable (c.1 / 256))
  let w := writeCells s finds rest restarted false
  ((table.map (fun c => c.1 / 256)).eraseDups.foldl (fun t k => writeEntry t k (table.filter (fun c => c.1 / 256 == k))) w.1, w.2)

/-! ### MEMORY_READ and MEMORY_WRITE -/

/-- Registers of control space, read word by word by an issuer that R47 allows. -/
def ctlReadWords (s : State) (a : Nat) : Nat → State × Bytes
  | 0 => (s, [])
  | n + 1 =>
    let r := ctlRead s a
    let t := ctlReadWords r.1 (a + 4) n
    (t.1, toBytes 4 r.2 ++ t.2)

/-- Registers of control space written word by word. -/
def ctlWriteWords (s : State) (a : Nat) : Nat → Bytes → State
  | 0, _ => s
  | n + 1, b => ctlWriteWords (ctlWrite s a (fieldAt b 0 4)) (a + 4) n (b.drop 4)

/-- Whether a whole-word range lies in control space. -/
def controlRange (a n : Nat) : Bool := a % 4 == 0 && n % 4 == 0 && inControl a && inControl (a + n - 1)

/-- An access behind what is queued on its way: it enters the first queue that holds it back (R189, R208, R216). -/
def queueAccess (s : State) (q : Queued) : Option State :=
  let s1 := (queuesOf s q.addr q.length).foldl drainQueue s
  (heldAt s1 q.addr q.length).map (fun x => enqueue s1 x q)

/-- The state in which an access that no queue holds back is served. -/
def queuesServed (s : State) (a n : Nat) : State := (queuesOf s a n).foldl drainQueue s

/-- MEMORY_READ. -/
def memoryRead (i : Issuer) (a n : Nat) (finds : Findings) (s : State) : State :=
  let st := accessStatus s i false a n
  if n = 0 then s
  else if st ≠ stOk then deliver s st [] false
  else if inControl a then
    if controlRange a n then let r := ctlReadWords s a (n / 4); deliver r.1 stOk r.2 false else deliver s stBadAddress [] false
  else match queueAccess s { issuer := i, addr := a, length := n, finds := finds } with
    | some t => t
    | none =>
      let r := issuerRead (queuesServed s a n) i finds a n
      deliver r.1 (readStatus r.2.blocks) r.2.data (anyPoison r.2.blocks)

/-- MEMORY_WRITE: `restarted` is the writer's flag (Table 02-6). -/
def memoryWrite (i : Issuer) (a : Nat) (b : Bytes) (restarted : Bool) (finds : Findings) (s : State) : State :=
  let n := b.length
  let st := accessStatus s i true a n
  if n = 0 then s
  else if st ≠ stOk then deliver s st [] false
  else if inControl a then
    if controlRange a n then deliver (ctlWriteWords s a (n / 4) b) stOk [] false else deliver s stBadAddress [] false
  else match queueAccess s { issuer := i, addr := a, length := n, write := some (b, restarted), finds := finds } with
    | some t => t
    | none =>
      let w := issuerWrite (queuesServed s a n) finds a b restarted
      deliver w.1 w.2 [] (w.2 == stPoison)

/-! ### BAR2 (R87, R301, R309) -/

/-- Bytes of the BAR2 window. -/
abbrev bar2Size : Nat := 536870912

/-- Whether BAR2 serves a read: the device is ready or held by the selvedge check, or the range lies in the record rings
after phase 2. -/
def bar2Served (s : State) (off n : Nat) : Bool :=
  barsServed s || (barAlive s && decide (3 ≤ s.pcie.phase.toNat) && decide (0x1ED00000 ≤ off) && decide (off + n ≤ 0x1F000000))

/-- BAR2_READ: each block's part, verified at PCIe transmit, is one completion, poisoned where the block is. -/
def bar2Read (off n : Nat) (finds : Findings) (s : State) : State :=
  if !barAlive s || n == 0 || decide (bar2Size < off + n) then s
  else
    let a := wbAddr off
    if !bar2Served s off n then hostRead s (List.replicate n 0xFF)
    else if accessStatus s .bar2 false a n ≠ stOk then hostRead (recordPcie s 0x0501 .contained a) (List.replicate n 0xFF)
    else
      let r0 := readRange s finds a n
      let r := exitRange r0.1 finds .pcie a n r0.2
      (blockParts (n + 1) a n).foldl (fun t p => hostRead t ((r.2.data.drop (p.1 - a)).take p.2) (poisonAt r.2.blocks p.1)) r.1

/-- BAR2_WRITE. -/
def bar2Write (off : Nat) (b : Bytes) (finds : Findings) (s : State) : State :=
  if !barsServed s || b.isEmpty || decide (bar2Size < off + b.length) then s
  else
    let a := wbAddr off
    if accessStatus s .bar2 true a b.length ≠ stOk then recordPcie s 0x0501 .contained a
    else (writeRange s finds a b false false).1

/-! ### Upkeep -/

/-- FAR_CORRECTION_WRITEBACK: the oldest corrected block is written back unchanged (R253). -/
def farWriteback (pc : Nat) (s : State) : State :=
  if pcHeld s pc then s else modPc s pc (fun p => { p with writebacks := p.writebacks.drop 1 })

/-- The weight that a Warp Beam port has now by Table 03-1 (R82), for the ports of C-dies 0 to 3, the chiplet port 6, and the
host 7, management 8 and reduction 9 ports. -/
def portWeight (s : State) (port : Nat) : Nat :=
  if port < 4 ∨ port = 6 then
    let d := if port = 6 then 5 else port
    if (tget s.dies d).heldOut || (port == 6 && (tget s.dies 5).tableVersion == 0) then 0 else (getPort s port).modules
  else if port = 7 then b2n s.pcie.linkUp
  else if port = 8 then 1
  else if port = 9 then 16
  else 0

/-- The grants within which a bank serves a requesting port, with every port requesting (R83). -/
def grantBound (s : State) (port : Nat) : Nat :=
  sumOf ([0, 1, 2, 3, 6, 7, 8, 9].map (tget s.wbWeights)) + 1 - tget s.wbWeights port

/-- WB_REWEIGHT: every bank takes the port's weight (R82, R84). -/
def wbReweight (port : Nat) (s : State) : State :=
  if port < 10 then { s with wbWeights := tset s.wbWeights port (portWeight s port) } else s

/-- The highest reading of a layer's own 8 sensors, in units of 0.125 °C (R205). -/
def layerReading (s : State) (pos layer : Nat) : Option Int :=
  ((rangeFrom (256 + pos * 64 + layer * 8) 8).filterMap (fun n => (getSensor s n).reading)).foldl (fun a v =>
    match a with
    | none => some v
    | some b => some (if b < v then v else b)) none

/-- The band that a layer in self-refresh takes from its own sensors: the higher one at once, a lower one 2 K below the
bound (R205). -/
def ownBandNext (band : Nat) (t : Rat) : Nat :=
  if band < bandOf t then bandOf t else if 0 < band ∧ t < bandBound band - 2 then band - 1 else band

/-- A layer in self-refresh takes its band again. -/
def ownBandStep (s : State) (ch : Nat) : State :=
  match layerReading s (ch / 16384) (ch % 8) with
  | none => s
  | some v => { s with layers := tmod s.layers (layerKey ch) (fun l => { l with ownBand := ownBandNext l.ownBand (degrees v) }) }

/-- Refreshes of a bank that fell due are issued. -/
def issueRefreshes (bank n : Nat) (c : Chan) : Chan :=
  { c with refreshOwed := terase c.refreshOwed bank, refreshes := tmod c.refreshes bank (· + n) }

/-- REFRESH_DUE: with accesses queued to an open row the controller may postpone it, and issues all when 4 are owed (R204);
an active bank in processor mode refreshes at its next step boundary (R225). In self-refresh the layer refreshes itself at
its own band's rate (R205). -/
def refreshDue (ch bank : Nat) (postpone : Bool) (s : State) : State :=
  let c := getChan s ch
  let owed := tget c.refreshOwed bank + 1
  if 16 ≤ bank then s
  else if (layerOf s ch).selfRefresh then modChan (ownBandStep s ch) ch (issueRefreshes bank owed)
  else if owed < 4 ∧ (postpone = true ∨ c.run.any (fun r => (tget r.banks bank).state == .active) = true) then
    modChan s ch (fun x => { x with refreshOwed := tset x.refreshOwed bank owed })
  else modChan s ch (issueRefreshes bank owed)

/-- SCRUB_READ of a row; it pauses in processor mode (R217) and while the channel serves nothing. -/
def scrubRead (ch bank row : Nat) (finds : Findings) (s : State) : State :=
  if chanHeld s ch || (layerOf s ch).inReset || decide (16 ≤ bank) || decide (512 ≤ row) || bankMappedOut s (ch * 16 + bank) then s
  else (readBlocks s finds (rangeFrom ((ch * 16 + bank) * 2048 + row * 4) 4)).1

/-! ### The rows of the table -/

/-- MEMORY_READ. -/
def execMemoryRead (issuer : Issuer) (addr length : Nat) (finds : Findings) (s : State) : Host.Outcome State Fault Refusal :=
  .next (memoryRead issuer addr length finds s)

/-- MEMORY_WRITE. -/
def execMemoryWrite (issuer : Issuer) (addr : Nat) (bytes : Bytes) (restarted : Bool) (finds : Findings) (s : State) :
    Host.Outcome State Fault Refusal :=
  .next (memoryWrite issuer addr bytes restarted finds s)

/-- BAR2_READ. -/
def execBar2Read (offset length : Nat) (finds : Findings) (s : State) : Host.Outcome State Fault Refusal :=
  .next (bar2Read offset length finds s)

/-- BAR2_WRITE. -/
def execBar2Write (offset : Nat) (bytes : Bytes) (finds : Findings) (s : State) : Host.Outcome State Fault Refusal :=
  .next (bar2Write offset bytes finds s)

/-- FAR_CORRECTION_WRITEBACK. -/
def execFarCorrectionWriteback (pc : Nat) (s : State) : Host.Outcome State Fault Refusal := .next (farWriteback pc s)

/-- WB_REWEIGHT. -/
def execWbReweight (port : Nat) (s : State) : Host.Outcome State Fault Refusal := .next (wbReweight port s)

/-- REFRESH_DUE. -/
def execRefreshDue (ch bank : Nat) (s : State) (postpone : Bool := false) : Host.Outcome State Fault Refusal :=
  .next (refreshDue ch bank postpone s)

/-- SCRUB_READ. -/
def execScrubRead (ch bank row : Nat) (finds : Findings) (s : State) : Host.Outcome State Fault Refusal :=
  .next (scrubRead ch bank row finds s)

end Sys2Proof.Machine
end

