-- ==== Sys2Proof/Machine/PcieConfig.lean ====
section
/-!
DEFINITION. The configuration space of the PCIe function (spec/11_host_interface.md R298, R299, R303 to R306, R311, Table 11-1),
and the rows that read and write a register. The numbers and features are Table 11-1's; the fields of each register are the PCI
Express Base Specification's, and the place of each capability is the model's choice (log 120).
-/
namespace Sys2Proof.Machine

/-! ### Configuration words -/

/-- The value of a writable word before software changes it. -/
def configReset (d : Nat) : Nat :=
  match d with
  | 0x68 => 0x2010
  | 0x90 => 0x7
  | 0x10C => 0x462030
  | 0x114 => 0x2000
  | _ => 0

/-- The bits of a word that a write replaces. -/
def configRw (d : Nat) : Nat :=
  match d with
  | 0x04 => 0x542
  | 0x0C => 0xFF
  | 0x10 => 0xFFF00000
  | 0x14 => 0xFFFFFFFF
  | 0x18 => 0xE0000000
  | 0x1C => 0xFFFFFFFF
  | 0x20 => 0xFFFF0000
  | 0x24 => 0xFFFFFFFF
  | 0x3C => 0xFF
  | 0x68 => 0x71FF
  | 0x70 => 0xC8
  | 0x88 => 0x101F
  | 0x90 => 0x1F
  | 0x108 => 0x7FF030
  | 0x10C => 0x7FF030
  | 0x114 => 0xF1C1
  | 0x160 => 0x2
  | 0x178 => 0xC
  | _ => 0

/-- The bits of a word that a written 1 clears. -/
def configClear (d : Nat) : Nat :=
  match d with
  | 0x04 => 0xF9000000
  | 0x68 => 0xF0000
  | 0x104 => 0x7FF030
  | 0x110 => 0xF1C1
  | _ => 0

/-- The stored part of a word. -/
def configStored (s : State) (d : Nat) : Nat :=
  match tget s.pcie.config d with
  | some w => w.toNat
  | none => configReset d

/-- The code of a link speed in GT/s. -/
def speedCode (speed : Nat) : Nat :=
  if 128 ≤ speed then 7 else if 64 ≤ speed then 6 else if 32 ≤ speed then 5 else if 16 ≤ speed then 4
  else if 8 ≤ speed then 3 else if 5 ≤ speed then 2 else 1

/-- The part of a word that software does not change: Table 11-1's identification, BAR kinds and capabilities. -/
def configFixed (s : State) (d : Nat) : Nat :=
  match d with
  | 0x00 => 0x42041FD7
  | 0x04 => 0x100000 + 4 * b2n s.pcie.busMaster
  | 0x08 => 0x120000B1
  | 0x10 => 0x4
  | 0x18 => 0xC
  | 0x20 => 0x4
  | 0x2C => Config.subsystemId.toNat
  | 0x34 => 0x40
  | 0x40 => 0x00035001
  | 0x44 => 0x8 + (if s.pcie.d3hot then 3 else 0)
  | 0x50 => 0x007F6011 + 0x40000000 * b2n s.pcie.msixMaskAll + 0x80000000 * b2n s.pcie.msixEnable
  | 0x54 => 0x2000
  | 0x58 => 0x2800
  | 0x60 => 0x00020010
  | 0x64 => 0x10008023
  | 0x6C => 0x400107
  | 0x70 => speedCode s.pcie.speed * 0x10000 + s.pcie.width * 0x100000
  | 0x84 => 0x3001F
  | 0x8C => 0xFE
  | 0x100 => 0x14820001
  | 0x148 => 0x15810003
  | 0x14C => Config.deviceId.toNat % 2 ^ 32
  | 0x150 => Config.deviceId.toNat / 2 ^ 32 % 2 ^ 32
  | 0x158 => 0x1701002E
  | 0x164 => b2n s.pcie.doeHeld.isSome
  | 0x170 => 0x0001002F
  | 0x174 => 0xE
  | _ => 0

/-- A word of configuration space as it reads. -/
def configWord (s : State) (d : Nat) : Nat := Nat.lor (configFixed s d) (configStored s d)

/-! ### Writes -/

/-- Store a word: written bits are replaced or cleared. `v` holds the written bytes in place and `be` their bits. -/
def configStore (s : State) (d v be : Nat) : State :=
  let old := configStored s d
  let rw := Nat.land (configRw d) be
  let kept := Nat.xor old (Nat.land old (Nat.lor rw (Nat.land (Nat.land v be) (configClear d))))
  let new := Nat.lor kept (Nat.land v rw)
  let word : Option Word := if new = configReset d then none else some (BitVec.ofNat 32 new)
  { s with pcie := { s.pcie with config := tset s.pcie.config d word } }

/-- The masks of MSI-X change: what is pending and no longer masked is sent (R311). -/
def msixControl (s : State) (enable maskAll : Bool) : State :=
  s.pcie.msixPending.foldl sendVector
    { s with pcie := { s.pcie with msixEnable := enable, msixMaskAll := maskAll, msixPending := [] } }

/-- Bit `i` of a word after a write. -/
def writtenBit (old : Bool) (v be i : Nat) : Bool := if bitOf be i then bitOf v i else old

/-- A write of a configuration word. Bus Master Enable and the power state govern what goes to the host (R305), the control of
MSI-X its messages (R311), and Initiate Function Level Reset starts that reset (R303). -/
def configWrite (s : State) (d v be : Nat) : State :=
  let p := s.pcie
  match d with
  | 0x04 => openHost (configStore { s with pcie := { p with busMaster := writtenBit p.busMaster v be 2 } } d v be)
  | 0x44 =>
    let state := if bitOf be 0 then v % 4 else (if p.d3hot then 3 else 0)
    if state = 0 ∨ state = 3 then openHost { s with pcie := { p with d3hot := state == 3 } } else s
  | 0x50 => msixControl s (writtenBit p.msixEnable v be 31) (writtenBit p.msixMaskAll v be 30)
  | 0x68 => if bitOf be 15 && bitOf v 15 then functionLevelReset s else configStore s d v be
  | _ => configStore s d v be

/-! ### Requests -/

/-- Whether a configuration request is one of 1, 2 or 4 bytes inside one word. -/
def configFits (off size : Nat) : Bool :=
  (size == 1 || size == 2 || size == 4) && off % size == 0 && decide (off + size ≤ 4096)

/-- A configuration read: it completes in every phase of bring-up (R299). -/
def configRead (s : State) (off size : Nat) : State :=
  if s.pcie.linkUp && configFits off size then
    hostRead s (toBytes size (configWord s (off / 4 * 4) / 2 ^ (8 * (off % 4))))
  else s

/-- A configuration write. -/
def configRequest (s : State) (off size v : Nat) : State :=
  if s.pcie.linkUp && configFits off size then
    let sh := 2 ^ (8 * (off % 4))
    configWrite s (off / 4 * 4) (v % 2 ^ (8 * size) * sh) ((2 ^ (8 * size) - 1) * sh)
  else s

/-! ### The rows of the table -/

/-- REGISTER_WRITE. A control-space address stands for the management core's own access (R47). -/
def registerWrite (reg : RegRef) (size : Nat) (value : Word64) (s : State) : State :=
  match reg with
  | .bar0 off => if barAlive s then bar0Write s off size value.toNat else s
  | .bar4 off => if barAlive s then bar4Write s off size value.toNat else s
  | .ctl a => if inControl a && a % 4 == 0 then ctlWrite s a (value.toNat % 2 ^ 32) else s
  | .config off => configRequest s off size value.toNat

/-- RC_REGISTER_READ: it clears the RC fields that it returns. -/
def registerRead (reg : RegRef) (size : Nat) (s : State) : State :=
  match reg with
  | .bar0 off => if barAlive s then bar0Read s off size else s
  | .bar4 off => if barAlive s then bar4Read s off size else s
  | .ctl a => if inControl a && a % 4 == 0 then
      let r := ctlRead s a
      { r.1 with delivered := { status := stOk, data := toBytes 4 r.2, poison := false } }
    else s
  | .config off => configRead s off size

/-- REGISTER_WRITE. -/
def execRegisterWrite (reg : RegRef) (size : Nat) (value : Word64) (s : State) : Host.Outcome State Fault Refusal :=
  .next (registerWrite reg size value s)

/-- RC_REGISTER_READ. -/
def execRcRegisterRead (reg : RegRef) (s : State) (size : Nat := 4) : Host.Outcome State Fault Refusal :=
  .next (registerRead reg size s)

end Sys2Proof.Machine
end

