-- ==== Sys2Proof/Machine/Rescue.lean ====
section
/-!
DEFINITION. ERRLOG_READ and TRAFFIC_GEN (spec/12_command_reference.md R365, R366), the rescue operations (R371, Tables 12-17,
12-18) and the I3C target (R370; spec/18_package_and_board.md R526).
-/
namespace Sys2Proof.Machine

/-! ### The management core's log (R365, R501) -/

/-- The records of the log with indices `first` to `first + count - 1`, packed. -/
def logRange (s : State) (first count : Nat) : List Bytes :=
  (s.errors.log.filter (fun e => decide (first ≤ e.1) && decide (e.1 < first + count))).map (·.2)

/-- The oldest index held; the next one while the log is empty. -/
def oldestIndex (s : State) : Nat := (s.errors.log.head?.map (·.1)).getD s.errors.logNext.toNat

/-- RESULT of ERRLOG_READ and RSC_ERRLOG_READ. -/
def logResult (s : State) (l : List Bytes) : Bytes := toBytes 4 l.length ++ toBytes 4 (oldestIndex s)

/-- ERRLOG_READ. -/
def errlogRead (p : Nat) (s : State) : State :=
  runCmd s p 0x0A03 (fun k =>
    let count := argAt k 0x14 4
    let l := logRange s (argAt k 0x10 4) count
    if (bufB k).len < 32 * count then fail s p stBadPacket
    else fillBuffer s p (bufB k) l.flatten (logResult s l))

/-! ### TRAFFIC_GEN (R366) -/

/-- The generator fields that a TRAFFIC_GEN gives. -/
def tgOf (t : TrafficGen) (k : Packet) (near : Bool) : TrafficGen :=
  { t with
    mode := BitVec.ofNat 3 (argAt k 0x18 1), readOnly := bitOf (argAt k 0x18 1) 3
    bankMask := if near then BitVec.ofNat 16 (argAt k 0x1C 2) else 0
    first := argAt k 0x20 2, last := argAt k 0x22 2, param := BitVec.ofNat 32 (argAt k 0x24 4), packet := some k.id }

/-- The status that refuses a TRAFFIC_GEN before it starts. -/
def tgRefusal (s : State) (k : Packet) : Nat :=
  let u := argAt k 0x14 4
  let first := argAt k 0x20 2
  let last := argAt k 0x22 2
  if bitOf (argAt k 0x10 1) 0 then
    if 512 ≤ u ∨ argAt k 0x1C 4 ≠ 0 ∨ last < first ∨ 12096 ≤ last then stBadPacket
    else if regionRefusal s (regionOfPc u) ≠ stOk then regionRefusal s (regionOfPc u)
    else if (getPc s u).tg.running then stBusy
    else stOk
  else if 65536 ≤ u ∨ last < first ∨ 512 ≤ last then stBadPacket
  else if coreRefusal s (u / 8) ≠ stOk then coreRefusal s (u / 8)
  else if (getChan s u).chOut then stDegraded
  else if (getChan s u).tg.running then stBusy
  else stOk

/-- TRAFFIC_GEN: it replies at the end of the run; a refused start gives ST_BUSY. -/
def trafficGen (p : Nat) (s : State) : State :=
  runCmd s p 0x0B01 (fun k =>
    let u := argAt k 0x14 4
    let st := tgRefusal s k
    if st ≠ stOk then fail s p st
    else if bitOf (argAt k 0x10 1) 0 then
      let t := startFarTg s u (tgOf (getPc s u).tg k false)
      if (getPc t u).tg.running then markStarted t p else fail t p stBusy
    else
      let t := startTg s u (tgOf (getChan s u).tg k true)
      if (getChan t u).tg.running then markStarted t p else fail t p stBusy)

/-! ### Rescue operations (R371) -/

/-- Run a rescue operation when its mailbox is served next and holds its opcode. -/
def runRescue (s : State) (m op : Nat) (f : Packet → State) : State :=
  let k := rescuePacket s m
  if rescueServed s && s.rescueOrder.head? == some m && (getMailbox s m).busy && k.opcode == op then f k else s

/-- A rescue operation that fails. -/
def rescueFail (s : State) (m status : Nat) (detail : Nat := 0) : State := rescueAnswer s m status (failResult detail 0 0) []

/-- The hottest reading of a range of sensors as one byte; free where none reads. -/
def hottestByte (s : State) (lo n i : Nat) : Byte :=
  match maxOf ((rangeFrom lo n).filterMap (fun k => (getSensor s k).reading.map degrees)) with
  | some t => BitVec.ofInt 8 (rounded t)
  | none => Config.freeBits 8 (s.free + i)

/-- The snapshot (Table 12-18). -/
def snapshotBytes (s : State) : Bytes :=
  let region := fun (r : Nat) => BitVec.ofNat 8 (b2n (getRegion s r).enabled + 2 * b2n (getRegion s r).inReset
    + 4 * b2n (decide (0 < coresFenced s r)))
  let temps := (List.range 4).flatMap (fun p => [hottestByte s (64 * p) 64 (2 * p), hottestByte s (256 + 64 * p) 64 (2 * p + 1)])
  let dev := (s.errors.log.map (·.2)).filter (fun b => fieldAt b 2 1 % 4 == 3)
  padTo 0x100 (toBytes 4 (pciReady s) ++ (List.range 6).flatMap (fun d => toBytes 4 (strapsReg s d)) ++ (List.range 16).map region
    ++ temps ++ toBytes 4 (shown 32 s.power.packagePower) ++ toBytes 4 s.errors.logNext.toNat ++ toBytes 4 s.errors.fatalCount
    ++ (dev.drop (dev.length - 6)).flatten)

/-- RSC_SNAPSHOT. -/
def rscSnapshot (m : Nat) (s : State) : State :=
  runRescue s m 0xF001 (fun _ =>
    rescueAnswer { s with free := s.free + 8 } m stOk (toBytes 4 0x100) (snapshotBytes s))

/-- RSC_ERRLOG_READ. -/
def rscErrlogRead (m : Nat) (s : State) : State :=
  runRescue s m 0xF002 (fun k =>
    let count := argAt k 0x14 4
    let l := logRange s (argAt k 0x10 4) count
    if count = 0 ∨ 120 < count then rescueFail s m stBadPacket
    else rescueAnswer s m stOk (logResult s l) l.flatten)

/-- RSC_TELEM_READ. -/
def rscTelemRead (m : Nat) (s : State) : State :=
  runRescue s m 0xF003 (fun k =>
    let mask := argAt k 0x10 4
    let b := telemRecord s mask
    if 256 ≤ mask ∨ 3840 < b.length then rescueFail s m stBadPacket
    else rescueAnswer (nextTelem s) m stOk (toBytes 4 b.length) b)

/-- RSC_REGION_RESET: it replies when the region reset has completed. -/
def rscRegionReset (m : Nat) (s : State) : State :=
  runRescue s m 0xF004 (fun k =>
    let r := argAt k 0x10 4
    if s.resets.any (fun o => o.mailbox == some m) then s
    else if 16 ≤ r then rescueFail s m stBadPacket
    else if regionRefusal s r ≠ stOk then rescueFail s m (regionRefusal s r)
    else orderReset s { scope := .region, unit := r, cause := .rescue, mailbox := some m })

/-- RSC_WARM_RESET: it replies, then a device warm reset starts. -/
def rscWarmReset (m : Nat) (s : State) : State :=
  runRescue s m 0xF005 (fun _ => orderReset (rescueAnswer s m stOk [] []) { scope := .warm, unit := 0, cause := .rescue })

/-- RSC_LINK_DISABLE. -/
def rscLinkDisable (m : Nat) (s : State) : State :=
  runRescue s m 0xF006 (fun k =>
    let l := argAt k 0x10 4
    if 16 ≤ l then rescueFail s m stBadPacket else rescueAnswer (disableLink s l) m stOk [] [])

/-- RSC_THERMAL_STOP: the orderly stop begins and the reply follows; with HARD 1 the clock stop is ordered, and the reply
follows when the clocks have stopped. -/
def rscThermalStop (m : Nat) (s : State) : State :=
  runRescue s m 0xF007 (fun k =>
    if bitOf (argAt k 0x10 1) 0 then
      (if s.thermal.stop = 4 then rescueAnswer s m stOk [] [] else orderClockStop s 0xA)
    else rescueAnswer (beginStop s 9) m stOk [] [])

/-- RESCUE_REPLY_BUSY: 20 ms after GO; an operation already ordered goes on. -/
def rescueReplyBusy (m step : Nat) (s : State) : State :=
  if rescueServed s && s.rescueOrder.head? == some m && (getMailbox s m).busy then
    rescueFail { s with resets := s.resets.map (fun o => if o.mailbox = some m then { o with mailbox := none } else o) }
      m stBusy step
  else s

/-! ### The I3C target (R370, R526) -/

/-- Whether the target answers: it has power and its reference. -/
def i3cUp (s : State) : Bool := s.pins.pwrok && !s.pins.refclkLost

/-- Whether a private transfer is acknowledged. -/
def i3cPrivate (s : State) : Bool := i3cUp s && s.i3c.dynamic.isSome && rescueServed s

/-- Put bytes on the bus. -/
def i3cSend (s : State) (b : Bytes) : State := { s with i3c := { s.i3c with out := s.i3c.out ++ [b] } }

/-- I3C_PRIVATE_WRITE: a 2-byte offset, then data. -/
def i3cWrite (b : Bytes) (s : State) : State :=
  if !i3cPrivate s || decide (b.length < 2) then s
  else
    let off := fieldAt b 0 2
    let t := mailboxWrite 1 off (b.drop 2) s
    { t with i3c := { t.i3c with offset := off } }

/-- I3C_PRIVATE_READ: from the offset, which advances by 1 per byte. -/
def i3cRead (n : Nat) (s : State) : State :=
  if !i3cPrivate s then s
  else
    let byte := fun (i : Nat) => let o := (s.i3c.offset + i) % 65536; if o < 0x1000 then mailboxByte s 1 o else 0xFF
    let t := i3cSend s ((List.range n).map byte)
    { t with i3c := { t.i3c with offset := (s.i3c.offset + n) % 65536 } }

/-- The bytes that ENTDAA and GETPID send. -/
def pidBytes : Bytes := toBytes 6 Config.i3cPid.toNat

/-- ENTDAA: a target without a dynamic address sends its identity and takes the one given. -/
def entdaa (a : BitVec 7) (s : State) : State :=
  if !i3cUp s || s.i3c.dynamic.isSome then s
  else
    let t := i3cSend s (pidBytes ++ [Config.i3cBcr, Config.i3cDcr])
    { t with i3c := { t.i3c with dynamic := some a } }

/-- The static address (spec/18, Table of straps). -/
def i3cStatic (s : State) : Nat := 0x2C + s.pins.straps.i3cAddr.toNat

/-- SETDASA. -/
def setdasa (static dynamic : BitVec 7) (s : State) : State :=
  if i3cUp s && s.i3c.dynamic.isNone && static.toNat == i3cStatic s then { s with i3c := { s.i3c with dynamic := some dynamic } } else s

/-- RSTDAA. -/
def rstdaa (s : State) : State := if i3cUp s then { s with i3c := { s.i3c with dynamic := none } } else s

/-- ENEC and DISEC. -/
def setEvents (on : Bool) (e : Byte) (s : State) : State :=
  if i3cUp s then { s with i3c := { s.i3c with events := if on then s.i3c.events ||| e else s.i3c.events &&& ~~~ e } } else s

/-- A directed read CCC: a target with a dynamic address answers it. -/
def i3cGet (b : Bytes) (s : State) : State := if i3cUp s && s.i3c.dynamic.isSome then i3cSend s b else s

/-! ### The rows of the table -/

/-- ERRLOG_READ. -/
def execErrlogRead (p : Nat) (s : State) : Host.Outcome State Fault Refusal := .next (errlogRead p s)

/-- TRAFFIC_GEN. -/
def execTrafficGen (p : Nat) (s : State) : Host.Outcome State Fault Refusal := .next (trafficGen p s)

/-- RSC_SNAPSHOT. -/
def execRscSnapshot (m : Nat) (s : State) : Host.Outcome State Fault Refusal := .next (rscSnapshot m s)

/-- RSC_ERRLOG_READ. -/
def execRscErrlogRead (m : Nat) (s : State) : Host.Outcome State Fault Refusal := .next (rscErrlogRead m s)

/-- RSC_TELEM_READ. -/
def execRscTelemRead (m : Nat) (s : State) : Host.Outcome State Fault Refusal := .next (rscTelemRead m s)

/-- RSC_REGION_RESET. -/
def execRscRegionReset (m : Nat) (s : State) : Host.Outcome State Fault Refusal := .next (rscRegionReset m s)

/-- RSC_WARM_RESET. -/
def execRscWarmReset (m : Nat) (s : State) : Host.Outcome State Fault Refusal := .next (rscWarmReset m s)

/-- RSC_LINK_DISABLE. -/
def execRscLinkDisable (m : Nat) (s : State) : Host.Outcome State Fault Refusal := .next (rscLinkDisable m s)

/-- RSC_THERMAL_STOP. -/
def execRscThermalStop (m : Nat) (s : State) : Host.Outcome State Fault Refusal := .next (rscThermalStop m s)

/-- RESCUE_REPLY_BUSY. -/
def execRescueReplyBusy (m step : Nat) (s : State) : Host.Outcome State Fault Refusal := .next (rescueReplyBusy m step s)

/-- I3C_PRIVATE_WRITE. -/
def execI3cPrivateWrite (bytes : Bytes) (s : State) : Host.Outcome State Fault Refusal := .next (i3cWrite bytes s)

/-- I3C_PRIVATE_READ. -/
def execI3cPrivateRead (count : Nat) (s : State) : Host.Outcome State Fault Refusal := .next (i3cRead count s)

/-- ENTDAA. -/
def execEntdaa (address : BitVec 7) (s : State) : Host.Outcome State Fault Refusal := .next (entdaa address s)

/-- SETDASA. -/
def execSetdasa (static dynamic : BitVec 7) (s : State) : Host.Outcome State Fault Refusal := .next (setdasa static dynamic s)

/-- RSTDAA. -/
def execRstdaa (s : State) : Host.Outcome State Fault Refusal := .next (rstdaa s)

/-- ENEC. -/
def execEnec (events : Byte) (s : State) : Host.Outcome State Fault Refusal := .next (setEvents true events s)

/-- DISEC. -/
def execDisec (events : Byte) (s : State) : Host.Outcome State Fault Refusal := .next (setEvents false events s)

/-- GETPID. -/
def execGetpid (s : State) : Host.Outcome State Fault Refusal := .next (i3cGet pidBytes s)

/-- GETBCR. -/
def execGetbcr (s : State) : Host.Outcome State Fault Refusal := .next (i3cGet [Config.i3cBcr] s)

/-- GETDCR. -/
def execGetdcr (s : State) : Host.Outcome State Fault Refusal := .next (i3cGet [Config.i3cDcr] s)

/-- GETSTATUS. -/
def execGetstatus (s : State) : Host.Outcome State Fault Refusal := .next (i3cGet (toBytes 2 Config.i3cStatus.toNat) s)

end Sys2Proof.Machine
end

