-- ==== Sys2Proof/Machine/Reweave.lean ====
section
/-!
DEFINITION. Re-weave (spec/16_bring_up.md R490 to R492, Table 16-14): REWEAVE_ITEM starts one, moves one frame or one model slot,
marks the journal, or ends it.
-/
namespace Sys2Proof.Machine

/-- Whether re-weave items run: the device is ready and no stop holds them (R492, R493). -/
def reweaveOpen (s : State) : Bool := managerUp s && s.pcie.ready && s.thermal.stop == 0

/-- The blocks of a range that are poisoned. -/
def poisonedIn (s : State) (a n : Nat) : List Nat := (blocksOf a n).filter (fun b => (tagOf s.mem b).poison)

/-! ### Frames (step 2) -/

/-- A near frame that a swatch frame may take: its own channel and bank first (R295), then any. -/
def swatchTarget (s : State) (core page : Nat) : Option Nat :=
  if !sliceUsable s core then none
  else ((firstThat (nearFree s core (page % 8) (page / 8 % 16)) (List.range 32)).map (fun k =>
    nearFn core (page % 8) (page / 8 % 16) k)).orElse (fun _ => (freeNear s core).head?)

/-- Where a frame goes: free near, free far, then a frame freed by dropping, never on the layer that is emptied. -/
def moveTarget (s : State) (f : Frame) (core : Nat) : Option (Nat × State) :=
  if f.kind = 1 then (swatchTarget s core f.page).map (fun n => (n, s))
  else match (freeNear s core).head?.orElse (fun _ => (freeFar s (regionOfCore core) 1).head?) with
    | some n => some (n, s)
    | none =>
      match (dropOrder s f.owner (regionOfCore core) [core]).filter (fun n =>
        bitOf n 25 || !layerAvoided s (n / 4096 / 2048) (n / 512 % 8)) with
      | [] => none
      | n :: _ => some (n, dropFrame s n)

/-- Move a frame: copy it, repoint every entry, free the old frame. A page whose source showed an error is lost (R284). -/
def moveFrame (s : State) (finds : Findings) (fn new : Nat) : State :=
  let before := (poisonedIn s (frameAddr fn) 16384).length
  let s1 := copyFrame s finds fn new
  let hurt := decide (before < (poisonedIn s1 (frameAddr fn) 16384).length)
  let f := frameOf s1 fn
  let s2 := (refKeys s1 fn).foldl (fun t k => modPte t k (fun x => { x with fn := new })) s1
  let s3 := modFrame s2 new (fun _ => f)
  let s4 := if bitOf new 25 then
      modRegion s3 (frameRegion new) (fun r => { r with pool := allocInsert r.pool (bitsOf new 20 0 * 16384) 16384 })
    else s3
  let s5 := freeFrame s4 fn
  if hurt then settle (absentFrame s5 new true) new else s5

/-- Whether a frame lies on the layer that is emptied. -/
def onLayer (pos layer fn : Nat) : Bool := !bitOf fn 25 && fn / 4096 / 2048 == pos && fn / 512 % 8 == layer

/-- Count one item. -/
def countItem (s : State) : State :=
  { s with boot := { s.boot with reweave := s.boot.reweave.map (fun w => (w.1, w.2.1, w.2.2 + 1)) } }

/-- Step 2 for one frame: it waits while a gather holds it or its region is in reset. -/
def reweaveFrame (s : State) (pos layer fn : Nat) (finds : Findings) : State :=
  let f := frameOf s fn
  let core := fn / 4096
  if !f.allocated || !onLayer pos layer fn || f.gpins != 0 || (getRegion s (regionOfCore core)).inReset
      || accessWaits s (frameAddr fn) 16384 then s
  else match moveTarget s f core with
    | none => s
    | some (new, t) => if accessWaits t (frameAddr new) 16384 then s else countItem (moveFrame t finds fn new)

/-! ### Model slots (step 3) -/

/-- Copy a placed tile block by block. -/
def moveTile (finds : Findings) (s : State) (old new len : Nat) : State :=
  (List.range (ceilDiv len 256)).foldl (fun t i =>
    let r := readBlock t finds (old / 256 + i)
    putBlock r.1 (new / 256 + i) r.2.data r.2.restarted r.2.poison) s

/-- Page tables of a pair move to the page service that serves it now. -/
def moveTables (s : State) (seq region : Nat) (pair : Nat × Nat) : State :=
  let key := pairKey seq pair.1 pair.2
  let again := fun (t : State) (a : Nat) => (ptAlloc (ptFree t a) region 4096)
  let s1 := match tget s.dirs key with
    | 0 => s
    | a => match again s a with
      | some (b, t) => { t with dirs := tset t.dirs key b }
      | none => s
  (s1.leaves.filter (fun e => e.1 * 512 / 2097152 == key)).foldl (fun t e =>
    match again t e.2 with
    | some (b, u) => { u with leaves := tset u.leaves e.1 b }
    | none => t) s1

/-- One frame of a slot follows its pair's home core; one for which no frame is found is lost. -/
def followCore (finds : Findings) (old new : ModelSlot) (s : State) (fn : Nat) : State :=
  let f := frameOf s fn
  match homeCore old f.layer f.hgroup, homeCore new f.layer f.hgroup with
  | some a, some b =>
    if a = b ∨ (bitOf fn 25 = true ∧ regionOfCore a = regionOfCore b) then s
    else match moveTarget s f b with
      | some (n, t) => moveFrame t finds fn n
      | none => settle (absentFrame s fn true) fn
  | _, _ => s

/-- A privileged sequence's reservation follows its pairs (R285). -/
def followReservation (new : ModelSlot) (s : State) (seq : Nat) : State :=
  let e := getSeq s seq
  if !e.privileged then s
  else
    let held := fun (c : Nat) =>
      ((seqKeys s seq).filter (fun k => !pteSwatch k && homeCore new (pteLayer k) (pteHgroup k) == some c
          && ((getPte s k).state == .present || (getPte s k).state == .recomputing))).length
    let cores := ((usedPairs new).filterMap (fun q => homeCore new q.1 q.2)).eraseDups
    modSeq s seq (fun x => { x with reservations := cores.foldl (fun t c =>
      tset t c (reserveNeed new e.maxLength c - held c)) [] })

/-- Switch a slot to its new weave: tiles copied, programs relocated, page tables and frames moved. -/
def switchWeave (s : State) (finds : Findings) (n : Nat) (old new : ModelSlot) : State :=
  let pairs := List.zip old.tiles new.tiles
  let addrOf := fun (t : PlacedTile) => t.core * 0x4000000 + t.layer * 0x800000 + t.bank * 0x80000 + t.row * 1024
  let near := pairs.filter (fun e => e.1.kind != 3)
  let bad := fun (t : State) => sumOf (near.map (fun e => (poisonedIn t (addrOf e.1) e.1.length).length))
  let s1 := near.foldl (fun t e => moveTile finds t (addrOf e.1) (addrOf e.2) e.1.length) s
  let s2 := writePrograms s1 finds new
  let s3 := (weaveCores old).foldl (fun t c => modCore t c (fun x => { x with
    queue := x.queue.filter (fun h => h.slot != n), program := x.program.filter (fun h => h.slot != n) })) (modSlot s2 n (fun _ => new))
  let moved := (usedPairs old).filter (fun q => pairService old q.1 q.2 != pairService new q.1 q.2)
  let qs := openSeqs s3 n
  let s4 := qs.foldl (fun t q => moved.foldl (fun u p => moveTables u q (pairService new p.1 p.2) p) t) s3
  let frames := (s4.frames.filter (fun e => e.2.allocated && e.2.modelSlot == n)).map (fun e =>
    indexFn (e.1 / 4194304) (e.1 % 4194304))
  let s5 := frames.foldl (followCore finds old new) s4
  let s6 := qs.foldl (followReservation new) s5
  if bad s < bad s1 then reloadSlot s6 n else s6

/-- Step 3 for one slot: on blocks of other stacks that the region controllers choose; a slot that fits nowhere becomes
RELOAD. It waits for its running step-batches and for regions in reset. -/
def reweaveSlot (s : State) (pos layer n : Nat) (blocks : List Nat) (finds : Findings) : State :=
  let sl := getSlot s n
  let want := sl.weave.length
  let open_ := (eligibleBlocks s sl 0).filter (fun b => b / 32 != pos)
  if sl.phase ≠ .placed ∨ ¬ sl.tiles.any (fun t => t.kind != 3 && dieOfCore t.core == pos && t.layer == layer) = true then s
  else if s.batches.any (fun b => b.slot == n && b.running) || weaveInReset s sl.weave || weaveInReset s blocks then s
  else if open_.length < want then countItem (reloadSlot s n)
  else if blocks.length ≠ want ∨ blocks.eraseDups.length ≠ want ∨ ¬ blocks.all open_.contains = true then s
  else
    let sl1 : ModelSlot := { sl with weave := blocks }
    if (placeDegraded s sl1 false).isSome then countItem (reloadSlot s n)
    else match chooseRowBase s sl1 with
      | none => countItem (reloadSlot s n)
      | some rb =>
        let sl2 : ModelSlot := { sl1 with rowBase := rb }
        match relocateAll sl2 sl2.knotBase (fun _ => true) with
        | none => countItem (reloadSlot s n)
        | some progs =>
          let sl3 : ModelSlot := { sl2 with programs := progs, tiles := (slotTiles sl2).map (placedTile sl2) }
          let waits := fun (x : ModelSlot) => (slotTiles x).any (fun t => accessWaits s (tileAddr x t) t.length)
          if waits sl || waits sl3 then s else countItem (switchWeave s finds n sl sl3)

/-! ### Start, mark and end -/

/-- Whether nothing on the layer can still be moved: no placed slot with a tile there, and only frames that no gather holds
and for which no place is found. -/
def layerEmptied (s : State) (pos layer : Nat) : Bool :=
  s.slots.all (fun e => e.2.phase != .placed || !e.2.tiles.any (fun t => t.kind != 3 && dieOfCore t.core == pos && t.layer == layer))
    && s.frames.all (fun e =>
      let fn := indexFn (e.1 / 4194304) (e.1 % 4194304)
      !e.2.allocated || !onLayer pos layer fn || (e.2.gpins == 0 && (moveTarget s e.2 (fn / 4096)).isNone))

/-- Step 5: LAYER_OUT, then REWEAVE_END, the record and the report; what found no place is lost. -/
def reweaveEnd (s : State) (pos layer : Nat) : State :=
  let s1 := queueDarn (queueDarn s (darnEntry 6 4 (pos + layer * 4))) (darnEntry 0xD 4 (pos + layer * 4))
  let s2 := undegrade (layerFlags { s1 with boot := { s1.boot with reweave := none } } pos layer) 22 none
  layerContents (record s2 { code := 0x0207, level := 2, cls := .contained, kind := 7, unit := 0
                             addr := unitAddr 11 (pos * 8 + layer), status := stDegraded }) pos layer

/-- REWEAVE_ITEM. -/
def reweaveItem (item : ReweaveItem) (s : State) : State :=
  if !reweaveOpen s then s
  else match item, s.boot.reweave with
    | .start pos layer, none => if pos < 4 ∧ layer < 8 then maybeReweave s pos layer else s
    | .frame region index finds, some (pos, layer, _) => reweaveFrame s pos layer (indexFn region index) finds
    | .slot n blocks finds, some (pos, layer, _) => if n < 1024 then reweaveSlot s pos layer n blocks finds else s
    | .mark items, some (pos, layer, done) =>
      if items = done then queueDarn s (darnEntry 0xC 4 (pos + layer * 4 + items % 16777216 * 256)) else s
    | .finish, some (pos, layer, _) => if layerEmptied s pos layer then reweaveEnd s pos layer else s
    | _, _ => s

/-! ### The rows of the table -/

/-- REWEAVE_ITEM. -/
def execReweaveItem (item : ReweaveItem) (s : State) : Host.Outcome State Fault Refusal := .next (reweaveItem item s)

end Sys2Proof.Machine
end

