-- ==== Sys2Proof/Machine/Dispatch.lean ====
section
/-!
DEFINITION. The dispatcher: one arm for each command of spec/opcode_table.json.
-/
namespace Sys2Proof.Machine

def exec (i : Instr) (s : State) : Host.Outcome State Fault Refusal :=
  match i with
  | .modelLoad p host finds => Sys2Proof.Machine.execModelLoad p host finds s
  | .modelPlace p host finds blocks => Sys2Proof.Machine.execModelPlace p host finds blocks s
  | .modelEvict p => Sys2Proof.Machine.execModelEvict p s
  | .modelQuery p => Sys2Proof.Machine.execModelQuery p s
  | .seqOpen p => Sys2Proof.Machine.execSeqOpen p s
  | .seqPrefill p => Sys2Proof.Machine.execSeqPrefill p s
  | .seqStep p => Sys2Proof.Machine.execSeqStep p s
  | .seqFork p => Sys2Proof.Machine.execSeqFork p s
  | .seqPark p => Sys2Proof.Machine.execSeqPark p s
  | .seqResume p => Sys2Proof.Machine.execSeqResume p s
  | .seqClose p => Sys2Proof.Machine.execSeqClose p s
  | .seqQuery p => Sys2Proof.Machine.execSeqQuery p s
  | .pagePin p => Sys2Proof.Machine.execPagePin p s
  | .pageUnpin p => Sys2Proof.Machine.execPageUnpin p s
  | .pageDrop p => Sys2Proof.Machine.execPageDrop p s
  | .pageStats p => Sys2Proof.Machine.execPageStats p s
  | .memRead p finds => Sys2Proof.Machine.execMemRead p finds s
  | .memWrite p host finds => Sys2Proof.Machine.execMemWrite p host finds s
  | .memFill p finds => Sys2Proof.Machine.execMemFill p finds s
  | .memCopy p host finds => Sys2Proof.Machine.execMemCopy p host finds s
  | .knotSet p => Sys2Proof.Machine.execKnotSet p s
  | .knotAdd p => Sys2Proof.Machine.execKnotAdd p s
  | .knotWait p => Sys2Proof.Machine.execKnotWait p s
  | .knotWaitTimeout p => Sys2Proof.Machine.execKnotWaitTimeout p s
  | .knotQuery p => Sys2Proof.Machine.execKnotQuery p s
  | .collDefine p => Sys2Proof.Machine.execCollDefine p s
  | .collStart p => Sys2Proof.Machine.execCollStart p s
  | .checkRun p host finds => Sys2Proof.Machine.execCheckRun p host finds s
  | .telemRead p => Sys2Proof.Machine.execTelemRead p s
  | .telemStream p => Sys2Proof.Machine.execTelemStream p s
  | .telemStreamPeriod => Sys2Proof.Machine.execTelemStreamPeriod s
  | .powerCapSet p => Sys2Proof.Machine.execPowerCapSet p s
  | .powerQuery p => Sys2Proof.Machine.execPowerQuery p s
  | .thermalStop p => Sys2Proof.Machine.execThermalStop p s
  | .licenceInstall p host => Sys2Proof.Machine.execLicenceInstall p host s
  | .fwStage p host => Sys2Proof.Machine.execFwStage p host s
  | .fwActivate p => Sys2Proof.Machine.execFwActivate p s
  | .attest p => Sys2Proof.Machine.execAttest p s
  | .topologySet p host => Sys2Proof.Machine.execTopologySet p host s
  | .roleSet p => Sys2Proof.Machine.execRoleSet p s
  | .reset p => Sys2Proof.Machine.execReset p s
  | .abort p => Sys2Proof.Machine.execAbort p s
  | .errlogRead p => Sys2Proof.Machine.execErrlogRead p s
  | .fenceUnit p => Sys2Proof.Machine.execFenceUnit p s
  | .trafficGen p => Sys2Proof.Machine.execTrafficGen p s
  | .linkTest p errors lanesFailing => Sys2Proof.Machine.execLinkTest p errors lanesFailing s
  | .rscSnapshot m => Sys2Proof.Machine.execRscSnapshot m s
  | .rscErrlogRead m => Sys2Proof.Machine.execRscErrlogRead m s
  | .rscTelemRead m => Sys2Proof.Machine.execRscTelemRead m s
  | .rscRegionReset m => Sys2Proof.Machine.execRscRegionReset m s
  | .rscWarmReset m => Sys2Proof.Machine.execRscWarmReset m s
  | .rscLinkDisable m => Sys2Proof.Machine.execRscLinkDisable m s
  | .rscThermalStop m => Sys2Proof.Machine.execRscThermalStop m s
  | .rescueGo m => Sys2Proof.Machine.execRescueGo m s
  | .sqTail q value => Sys2Proof.Machine.execSqTail q value s
  | .cqHead q value => Sys2Proof.Machine.execCqHead q value s
  | .packetFetch q host => Sys2Proof.Machine.execPacketFetch q host s
  | .replyWrite p => Sys2Proof.Machine.execReplyWrite p s
  | .cqCoalesceTimer q => Sys2Proof.Machine.execCqCoalesceTimer q s
  | .sqEnable q value => Sys2Proof.Machine.execSqEnable q value s
  | .sqDisable q => Sys2Proof.Machine.execSqDisable q s
  | .cqEnable q value => Sys2Proof.Machine.execCqEnable q value s
  | .cqDisable q => Sys2Proof.Machine.execCqDisable q s
  | .registerWrite reg size value => Sys2Proof.Machine.execRegisterWrite reg size value s
  | .rcRegisterRead reg size => Sys2Proof.Machine.execRcRegisterRead reg s size
  | .controlApertureAccess offset size write => Sys2Proof.Machine.execControlApertureAccess offset size write s
  | .bar2Read offset length finds => Sys2Proof.Machine.execBar2Read offset length finds s
  | .bar2Write offset bytes finds => Sys2Proof.Machine.execBar2Write offset bytes finds s
  | .hubErrHead value => Sys2Proof.Machine.execHubErrHead value s
  | .hubTlmHead value => Sys2Proof.Machine.execHubTlmHead value s
  | .chkStart n value => Sys2Proof.Machine.execChkStart n value s
  | .chkCtrlWrite n value => Sys2Proof.Machine.execChkCtrlWrite n value s
  | .chkDataWrite n offset bytes => Sys2Proof.Machine.execChkDataWrite n offset bytes s
  | .chkResultRead n high => Sys2Proof.Machine.execChkResultRead n high s
  | .chkOwnerWrite n value => Sys2Proof.Machine.execChkOwnerWrite n value s
  | .tgStart ch value => Sys2Proof.Machine.execTgStart ch value s
  | .tgStop ch => Sys2Proof.Machine.execTgStop ch s
  | .tgRunEnd ch result finds => Sys2Proof.Machine.execTgRunEnd ch result s finds
  | .farTgStart pc value => Sys2Proof.Machine.execFarTgStart pc value s
  | .farTgStop pc => Sys2Proof.Machine.execFarTgStop pc s
  | .farTgRunEnd pc result finds => Sys2Proof.Machine.execFarTgRunEnd pc result s finds
  | .bootHostGo image => Sys2Proof.Machine.execBootHostGo image s
  | .i3cPrivateWrite bytes => Sys2Proof.Machine.execI3cPrivateWrite bytes s
  | .i3cPrivateRead count => Sys2Proof.Machine.execI3cPrivateRead count s
  | .entdaa address => Sys2Proof.Machine.execEntdaa address s
  | .setdasa static dynamic => Sys2Proof.Machine.execSetdasa static dynamic s
  | .rstdaa => Sys2Proof.Machine.execRstdaa s
  | .enec events => Sys2Proof.Machine.execEnec events s
  | .disec events => Sys2Proof.Machine.execDisec events s
  | .getpid => Sys2Proof.Machine.execGetpid s
  | .getbcr => Sys2Proof.Machine.execGetbcr s
  | .getdcr => Sys2Proof.Machine.execGetdcr s
  | .getstatus => Sys2Proof.Machine.execGetstatus s
  | .doeRequest r => Sys2Proof.Machine.execDoeRequest r s
  | .perst => Sys2Proof.Machine.execPerst s
  | .pcieHotReset => Sys2Proof.Machine.execPcieHotReset s
  | .functionLevelReset => Sys2Proof.Machine.execFunctionLevelReset s
  | .d3hotEntry d3hot => Sys2Proof.Machine.execD3hotEntry d3hot s
  | .d0Restore => Sys2Proof.Machine.execD0Restore s
  | .pcieLinkTrained speed width => Sys2Proof.Machine.execPcieLinkTrained speed width s
  | .pcieReadFailed p addr status => Sys2Proof.Machine.execPcieReadFailed p addr status s
  | .pwrokRise straps => Sys2Proof.Machine.execPwrokRise straps s
  | .pwrokFall => Sys2Proof.Machine.execPwrokFall s
  | .refclkLoss => Sys2Proof.Machine.execRefclkLoss s
  | .bringUpPhase1 => Sys2Proof.Machine.execBringUpPhase1 s
  | .bringUpPhase2 dies sides hubReadings => Sys2Proof.Machine.execBringUpPhase2 dies sides hubReadings s
  | .bringUpPhase3 ladders hbmStacks failedBanks failedPcs failedTsvChannels reweaveClean => Sys2Proof.Machine.execBringUpPhase3 ladders hbmStacks failedBanks failedPcs failedTsvChannels reweaveClean s
  | .bringUpPhase4 links => Sys2Proof.Machine.execBringUpPhase4 links s
  | .bringUpPhase5 failedCores => Sys2Proof.Machine.execBringUpPhase5 failedCores s
  | .licenceVerification => Sys2Proof.Machine.execLicenceVerification s
  | .bringupHoldEnd => Sys2Proof.Machine.execBringupHoldEnd s
  | .watchdogExpiry => Sys2Proof.Machine.execWatchdogExpiry s
  | .coreSelfFence core => Sys2Proof.Machine.execCoreSelfFence core s
  | .blockHeartbeatMiss block => Sys2Proof.Machine.execBlockHeartbeatMiss block s
  | .regionHeartbeatMiss region => Sys2Proof.Machine.execRegionHeartbeatMiss region s
  | .deviceFatalResetTimer => Sys2Proof.Machine.execDeviceFatalResetTimer s
  | .coreReset core cause => Sys2Proof.Machine.execCoreReset core cause s
  | .blockReset block cause => Sys2Proof.Machine.execBlockReset block cause s
  | .regionReset region cause => Sys2Proof.Machine.execRegionReset region cause s
  | .mLayerReset pos layer => Sys2Proof.Machine.execMLayerReset pos layer s
  | .cDieReset pos => Sys2Proof.Machine.execCDieReset pos s
  | .deviceWarmReset cause => Sys2Proof.Machine.execDeviceWarmReset cause s
  | .deviceColdReset cause => Sys2Proof.Machine.execDeviceColdReset cause s
  | .resetBoundMiss scope unit => Sys2Proof.Machine.execResetBoundMiss scope unit s
  | .errorVectorTimer => Sys2Proof.Machine.execErrorVectorTimer s
  | .capacityReportUpdate => Sys2Proof.Machine.execCapacityReportUpdate s
  | .darnAppend => Sys2Proof.Machine.execDarnAppend s
  | .memoryRead issuer addr length finds => Sys2Proof.Machine.execMemoryRead issuer addr length finds s
  | .memoryWrite issuer addr bytes restarted finds => Sys2Proof.Machine.execMemoryWrite issuer addr bytes restarted finds s
  | .farCorrectionWriteback pc => Sys2Proof.Machine.execFarCorrectionWriteback pc s
  | .wbReweight port => Sys2Proof.Machine.execWbReweight port s
  | .refreshDue ch bank postpone => Sys2Proof.Machine.execRefreshDue ch bank s postpone
  | .scrubRead ch bank row finds => Sys2Proof.Machine.execScrubRead ch bank row finds s
  | .powerSample r => Sys2Proof.Machine.execPowerSample r s
  | .bandFall pos layer => Sys2Proof.Machine.execBandFall pos layer s
  | .throttleFall stack => Sys2Proof.Machine.execThrottleFall stack s
  | .stackReadoutMissing stack => Sys2Proof.Machine.execStackReadoutMissing stack s
  | .telemMissHold pos => Sys2Proof.Machine.execTelemMissHold pos s
  | .telemLost pos => Sys2Proof.Machine.execTelemLost pos s
  | .sensorNoReading sensor => Sys2Proof.Machine.execSensorNoReading sensor s
  | .sensorFaultDecision a b => Sys2Proof.Machine.execSensorFaultDecision a b s
  | .sensorSuspectClear sensor => Sys2Proof.Machine.execSensorSuspectClear sensor s
  | .sensorSuspectFaulty sensor => Sys2Proof.Machine.execSensorSuspectFaulty sensor s
  | .inletHot => Sys2Proof.Machine.execInletHot s
  | .rungRise region => Sys2Proof.Machine.execRungRise region s
  | .clockStepDown => Sys2Proof.Machine.execClockStepDown s
  | .clockStepUp => Sys2Proof.Machine.execClockStepUp s
  | .stepUpVoltageConfirmed => Sys2Proof.Machine.execStepUpVoltageConfirmed s
  | .stepUpAbandon => Sys2Proof.Machine.execStepUpAbandon s
  | .orderlyStop => Sys2Proof.Machine.execOrderlyStop s
  | .clockStop => Sys2Proof.Machine.execClockStop s
  | .cDieTrip pos => Sys2Proof.Machine.execCDieTrip pos s
  | .mLayerTrip pos layer => Sys2Proof.Machine.execMLayerTrip pos layer s
  | .hubTrip => Sys2Proof.Machine.execHubTrip s
  | .programStart core => Sys2Proof.Machine.execProgramStart core s
  | .weaveSwitch slot => Sys2Proof.Machine.execWeaveSwitch slot s
  | .descriptorDispatch core finds => Sys2Proof.Machine.execDescriptorDispatch core s finds
  | .descriptorIssue core e => Sys2Proof.Machine.execDescriptorIssue core e s
  | .descriptorComplete core e index => Sys2Proof.Machine.execDescriptorComplete core e index s
  | .programAbort core => Sys2Proof.Machine.execProgramAbort core s
  | .arrayMm core finds badTableEntry => Sys2Proof.Machine.execArrayMm core finds badTableEntry s
  | .arrayDrain core => Sys2Proof.Machine.execArrayDrain core s
  | .drainColumnWrite core column frozen apart => Sys2Proof.Machine.execDrainColumnWrite core column s frozen apart
  | .coreStoreReadReturn core link lateBeats correctedWord apart => Sys2Proof.Machine.execCoreStoreReadReturn core link lateBeats correctedWord s apart
  | .fma core finds => Sys2Proof.Machine.execFma core finds s
  | .vecAdd core finds => Sys2Proof.Machine.execVecAdd core finds s
  | .sub core finds => Sys2Proof.Machine.execSub core finds s
  | .vecMul core finds => Sys2Proof.Machine.execVecMul core finds s
  | .min core finds => Sys2Proof.Machine.execMin core finds s
  | .vecMax core finds => Sys2Proof.Machine.execVecMax core finds s
  | .exp core finds => Sys2Proof.Machine.execExp core finds s
  | .rcp core finds => Sys2Proof.Machine.execRcp core finds s
  | .rsqrt core finds => Sys2Proof.Machine.execRsqrt core finds s
  | .silu core finds => Sys2Proof.Machine.execSilu core finds s
  | .gelu core finds => Sys2Proof.Machine.execGelu core finds s
  | .reduceSum core finds => Sys2Proof.Machine.execReduceSum core finds s
  | .reduceMax core finds => Sys2Proof.Machine.execReduceMax core finds s
  | .softmax core finds => Sys2Proof.Machine.execSoftmax core finds s
  | .rmsnorm core finds => Sys2Proof.Machine.execRmsnorm core finds s
  | .layernorm core finds => Sys2Proof.Machine.execLayernorm core finds s
  | .convert core finds => Sys2Proof.Machine.execConvert core finds s
  | .split core finds => Sys2Proof.Machine.execSplit core finds s
  | .topk core finds => Sys2Proof.Machine.execTopk core finds s
  | .move core finds => Sys2Proof.Machine.execMove core finds s
  | .attnGather core finds => Sys2Proof.Machine.execAttnGather core finds s
  | .bobbinSeq core => Sys2Proof.Machine.execBobbinSeq core s
  | .swatchScore core finds => Sys2Proof.Machine.execSwatchScore core finds s
  | .knotArrive core => Sys2Proof.Machine.execKnotArrive core s
  | .descKnotWait core => Sys2Proof.Machine.execDescKnotWait core s
  | .loop core finds => Sys2Proof.Machine.execLoop core s finds
  | .halt core finds => Sys2Proof.Machine.execHalt core s finds
  | .admissionGrant region finds => Sys2Proof.Machine.execAdmissionGrant region finds s
  | .processorModeExit ch finds => Sys2Proof.Machine.execProcessorModeExit ch s finds
  | .rmsnBarrierRelease ch => Sys2Proof.Machine.execRmsnBarrierRelease ch s
  | .nop ch slot => Sys2Proof.Machine.execNop ch slot s
  | .endRun ch slot => Sys2Proof.Machine.execEndRun ch slot s
  | .uopLoop ch slot => Sys2Proof.Machine.execUopLoop ch slot s
  | .setp ch slot => Sys2Proof.Machine.execSetp ch slot s
  | .ldv ch slot finds => Sys2Proof.Machine.execLdv ch slot finds s
  | .clr ch slot => Sys2Proof.Machine.execClr ch slot s
  | .mac ch slot finds steps => Sys2Proof.Machine.execMac ch slot finds s steps
  | .macw ch slot finds steps => Sys2Proof.Machine.execMacw ch slot finds s steps
  | .scl ch slot finds => Sys2Proof.Machine.execScl ch slot finds s
  | .uopAdd ch slot finds => Sys2Proof.Machine.execUopAdd ch slot finds s
  | .mul ch slot finds => Sys2Proof.Machine.execMul ch slot finds s
  | .max ch slot finds => Sys2Proof.Machine.execMax ch slot finds s
  | .wb16 ch slot => Sys2Proof.Machine.execWb16 ch slot s
  | .wb32 ch slot => Sys2Proof.Machine.execWb32 ch slot s
  | .expt ch slot => Sys2Proof.Machine.execExpt ch slot s
  | .rsq ch slot => Sys2Proof.Machine.execRsq ch slot s
  | .sumsq ch slot finds steps => Sys2Proof.Machine.execSumsq ch slot finds s steps
  | .eadd ch slot finds steps => Sys2Proof.Machine.execEadd ch slot finds s steps
  | .emul ch slot finds steps => Sys2Proof.Machine.execEmul ch slot finds s steps
  | .rmsn ch slot finds steps => Sys2Proof.Machine.execRmsn ch slot finds s steps
  | .arrive issuer knot count lagging => Sys2Proof.Machine.execArrive issuer knot count lagging s
  | .wait issuer knot target => Sys2Proof.Machine.execWait issuer knot target s
  | .waitRetry issuer knot => Sys2Proof.Machine.execWaitRetry issuer knot s
  | .set issuer knot value => Sys2Proof.Machine.execSet issuer knot value s
  | .add issuer knot delta => Sys2Proof.Machine.execAdd issuer knot delta s
  | .query issuer knot => Sys2Proof.Machine.execQuery issuer knot s
  | .collReduce coll order finds => Sys2Proof.Machine.execCollReduce coll order finds s
  | .collPeerReduce coll peer finds => Sys2Proof.Machine.execCollPeerReduce coll peer finds s
  | .stepBatchBuild slot host finds => Sys2Proof.Machine.execStepBatchBuild slot host finds s
  | .stepBatchStart slot => Sys2Proof.Machine.execStepBatchStart slot s
  | .stepBatchCommit slot finds => Sys2Proof.Machine.execStepBatchCommit slot finds s
  | .gatherPin seq layer hgroup page => Sys2Proof.Machine.execGatherPin seq layer hgroup page s
  | .gatherUnpin region frame => Sys2Proof.Machine.execGatherUnpin region frame s
  | .pageWrite seq layer hgroup page offset bytes => Sys2Proof.Machine.execPageWrite seq layer hgroup page offset bytes s
  | .pageRelease seq layer hgroup page => Sys2Proof.Machine.execPageRelease seq layer hgroup page s
  | .rootEntryRequest region seq layer hgroup => Sys2Proof.Machine.execRootEntryRequest region seq layer hgroup s
  | .frameLossWalk region frame => Sys2Proof.Machine.execFrameLossWalk region frame s
  | .poisonPageDrop region frame => Sys2Proof.Machine.execPoisonPageDrop region frame s
  | .reweaveItem item => Sys2Proof.Machine.execReweaveItem item s
  | .weftFrame link codewords => Sys2Proof.Machine.execWeftFrame link codewords s
  | .weftDataFlit link flit => Sys2Proof.Machine.execWeftDataFlit link flit s
  | .weftAckTimer link => Sys2Proof.Machine.execWeftAckTimer link s
  | .weftResendTimeout link => Sys2Proof.Machine.execWeftResendTimeout link s
  | .linkRetrain link lanes => Sys2Proof.Machine.execLinkRetrain link lanes s
  | .identityFlit link identity => Sys2Proof.Machine.execIdentityFlit link identity s
  | .packet link => Sys2Proof.Machine.execPacket link s
  | .reply link => Sys2Proof.Machine.execReply link s
  | .write link => Sys2Proof.Machine.execWrite link s
  | .wack link => Sys2Proof.Machine.execWack link s
  | .notice link => Sys2Proof.Machine.execNotice link s
  | .replyAck link => Sys2Proof.Machine.execReplyAck link s
  | .transitForward link => Sys2Proof.Machine.execTransitForward link s
  | .bcastTimeout index child => Sys2Proof.Machine.execBcastTimeout index child s
  | .wackTimeout token => Sys2Proof.Machine.execWackTimeout token s
  | .remoteReplyTimeout pktNum => Sys2Proof.Machine.execRemoteReplyTimeout pktNum s
  | .orderedGapTimeout => Sys2Proof.Machine.execOrderedGapTimeout s
  | .replyResendTimer pktNum => Sys2Proof.Machine.execReplyResendTimer pktNum s
  | .liveNoticeTimer => Sys2Proof.Machine.execLiveNoticeTimer s
  | .liveMissingTimeout worker => Sys2Proof.Machine.execLiveMissingTimeout worker s
  | .vcStallTimeout link vc => Sys2Proof.Machine.execVcStallTimeout link vc s
  | .ewDataFlit port module atHub flit badLane => Sys2Proof.Machine.execEwDataFlit port module atHub flit badLane s
  | .ewCtrlFlit port module atHub flit => Sys2Proof.Machine.execEwCtrlFlit port module atHub flit s
  | .ewAckTimer port module atHub => Sys2Proof.Machine.execEwAckTimer port module atHub s
  | .ewResendTimeout port module atHub => Sys2Proof.Machine.execEwResendTimeout port module atHub s
  | .ewRead port m finds => Sys2Proof.Machine.execEwRead port m finds s
  | .ewWrite port m finds => Sys2Proof.Machine.execEwWrite port m finds s
  | .ewCompletion port m => Sys2Proof.Machine.execEwCompletion port m s
  | .ewKnotOp port m op => Sys2Proof.Machine.execEwKnotOp port m op s
  | .ewKnotWake port m => Sys2Proof.Machine.execEwKnotWake port m s
  | .ewControl port c => Sys2Proof.Machine.execEwControl port c s
  | .ewTransit port fromHub flit => Sys2Proof.Machine.execEwTransit port fromHub flit s
  | .telem pos r => Sys2Proof.Machine.execTelem pos r s
  | .telemMissTimer d => Sys2Proof.Machine.execTelemMissTimer d s
  | .strapsRead d a => Sys2Proof.Machine.execStrapsRead d a s
  | .resetReq d scope => Sys2Proof.Machine.execResetReq d scope s
  | .resetDone d scope step => Sys2Proof.Machine.execResetDone d scope step s
  | .repairReq port module towardHub lane retrained => Sys2Proof.Machine.execRepairReq port module towardHub lane retrained s
  | .repairDone port module failed => Sys2Proof.Machine.execRepairDone port module failed s
  | .holdOut d => Sys2Proof.Machine.execHoldOut d s
  | .partnerSilentTimeout => Sys2Proof.Machine.execPartnerSilentTimeout s
  | .farEndLinkTraining link t => Sys2Proof.Machine.execFarEndLinkTraining link t s
  | .rescueReplyBusy m step => Sys2Proof.Machine.execRescueReplyBusy m step s

end Sys2Proof.Machine
end

