-- ==== Sys2Proof/WellFormed.lean ====
section
/-!
DEFINITION. Well-formed commands: every unit number, address, count and frame length that a command names lies in the
range that the manual gives (spec/01_organisation.md R13 and R27, spec/02_addresses_ordering_checks.md R44 and
Table 02-4, spec/03_warp_beam_and_knots.md R93 and R94, spec/07 to spec/16 for the unit counts).
-/
namespace Sys2Proof

/-- A knot name in range: 65,536 knots of a device, 32 local knots of a core, 18-bit device numbers (R93, R98, R175). -/
def knotOk : KnotRef → Bool
  | .device n => n < 65536
  | .localTo core n => core < 8192 && n < 32
  | .remote dev n => dev < 262144 && n < 65536

/-- An issuer of Table 02-4 in range (R52). -/
def issuerOk : Issuer → Bool
  | .engine core _ => core < 8192
  | .bobbins channel => channel < 65536
  | .regionCtl region => region < 16
  | .pageService region => region < 16
  | .management => true
  | .command _ => true
  | .bar2 => true
  | .weftRx link vc => link < 16 && vc < 4
  | .chiplet => true
  | .reduction coll => coll < 256

/-- A command whose operands are in range. -/
def WellFormed : Instr → Bool
  | .modelLoad _ _ _ => true
  | .modelPlace _ _ _ _ => true
  | .modelEvict _ => true
  | .modelQuery _ => true
  | .seqOpen _ => true
  | .seqPrefill _ => true
  | .seqStep _ => true
  | .seqFork _ => true
  | .seqPark _ => true
  | .seqResume _ => true
  | .seqClose _ => true
  | .seqQuery _ => true
  | .pagePin _ => true
  | .pageUnpin _ => true
  | .pageDrop _ => true
  | .pageStats _ => true
  | .memRead _ _ => true
  | .memWrite _ _ _ => true
  | .memFill _ _ => true
  | .memCopy _ _ _ => true
  | .knotSet _ => true
  | .knotAdd _ => true
  | .knotWait _ => true
  | .knotWaitTimeout _ => true
  | .knotQuery _ => true
  | .collDefine _ => true
  | .collStart _ => true
  | .checkRun _ _ _ => true
  | .telemRead _ => true
  | .telemStream _ => true
  | .telemStreamPeriod => true
  | .powerCapSet _ => true
  | .powerQuery _ => true
  | .thermalStop _ => true
  | .licenceInstall _ _ => true
  | .fwStage _ _ => true
  | .fwActivate _ => true
  | .attest _ => true
  | .topologySet _ _ => true
  | .roleSet _ => true
  | .reset _ => true
  | .abort _ => true
  | .errlogRead _ => true
  | .fenceUnit _ => true
  | .trafficGen _ => true
  | .linkTest _ _ _ => true
  | .rscSnapshot m => m < 2
  | .rscErrlogRead m => m < 2
  | .rscTelemRead m => m < 2
  | .rscRegionReset m => m < 2
  | .rscWarmReset m => m < 2
  | .rscLinkDisable m => m < 2
  | .rscThermalStop m => m < 2
  | .rescueGo m => m < 2
  | .sqTail q _ => q < 64
  | .cqHead q _ => q < 64
  | .packetFetch q _ => q < 64
  | .replyWrite _ => true
  | .cqCoalesceTimer q => q < 64
  | .sqEnable q _ => q < 64
  | .sqDisable q => q < 64
  | .cqEnable q _ => q < 64
  | .cqDisable q => q < 64
  | .registerWrite _ size _ => (size == 1 || size == 2 || size == 4 || size == 8)
  | .rcRegisterRead _ size => (size == 1 || size == 2 || size == 4 || size == 8)
  | .controlApertureAccess _ size _ => (size == 1 || size == 2 || size == 4 || size == 8)
  | .bar2Read _ _ _ => true
  | .bar2Write _ _ _ => true
  | .hubErrHead _ => true
  | .hubTlmHead _ => true
  | .chkStart n _ => n < 48
  | .chkCtrlWrite n _ => n < 48
  | .chkDataWrite n _ _ => n < 48
  | .chkResultRead n _ => n < 48
  | .chkOwnerWrite n _ => n < 48
  | .tgStart ch _ => ch < 65536
  | .tgStop ch => ch < 65536
  | .tgRunEnd ch _ _ => ch < 65536
  | .farTgStart pc _ => pc < 512
  | .farTgStop pc => pc < 512
  | .farTgRunEnd pc _ _ => pc < 512
  | .bootHostGo _ => true
  | .i3cPrivateWrite _ => true
  | .i3cPrivateRead _ => true
  | .entdaa _ => true
  | .setdasa _ _ => true
  | .rstdaa => true
  | .enec _ => true
  | .disec _ => true
  | .getpid => true
  | .getbcr => true
  | .getdcr => true
  | .getstatus => true
  | .doeRequest _ => true
  | .perst => true
  | .pcieHotReset => true
  | .functionLevelReset => true
  | .d3hotEntry _ => true
  | .d0Restore => true
  | .pcieLinkTrained _ _ => true
  | .pcieReadFailed _ _ _ => true
  | .pwrokRise _ => true
  | .pwrokFall => true
  | .refclkLoss => true
  | .bringUpPhase1 => true
  | .bringUpPhase2 _ _ _ => true
  | .bringUpPhase3 _ _ _ _ _ _ => true
  | .bringUpPhase4 _ => true
  | .bringUpPhase5 _ => true
  | .licenceVerification => true
  | .bringupHoldEnd => true
  | .watchdogExpiry => true
  | .coreSelfFence core => core < 8192
  | .blockHeartbeatMiss block => block < 128
  | .regionHeartbeatMiss region => region < 16
  | .deviceFatalResetTimer => true
  | .coreReset core _ => core < 8192
  | .blockReset block _ => block < 128
  | .regionReset region _ => region < 16
  | .mLayerReset pos layer => pos < 4 && layer < 8
  | .cDieReset pos => pos < 4
  | .deviceWarmReset _ => true
  | .deviceColdReset _ => true
  | .resetBoundMiss _ _ => true
  | .errorVectorTimer => true
  | .capacityReportUpdate => true
  | .darnAppend => true
  | .memoryRead issuer addr length _ => issuerOk issuer && addr < 1099511627776 && addr + length ≤ 1099511627776
  | .memoryWrite issuer addr bytes _ _ => issuerOk issuer && addr < 1099511627776 && addr + bytes.length ≤ 1099511627776
  | .farCorrectionWriteback pc => pc < 512
  | .wbReweight port => port < 7
  | .refreshDue ch bank _ => ch < 65536 && bank < 16
  | .scrubRead ch bank row _ => ch < 65536 && bank < 16 && row < 512
  | .powerSample _ => true
  | .bandFall pos layer => pos < 4 && layer < 8
  | .throttleFall stack => stack < 8
  | .stackReadoutMissing stack => stack < 8
  | .telemMissHold pos => pos < 4
  | .telemLost pos => pos < 4
  | .sensorNoReading sensor => sensor < 530
  | .sensorFaultDecision a b => a < 530 && b < 530
  | .sensorSuspectClear sensor => sensor < 530
  | .sensorSuspectFaulty sensor => sensor < 530
  | .inletHot => true
  | .rungRise region => region < 16
  | .clockStepDown => true
  | .clockStepUp => true
  | .stepUpVoltageConfirmed => true
  | .stepUpAbandon => true
  | .orderlyStop => true
  | .clockStop => true
  | .cDieTrip pos => pos < 4
  | .mLayerTrip pos layer => pos < 4 && layer < 8
  | .hubTrip => true
  | .programStart core => core < 8192
  | .weaveSwitch slot => slot < 1024
  | .descriptorDispatch core _ => core < 8192
  | .descriptorIssue core _ => core < 8192
  | .descriptorComplete core _ _ => core < 8192
  | .programAbort core => core < 8192
  | .arrayMm core _ _ => core < 8192
  | .arrayDrain core => core < 8192
  | .drainColumnWrite core column _ _ => core < 8192 && column < 16
  | .coreStoreReadReturn core link lateBeats corrected _ => core < 8192 && link < 32 && lateBeats ≤ (if corrected.isSome then 34 else 10)
  | .fma core _ => core < 8192
  | .vecAdd core _ => core < 8192
  | .sub core _ => core < 8192
  | .vecMul core _ => core < 8192
  | .min core _ => core < 8192
  | .vecMax core _ => core < 8192
  | .exp core _ => core < 8192
  | .rcp core _ => core < 8192
  | .rsqrt core _ => core < 8192
  | .silu core _ => core < 8192
  | .gelu core _ => core < 8192
  | .reduceSum core _ => core < 8192
  | .reduceMax core _ => core < 8192
  | .softmax core _ => core < 8192
  | .rmsnorm core _ => core < 8192
  | .layernorm core _ => core < 8192
  | .convert core _ => core < 8192
  | .split core _ => core < 8192
  | .topk core _ => core < 8192
  | .move core _ => core < 8192
  | .attnGather core _ => core < 8192
  | .bobbinSeq core => core < 8192
  | .swatchScore core _ => core < 8192
  | .knotArrive core => core < 8192
  | .descKnotWait core => core < 8192
  | .loop core _ => core < 8192
  | .halt core _ => core < 8192
  | .admissionGrant region _ => region < 16
  | .processorModeExit ch _ => ch < 65536
  | .rmsnBarrierRelease ch => ch < 65536
  | .nop ch slot => ch < 65536 && slot < 2
  | .endRun ch slot => ch < 65536 && slot < 2
  | .uopLoop ch slot => ch < 65536 && slot < 2
  | .setp ch slot => ch < 65536 && slot < 2
  | .ldv ch slot _ => ch < 65536 && slot < 2
  | .clr ch slot => ch < 65536 && slot < 2
  | .mac ch slot _ _ => ch < 65536 && slot < 2
  | .macw ch slot _ _ => ch < 65536 && slot < 2
  | .scl ch slot _ => ch < 65536 && slot < 2
  | .uopAdd ch slot _ => ch < 65536 && slot < 2
  | .mul ch slot _ => ch < 65536 && slot < 2
  | .max ch slot _ => ch < 65536 && slot < 2
  | .wb16 ch slot => ch < 65536 && slot < 2
  | .wb32 ch slot => ch < 65536 && slot < 2
  | .expt ch slot => ch < 65536 && slot < 2
  | .rsq ch slot => ch < 65536 && slot < 2
  | .sumsq ch slot _ _ => ch < 65536 && slot < 2
  | .eadd ch slot _ _ => ch < 65536 && slot < 2
  | .emul ch slot _ _ => ch < 65536 && slot < 2
  | .rmsn ch slot _ _ => ch < 65536 && slot < 2
  | .arrive issuer knot count _ => issuerOk issuer && knotOk knot && 1 ≤ count && count < 65536
  | .wait issuer knot target => issuerOk issuer && knotOk knot && target < 281474976710656
  | .waitRetry issuer knot => issuerOk issuer && knot < 65536
  | .set issuer knot value => issuerOk issuer && knotOk knot && value < 281474976710656
  | .add issuer knot delta => issuerOk issuer && knotOk knot && (-140737488355328 ≤ delta && delta < 140737488355328)
  | .query issuer knot => issuerOk issuer && knotOk knot
  | .collReduce coll _ _ => coll < 256
  | .collPeerReduce coll peer _ => coll < 256 && peer < 64
  | .stepBatchBuild slot _ _ => slot < 1024
  | .stepBatchStart slot => slot < 1024
  | .stepBatchCommit slot _ => slot < 1024
  | .gatherPin seq layer hgroup page => seq < 4096 && layer < 256 && hgroup < 256 && page < 65536
  | .gatherUnpin region frame => region < 16 && frame < 4194304
  | .pageWrite seq layer hgroup page _ _ => seq < 4096 && layer < 256 && hgroup < 256 && page < 65536
  | .pageRelease seq layer hgroup page => seq < 4096 && layer < 256 && hgroup < 256 && page < 65536
  | .rootEntryRequest region seq layer hgroup => region < 16 && seq < 4096 && layer < 256 && hgroup < 256
  | .frameLossWalk region frame => region < 16 && frame < 4194304
  | .poisonPageDrop region frame => region < 16 && frame < 4194304
  | .reweaveItem _ => true
  | .weftFrame link codewords => link < 16 && codewords.length == 4
  | .weftDataFlit link flit => link < 16 && flit.length == 256
  | .weftAckTimer link => link < 16
  | .weftResendTimeout link => link < 16
  | .linkRetrain link _ => link < 16
  | .identityFlit link _ => link < 16
  | .packet link => link < 17
  | .reply link => link < 17
  | .write link => link < 17
  | .wack link => link < 17
  | .notice link => link < 17
  | .replyAck link => link < 17
  | .transitForward link => link < 17
  | .bcastTimeout _ _ => true
  | .wackTimeout _ => true
  | .remoteReplyTimeout _ => true
  | .orderedGapTimeout => true
  | .replyResendTimer _ => true
  | .liveNoticeTimer => true
  | .liveMissingTimeout worker => worker < 262144
  | .vcStallTimeout link vc => link < 16 && vc < 4
  | .ewDataFlit port module _ flit _ => port < 7 && module < 16 && flit.length == 256
  | .ewCtrlFlit port module _ flit => port < 7 && module < 16 && flit.length == 256
  | .ewAckTimer port module _ => port < 7 && module < 16
  | .ewResendTimeout port module _ => port < 7 && module < 16
  | .ewRead port _ _ => port < 7
  | .ewWrite port _ _ => port < 7
  | .ewCompletion port _ => port < 7
  | .ewKnotOp port _ _ => port < 7
  | .ewKnotWake port _ => port < 7
  | .ewControl port _ => port < 7
  | .ewTransit port _ flit => port < 7 && flit.length == 256
  | .telem pos _ => pos < 4
  | .telemMissTimer d => d < 6
  | .strapsRead d _ => d < 6
  | .resetReq d _ => d < 6
  | .resetDone d _ _ => d < 6
  | .repairReq port module _ lane _ => port < 7 && module < 16 && lane < 64
  | .repairDone port module _ => port < 7 && module < 16
  | .holdOut d => d < 6
  | .partnerSilentTimeout => true
  | .farEndLinkTraining link _ => link < 16
  | .rescueReplyBusy m _ => m < 2

end Sys2Proof
end

