-- ==== Sys2Proof/Safety.lean ====
section
/-!
DEFINITION. What counts as a sound state, and the terms that claims use: a command that completes, a packet that may
begin, its answer, and what a knot operation leaves.
-/
namespace Sys2Proof.Machine

/-- Device memory is in its one canonical form: equal memories are equal data. -/
def MemoryCanonical (s : State) : Prop := s.mem.wf = true

/-- Every command that waits names units and values in the ranges of the manual. -/
def QueueWellFormed (s : State) : Prop := s.pending.all WellFormed = true

/-- A command completes: it answers a next state that satisfies a property. -/
def Completes (c : Instr) (s : State) (q : State → Prop) : Prop := ∃ t, exec c s = .next t ∧ q t

/-- Packet `k`, in flight as `p` with an opcode, has not begun, nothing before it in its ring or on its object holds it
back, H runs, the device's state lets the opcode execute, and its serving region controller is not in reset. -/
structure MayBegin (s : State) (p op : Nat) (k : Packet) : Prop where
  found : getPacket s p = some k
  opcode : k.opcode = op
  waits : waitsToStart k = true
  order : mayStart s k = true
  clocks : hubRuns s = true
  device : deviceStatus s op = stOk
  lead : (commandLead s k).any (fun r => (getRegion s r).inReset) = false

/-- The answer of a packet in flight, once it has one. -/
def answerOf (s : State) (p : Nat) : Option Answer := (getPacket s p).bind (·.answer)

/-- Packet `p` is answered with a status and a RESULT, which is padded to its 16 bytes. -/
def Answers (t : State) (p status : Nat) (result : Bytes) : Prop :=
  answerOf t p = some { status := status, result := padTo 16 result }

/-- After an operation on knot `n`: the WAITs that its value meets are gone and woken, in their order, and the others
stand; `lag` is the lagging indication of an ARRIVE. -/
structure WakesMet (s t : State) (n : Nat) (lag : Bool) : Prop where
  waiters : t.waiters = (s.waiters.map (fun w => if w.knot = n then { w with laggingSeen := w.laggingSeen || lag } else w)).filter
    (fun w => !(w.knot == n && decide (w.target ≤ (tget t.knots n).value.toNat)))
  wakes : t.wakes = s.wakes ++ (s.waiters.filter (fun w => w.knot == n && decide (w.target ≤ (tget t.knots n).value.toNat))).map
    (fun w => { issuer := w.issuer, knot := n, value := (tget t.knots n).value.toNat, tag := w.tag
                lagging := w.laggingSeen || lag })
  others : ∀ m, m ≠ n → tget t.knots m = tget s.knots m

/-- A sum clamped to the range of a knot's value (spec/03 R94). -/
def clamped (x : Int) : Nat := if x < 0 then 0 else if x < 281474976710656 then x.toNat else 281474976710655

/-- Whether a sum falls outside the range of a knot's value (spec/03 R94). -/
def clamps (x : Int) : Bool := decide (x < 0) || decide (281474976710656 ≤ x)

/-- BAR0, BAR2 and BAR4 are served (spec/11 R301): H runs, the function is in D0, and READY or TOPOLOGY is 1. -/
structure Served (s : State) : Prop where
  clocks : hubRuns s = true
  d0 : s.pcie.d3hot = false
  ready : (s.pcie.ready || s.pcie.topology) = true

/-- A check block outside the sequence table that is not poisoned and whose bytes meet its stored value (spec/02 R68). -/
structure Verifies (s : State) (blk : Nat) : Prop where
  plain : inSeqTable blk = false
  clean : (tagOf s.mem blk).poison = false
  check : (checkStored (readBytes s.mem (blk * 256) 256) (tagOf s.mem blk).stored).isSome = true

/-- Every block of a range verifies. -/
def RangeVerifies (s : State) (a n : Nat) : Prop := ∀ blk ∈ blocksOf a n, Verifies s blk

/-- Memory after a write of bytes at an address: those bytes there, and every other byte as before. -/
def Stores (s t : State) (a : Nat) (b : Bytes) : Prop :=
  ∀ j, readByte t.mem j = if a ≤ j ∧ j < a + b.length then b.getD (j - a) 0 else readByte s.mem j

/-- The bytes that posted memory writes carry, each with its bus address, and the bytes of read completions. -/
def postedBytes : PcieTx → List (Nat × Byte)
  | .memWrite a d _ _ => (rangeFrom a d.length).zip d
  | _ => []
def completionBytes : PcieTx → Bytes
  | .completion d _ => d
  | _ => []

/-- A half of a check unit's result as CHK_RESULT_LO or CHK_RESULT_HI gives it (spec/03 Table 03-10). -/
def chkHalf (high : Bool) (u : ChkUnit) : Bytes := toBytes 4 (if high then chkResult u / 4294967296 else chkResult u)

/-- The codes of `n` contiguous elements of a format at an address. -/
def codesAt (m : Memory) (fmt a n : Nat) : List Nat :=
  (List.range n).map (fun i => leNat (readBytes m (a + elemSize fmt * i) (elemSize fmt)))

/-- A contiguous row of `n` elements, 8 bits wide or wider, in the store of a core. -/
structure StoreRow (s : State) (core a fmt n : Nat) : Prop where
  unit : core < 8192
  wide : elemBits fmt ≠ 4
  inside : storeBase core ≤ a ∧ a + elemSize fmt * n ≤ storeBase core + 0x38000
  verifies : RangeVerifies s a (elemSize fmt * n)

/-- The words that the vector unit reads from a contiguous row (spec/05 R148). -/
def wordsAt (s : State) (fmt a n : Nat) : List (Word × Exc) := (codesAt s.mem fmt a n).map (inputWord fmt)

/-- Plane `q` of operand B of a vector descriptor that reads one. -/
def planeB (x : EngSlot) (q : Nat) : Nat := ((x.addrB : Int) + q * (opd16 x.desc 32).s2).toNat

/-- An issued vector descriptor whose operands are single contiguous rows of its core's store: A of `n` elements, B of as
many in one plane (LAYERNORM: two), C of `m`. -/
structure VecRow (s : State) (core sub n m : Nat) (x : EngSlot) : Prop where
  issued : issuedVec (getCore s core) sub = some x
  size : 0 < n
  shapeA : (opd16 x.desc 16).e0 = n ∧ (opd16 x.desc 16).e1 = 1 ∧ (opd16 x.desc 16).e2 = 1 ∧ (opd16 x.desc 16).s0 = 0
  shapeC : (opd16 x.desc 48).e0 = m ∧ (opd16 x.desc 48).e1 = 1 ∧ (opd16 x.desc 48).e2 = 1 ∧ (opd16 x.desc 48).s0 = 0
  rowA : StoreRow s core x.addrA (opd16 x.desc 16).fmt n
  rowC : StoreRow s core x.addrC (opd16 x.desc 48).fmt m
  shapeB : subopUsesB sub = true → (opd16 x.desc 32).e0 = n ∧ (opd16 x.desc 32).e1 = 1 ∧ (opd16 x.desc 32).s0 = 0
    ∧ (opd16 x.desc 32).e2 = if sub = 0x1A then 2 else 1
  rowB : subopUsesB sub = true → ∀ q, q < (opd16 x.desc 32).e2 →
    StoreRow s core (planeB x q) (opd16 x.desc 32).fmt n ∧ 0 ≤ (x.addrB : Int) + q * (opd16 x.desc 32).s2

/-- Plane `q` of B as the vector unit reads it; nothing for a sub-operation without B. -/
def wordsB (s : State) (sub n : Nat) (x : EngSlot) (q : Nat) : List (Word × Exc) :=
  if subopUsesB sub then wordsAt s (opd16 x.desc 32).fmt (planeB x q) n else []

/-- What an executed vector row leaves: C holds the results as codes of its format, the sticky flags have gained what the
operands, the results and their conversion raised, and the slot has executed. -/
structure VecDone (s t : State) (core sub n : Nat) (x : EngSlot) (readC : Bool) (res : List (Word × Exc)) : Prop where
  stores : Stores s t x.addrC
    (res.flatMap (fun r => toBytes (elemSize (opd16 x.desc 48).fmt) (outputCode (opd16 x.desc 48).fmt r.1).1))
  flags : getCore t core = { raiseVec (getCore s core)
      (excOr (excOr (excAll (wordsAt s (opd16 x.desc 16).fmt x.addrA n)) (excAll (wordsB s sub n x 0)))
        (excOr (excAll (if readC then wordsAt s (opd16 x.desc 48).fmt x.addrC n else []))
          (excAll (res.map (fun r => let o := outputCode (opd16 x.desc 48).fmt r.1; (o.1, excOr r.2 o.2)))))) with
    vecSlots := (getCore t core).vecSlots }
  executed : ∃ y ∈ (getCore t core).vecSlots, y.index = x.index ∧ y.state = .executed
  frame : t = { s with mem := t.mem, cores := t.cores } ∧ ∀ c, c ≠ core → getCore t c = getCore s c

/-- A vector sub-operation completes on a row: `m` results from `n` elements, by a function of A, B's planes and C. -/
def VecCompletes (c : Instr) (s : State) (core sub : Nat) (readC : Bool) (m : Nat → Nat)
    (f : EngSlot → List Word → List Word → List Word → List Word → List (Word × Exc)) : Prop :=
  ∀ (x : EngSlot) (n : Nat), VecRow s core sub n (m n) x → Completes c s (fun t =>
    VecDone s t core sub n x readC (f x ((wordsAt s (opd16 x.desc 16).fmt x.addrA n).map (·.1))
      ((wordsB s sub n x 0).map (·.1)) ((wordsB s sub n x 1).map (·.1))
      ((wordsAt s (opd16 x.desc 48).fmt x.addrC n).map (·.1))))

/-- A slot of a channel in processor mode holds an active bank that has reached a micro-operation of a sequence, none of
whose steps has run (spec/08 R223, R224). -/
structure UopDue (s : State) (ch slot : Nat) (r : BobRun) (bank : Nat) (b : Bobbin) (u : Word64) : Prop where
  run : (getChan s ch).run = some r
  held : slotBank r slot = some bank
  bobbin : tget r.banks bank = b
  active : b.state = .active
  reached : r.uops[b.upc]? = some u
  plain : r.score = false
  fresh : b.done = 0

/-- A command that asks for `k` steps runs a fresh micro-operation of so many column cycles to its end; 0 asks for all its
steps. -/
def Ends (k cycles : Nat) : Prop := k = 0 ∨ cycles ≤ 64 * k

/-- What a micro-operation runs on. -/
def uopCtx (s : State) (ch bank : Nat) (r : BobRun) (b : Bobbin) (u : Word64) : UopCtx :=
  { ch := ch, bank := bank, rowBase := (getCore s r.core).rowBase
    nearRows := match (getCore s r.core).program with
      | none => 0
      | some p => fieldAt (getSlot s p.slot).header 0x3A 2
    run := r, b := b, u := u }

/-- `n` bytes of column word `w` from byte `j` on, as a number. -/
def nearField (s : State) (x : UopCtx) (w j n : Nat) : Nat := leNat (readBytes s.mem (wordAddr x w + j) n)

/-- Column words of a bank that a micro-operation may read: below NEAR_ROWS, and every block verifies. -/
def WordsRead (s : State) (x : UopCtx) (w n : Nat) : Prop :=
  w + n ≤ 32 * x.nearRows ∧ w + n ≤ 16384 ∧ RangeVerifies s (wordAddr x w) (32 * n)

/-- A micro-operation has run: its bank's bobbin satisfies a property, the run is else as it was, the channel has counted
its steps (spec/08 R224) and gained its flags, and nothing but memory, the channel and the free counter has changed. -/
structure UopDone (s t : State) (ch bank : Nat) (r : BobRun) (cycles : Nat) (flags : BobFlags) (q : Bobbin → Prop) : Prop where
  bobbin : ∃ b, (getChan t ch).run = some { r with banks := tinsert r.banks bank b, exiting := false } ∧ q b
  steps : (getChan t ch).bobSteps.toNat = Nat.min ((getChan s ch).bobSteps.toNat + Nat.max 1 ((cycles + 63) / 64)) 4294967295
  invalid : (getChan t ch).bobInvalid = ((getChan s ch).bobInvalid || flags.invalid)
  overflow : (getChan t ch).bobOverflow = ((getChan s ch).bobOverflow || flags.overflow)
  wrap : (getChan t ch).bobWrap = ((getChan s ch).bobWrap || flags.wrap)
  others : ∀ c, c ≠ ch → getChan t c = getChan s c
  frame : t = { s with chans := t.chans, mem := t.mem, free := t.free }

/-- A fault of a running bank (spec/08 R238): the channel leaves its run and names the cause, the sequencer is FAULTED. -/
structure UopFaults (t : State) (ch core cause status : Nat) : Prop where
  run : (getChan t ch).run = none
  named : (getChan t ch).faultCause = BitVec.ofNat 7 cause
  seqr : (getCore t core).seqr = .faulted
  shown : (getCore t core).faultCause = BitVec.ofNat 7 cause ∧ (getCore t core).faultStatus = BitVec.ofNat 16 status

/-- The request of mailbox `m` is served next and names an opcode; it waits behind no other request of its mailbox. -/
structure RescueServes (s : State) (m op : Nat) : Prop where
  next : ∃ rest, s.rescueOrder = m :: rest ∧ m ∉ rest
  busy : (getMailbox s m).busy = true
  opcode : (rescuePacket s m).opcode = op

/-- Mailbox `m` is answered with a status and a RESULT (spec/12 R368): its reply is written, BUSY falls and DONE rises. -/
structure RescueReplies (s t : State) (m status : Nat) (result : Bytes) : Prop where
  reply : (getMailbox t m).reply = replyBytes (rescuePacket s m).tag status 0 false 0 (padTo 16 result)
  busy : (getMailbox t m).busy = false
  done : (getMailbox t m).done = true
  request : (getMailbox t m).request = (getMailbox s m).request

/-- Only link `l` has changed. -/
structure LinkOnly (s t : State) (l : Nat) : Prop where
  others : ∀ n, n ≠ l → getLink t n = getLink s n
  frame : t = { s with weft := { s.weft with links := t.weft.links } }

/-- The oldest message of a kind for this device on link `l` is `m`; `u` is the state without it. -/
structure Arrives (s : State) (l kind : Nat) (m : Msg) (u : State) : Prop where
  runs : inputRuns s l = true
  taken : takeMsg s l (fun x => x.kind == kind && forHere s l x) = some (m, u)
  direct : m.relay = false

/-- A flit whose CRC-32 is good, of a type, on a link in service (spec/13 R375). -/
structure GoodFlit (s : State) (l type : Nat) (b : Bytes) : Prop where
  runs : linkRuns s l = true
  size : b.length = 256
  crc : crc32 (b.take 248) = fieldAt b 248 4
  type : bitsOf (fieldAt b 0 6) 3 0 = type

/-- An Eweum flit whose CRC-32C is good, of a type, at an end of a module in service (spec/14 R406). -/
structure GoodEwFlit (s : State) (port m e type : Nat) (b : Bytes) : Prop where
  runs : ewRuns s port m e = true
  size : b.length = 256
  crc : crc32c (b.take 252) = fieldAt b 252 4
  type : bitsOf (fieldAt b 0 4) 3 0 = type

/-- The link layer of an end of an Eweum module. -/
def ewEnd (s : State) (port m e : Nat) : EwModule := tget (getPort s port).links (2 * m + e)

/-- Only port `p` has changed. -/
structure PortOnly (s t : State) (p : Nat) : Prop where
  others : ∀ n, n ≠ p → getPort t n = getPort s n
  frame : t = { s with ports := t.ports }

/-- A message of bytes `b` has left at an end of a port, whole on the module that its key chooses among those in service: its
flits go out or, while the port is quiesced, wait there in order (spec/14 R402, R408). -/
structure EwSent (s t : State) (port e vc key : Nat) (b : Bytes) : Prop where
  sent : t = ewSend s port e vc key b
  only : PortOnly s t port
  waits : (getPort s port).quiesced = true → ∀ m, ewChoose (getPort s port) port key = some m →
    ∃ fl : List (Nat × Nat × Bytes), (ewEnd t port m e).queued = (ewEnd s port m e).queued ++ fl
      ∧ fl.flatMap (fun x => x.2.2) = b ∧ ∀ x ∈ fl, x.1 = key ∧ x.2.1 % 4 = vc

end Sys2Proof.Machine
end

