-- ==== Sys2Proof/Certificates/Slice0/Obligations.lean ====
section
/-!
DEFINITION. The statements about the model: what a command does where nothing stops it, what it leaves as it was, and the
invariants of every step.
-/
open Sys2Proof Sys2Proof.Machine

/-- A step runs the command at the front of the queue on the state with the queue's rest. -/
def Obligations.StepRunsFront : Prop :=
  ∀ (c : Instr) (rest : List Instr) (s : State), step { s with pending := c :: rest } = exec c { s with pending := rest }

/-- Right after reset (Tables 03-4, 06-21, 11-5 to 11-8, 13-15; R99, R139): nothing waits and nothing is in flight,
the device is not ready, every ring is disabled with the size and indices of its tables, every knot is zero, no core
runs, no link is in service, no reset is ordered, and memory is in its canonical form and reads as zeros that verify.
Where it rests on the model's choices: log 2, 6, 9, 10, 24. -/
def Obligations.ResetState : Prop :=
  State.reset.pending = [] ∧ State.reset.packets = [] ∧ State.reset.resets = [] ∧ State.reset.thermal.stop = 0 ∧
  State.reset.pcie.ready = false ∧ State.reset.pcie.topology = false ∧ State.reset.pcie.phase = 0 ∧ State.reset.pcie.resetCount = 0 ∧
  (∀ q, (getSq State.reset q).enable = false ∧ (getSq State.reset q).sizeLog2 = 7 ∧ (getSq State.reset q).head = 0
    ∧ (getSq State.reset q).tail = 0 ∧ (getSq State.reset q).cfgErr = false) ∧
  (∀ q, (getCq State.reset q).enable = false ∧ (getCq State.reset q).sizeLog2 = 4 ∧ (getCq State.reset q).tail = 0
    ∧ (getCq State.reset q).phase = true ∧ (getCq State.reset q).head = 0) ∧
  (∀ n, (tget State.reset.knots n).value = 0 ∧ (tget State.reset.knots n).lagging = false
    ∧ (tget State.reset.knots n).saturated = false) ∧
  (∀ c, (getCore State.reset c).seqr = .idle ∧ (getCore State.reset c).faultCause = 0 ∧ (getCore State.reset c).faultStatus = 0) ∧
  (∀ l, (getLink State.reset l).state = 0 ∧ (getLink State.reset l).disabled = false) ∧
  MemoryCanonical State.reset ∧ (∀ a, readByte State.reset.mem a = 0) ∧
  ∀ blk, inSeqTable blk = false → Verifies State.reset blk

/-- A step takes the front command from the queue and changes nothing else of it, whatever the command; an idle
block's queue stays empty. Where it rests on the model's choices: log 1, 21. -/
def Obligations.StepTakesFront : Prop :=
  ∀ (s t : State), step s = .next t → t.pending = s.pending.tail

/-- The memory keeps its one canonical form: of every command, and of the tick of an idle block. -/
def Obligations.StepKeepsMemoryCanonical : Prop :=
  ∀ (s t : State), MemoryCanonical s → step s = .next t → MemoryCanonical t

/-- SET and ADD on a device knot by the issuers that Table 03-5 lets, on the knots that R97 opens to them (log 29):
the value and its clamping, the WAITs that it meets, and nothing else but what a wake reaches. ARRIVE on a device knot
by the issuers that Table 03-5 lets, on the knots that R97 opens to them (log 29): VALUE rises by the count, LAGGING
by the indication or the issuer's throttled mark (R260), which the ARRIVE clears. Completion: ARRIVE, SET and ADD
answer a next state with their effects, from every state and operands that meet the conditions named. Where it rests
on the model's choices: log 29. -/
def Obligations.KnotOperations : Prop :=
  (
    ∀ (s : State) (i : Issuer) (n : Nat), n < 65536 →
      (i = .management ∨ (∃ r, i = .regionCtl r) ∨ (8192 ≤ n ∧ ∃ p, i = .command p)) →
      (∀ v, v < 281474976710656 → Completes (.set i (.device n) v) s (fun t =>
        tget t.knots n = { value := BitVec.ofNat 48 v, lagging := false, saturated := false } ∧ WakesMet s t n false
        ∧ t = { s with knots := t.knots, waiters := t.waiters, wakes := t.wakes, cores := t.cores, packets := t.packets })) ∧
      (∀ d : Int, Completes (.add i (.device n) d) s (fun t =>
        (tget t.knots n).value.toNat = clamped ((tget s.knots n).value.toNat + d)
        ∧ (tget t.knots n).saturated = ((tget s.knots n).saturated || clamps ((tget s.knots n).value.toNat + d))
        ∧ (tget t.knots n).lagging = (tget s.knots n).lagging ∧ WakesMet s t n false
        ∧ t = { s with knots := t.knots, waiters := t.waiters, wakes := t.wakes, cores := t.cores, packets := t.packets }))) ∧
  (
    ∀ (s : State) (i : Issuer) (n count : Nat) (lag : Bool), n < 65536 → 1 ≤ count → count < 65536 →
      (i = .management ∨ (∃ r, i = .regionCtl r) ∨ (∃ r, i = .pageService r) ∨ (∃ c, i = .reduction c)
        ∨ (8192 ≤ n ∧ ∃ c e, i = .engine c e)) →
      Completes (.arrive i (.device n) count lag) s (fun t =>
        (tget t.knots n).value.toNat = clamped ((tget s.knots n).value.toNat + count)
        ∧ (tget t.knots n).saturated = ((tget s.knots n).saturated || clamps ((tget s.knots n).value.toNat + count))
        ∧ (tget t.knots n).lagging = ((tget s.knots n).lagging || lag || s.throttled.contains i)
        ∧ WakesMet s t n (lag || s.throttled.contains i) ∧ t.throttled = s.throttled.filter (· != i)
        ∧ t = { s with knots := t.knots, waiters := t.waiters, wakes := t.wakes, cores := t.cores, packets := t.packets,
                       throttled := t.throttled }))

/-- WAIT on a device knot completes at once when VALUE meets the target, else registers, or is refused while the table
of 131,072 entries is full; WAIT_RETRY does the same with the issuer's oldest refused WAIT on the knot; QUERY gives
the knot's 16 bytes to the issuer. Completion: WAIT, WAIT_RETRY and QUERY answer a next state with their effects, from
every state and operands that meet the conditions named. -/
def Obligations.KnotWaitAndQuery : Prop :=
  ∀ (s : State) (i : Issuer) (n target : Nat), n < 65536 →
    ((i = .management ∨ (∃ r, i = .regionCtl r) ∨ (∃ r, i = .pageService r) ∨ (∃ c, i = .reduction c)
      ∨ (∃ c e, i = .engine c e) ∨ ∃ p, i = .command p) →
      (target ≤ (tget s.knots n).value.toNat → Completes (.wait i (.device n) target) s (fun t =>
        t.wakes = s.wakes ++ [{ issuer := i, knot := n, value := (tget s.knots n).value.toNat }]
        ∧ t = { s with wakes := t.wakes, cores := t.cores, packets := t.packets })) ∧
      ((tget s.knots n).value.toNat < target → s.waiters.length < 131072 →
        exec (.wait i (.device n) target) s
          = .next { s with waiters := s.waiters ++ [{ issuer := i, knot := n, target := target }] }) ∧
      ((tget s.knots n).value.toNat < target → 131072 ≤ s.waiters.length →
        exec (.wait i (.device n) target) s
          = .next { s with refusedWaits := s.refusedWaits ++ [{ issuer := i, knot := n, target := target }] })) ∧
    (∀ w rest, s.refusedWaits = w :: rest → w.issuer = i → w.knot = n →
      (w.target ≤ (tget s.knots n).value.toNat → Completes (.waitRetry i n) s (fun t =>
        t.wakes = s.wakes ++ [{ issuer := i, knot := n, value := (tget s.knots n).value.toNat, tag := w.tag }]
        ∧ t = { s with refusedWaits := rest, wakes := t.wakes, cores := t.cores, packets := t.packets })) ∧
      ((tget s.knots n).value.toNat < w.target → s.waiters.length < 131072 →
        exec (.waitRetry i n) s = .next { s with
          refusedWaits := rest
          waiters := s.waiters ++ [{ issuer := i, knot := n, target := w.target, tag := w.tag }] })) ∧
    Completes (.query i (.device n)) s (fun t =>
      t = { s with delivered := t.delivered } ∧ t.delivered.status = 0 ∧ t.delivered.poison = false
      ∧ t.delivered.data = toBytes 8 ((tget s.knots n).value.toNat + b2n (tget s.knots n).lagging * 281474976710656
            + b2n (tget s.knots n).saturated * 562949953421312)
          ++ toBytes 2 (Nat.min (s.waiters.filter (fun w => w.knot == n)).length 65535)
          ++ toBytes 6 ((s.waiters.filter (fun w => w.knot == n)).foldl (fun m w => Nat.min m w.target) 281474976710655))

/-- The local knots of a core (R175): its sequencer's ARRIVE adds the count and ends the local WAITs that the value
meets, its WAIT for a value not yet reached is held, and its QUERY gives the knot's 16 bytes; neither reaches the knot
store. Completion: ARRIVE, WAIT and QUERY answer a next state with their effects, from every state and operands that
meet the conditions named. Where it rests on the model's choices: log 99. -/
def Obligations.LocalKnots : Prop :=
  ∀ (s : State) (core n count target : Nat) (e : Engine), n < 32 → 1 ≤ count → count < 65536 →
    Completes (.arrive (.engine core e) (.localTo core n) count false) s (fun t =>
      (tget (getCore t core).localKnots n).value.toNat
          = clamped ((tget (getCore s core).localKnots n).value.toNat + count)
      ∧ (∀ m, m ≠ n → tget (getCore t core).localKnots m = tget (getCore s core).localKnots m)
      ∧ (∀ w ∈ (getCore t core).localWaits, w.2.1 = n → (tget (getCore t core).localKnots n).value.toNat < w.2.2)
      ∧ (∀ c, c ≠ core → getCore t c = getCore s c)
      ∧ t = { s with cores := t.cores, throttled := t.throttled }) ∧
    ((tget (getCore s core).localKnots n).value.toNat < target →
      exec (.wait (.engine core e) (.localTo core n) target) s
        = .next (modCore s core (fun c => { c with localWaits := c.localWaits ++ [(e, n, target)] }))) ∧
    exec (.query (.engine core e) (.localTo core n)) s
      = .next { s with delivered := { status := 0, data := localKnotBytes (getCore s core) n, poison := false } }

/-- KNOT_SET, KNOT_ADD, KNOT_WAIT and KNOT_QUERY on a knot of this device: their effect on the knot and their answer
(Table 12-9); KNOT_SET and KNOT_ADD on a reserved knot return ST_BAD_ADDRESS (R97); a WAIT that times out is removed.
KNOT_WAIT_TIMEOUT: a KNOT_WAIT with a TIMEOUT that waits is answered ST_BUSY and its WAIT is removed, and no knot
changes (Table 12-9). Completion: KNOT_SET, KNOT_ADD, KNOT_WAIT, KNOT_WAIT_TIMEOUT and KNOT_QUERY answer a next state
with their effects, from every state and operands that meet the conditions named. Where it rests on the model's
choices: log 29, 31. -/
def Obligations.KnotPackets : Prop :=
  (
    ∀ (s : State) (p : Nat) (k : Packet), k.context < 65536 → bitOf (argAt k 0x10 4) 0 = false →
      (∀ w ∈ s.waiters, w.issuer ≠ .command p) →
      (MayBegin s p 0x0501 k → 8192 ≤ k.context → Completes (.knotSet p) s (fun t =>
        tget t.knots k.context = { value := BitVec.ofNat 48 (argAt k 0x18 8), lagging := false, saturated := false }
        ∧ WakesMet s t k.context false ∧ Answers t p 0 [] ∧ t.mem = s.mem)) ∧
      (MayBegin s p 0x0501 k → k.context < 8192 →
        Completes (.knotSet p) s (fun t => Answers t p 0x0021 [] ∧ t = { s with packets := t.packets })) ∧
      (MayBegin s p 0x0502 k → 8192 ≤ k.context → k.lag = false → Completes (.knotAdd p) s (fun t =>
        (tget t.knots k.context).value.toNat
            = clamped ((tget s.knots k.context).value.toNat + signed 48 (argAt k 0x18 8 % 281474976710656))
        ∧ WakesMet s t k.context false ∧ Answers t p 0 (toBytes 8 (tget t.knots k.context).value.toNat) ∧ t.mem = s.mem)) ∧
      (MayBegin s p 0x0502 k → k.context < 8192 →
        Completes (.knotAdd p) s (fun t => Answers t p 0x0021 [] ∧ t = { s with packets := t.packets })) ∧
      (MayBegin s p 0x0503 k → argAt k 0x18 8 ≤ (tget s.knots k.context).value.toNat → Completes (.knotWait p) s (fun t =>
        Answers t p 0 (toBytes 8 (tget s.knots k.context).value.toNat)
        ∧ t = { s with packets := t.packets, wakes := t.wakes })) ∧
      (MayBegin s p 0x0503 k → (tget s.knots k.context).value.toNat < argAt k 0x18 8 → s.waiters.length < 131072 →
        Completes (.knotWait p) s (fun t => answerOf t p = none
          ∧ t.waiters = s.waiters ++ [{ issuer := .command p, knot := k.context, target := argAt k 0x18 8 }]
          ∧ t = { s with packets := t.packets, waiters := t.waiters })) ∧
      (MayBegin s p 0x0504 k → Completes (.knotQuery p) s (fun t =>
        Answers t p 0 (knotBytes s k.context) ∧ t = { s with packets := t.packets }))) ∧
  (
    ∀ (s : State) (p : Nat) (k : Packet), getPacket s p = some k → k.opcode = 0x0503 → k.started = true → k.answer = none →
      hubRuns s = true → argAt k 0x20 4 ≠ 0 →
      Completes (.knotWaitTimeout p) s (fun t => Answers t p 0x0011 []
        ∧ t.waiters = s.waiters.filter (fun w => w.issuer != .command p)
        ∧ t.refusedWaits = s.refusedWaits.filter (fun w => w.issuer != .command p)
        ∧ t.weft.remoteOps = s.weft.remoteOps.filter (fun o => o.issuer != .command p)
        ∧ t = { s with packets := t.packets, waiters := t.waiters, refusedWaits := t.refusedWaits, weft := t.weft }))

/-- The check units as they are reached (R105 to R108): the hub's 16 by the host, a region controller's two by Pygrim.
The rows that claim and free a unit, write its options, START it with its preset and write its data port complete so,
and a result is read after every byte has been processed; a unit that a CHECK_RUN holds discards writes. CHECK_RUN
(R108, R356) takes the lowest-numbered free unit, restarts it with the options of the packet, runs it over the bytes
of a host or device buffer, and frees it; while the host's data cannot come it holds the unit with owner 0xFFFF; with
no free unit it returns ST_BUSY. Completion: CHECK_RUN, CHK_START, CHK_CTRL_WRITE, CHK_DATA_WRITE, CHK_RESULT_READ and
CHK_OWNER_WRITE answer a next state with their effects, from every state and operands that meet the conditions named.
Where it rests on the model's choices: log 38. -/
def Obligations.CheckUnitsAndRun : Prop :=
  (
    ∀ (s : State) (n : Nat) (value : Word), chkReached s n = true →
      ((tget s.chk n).owner = 0 → value.toNat % 65536 ≠ 0 → Completes (.chkOwnerWrite n value) s (fun t =>
        (tget t.chk n).owner = BitVec.ofNat 16 value.toNat ∧ (∀ m, m ≠ n → tget t.chk m = tget s.chk m)
        ∧ t = { s with chk := t.chk })) ∧
      ((tget s.chk n).owner ≠ 0xFFFF → value.toNat % 65536 = 0 → Completes (.chkOwnerWrite n value) s (fun t =>
        (tget t.chk n).owner = 0 ∧ (∀ m, m ≠ n → tget t.chk m = tget s.chk m) ∧ t = { s with chk := t.chk })) ∧
      ((tget s.chk n).owner ≠ 0 → value.toNat % 65536 ≠ 0 → Completes (.chkOwnerWrite n value) s (fun t =>
        tget t.chk n = tget s.chk n ∧ (∀ m, m ≠ n → tget t.chk m = tget s.chk m) ∧ t = { s with chk := t.chk })) ∧
      ((tget s.chk n).owner ≠ 0xFFFF → Completes (.chkStart n value) s (fun t =>
        (tget t.chk n).started = true ∧ (tget t.chk n).byteCount = 0 ∧ (tget t.chk n).fifo = []
        ∧ (tget t.chk n).poly = BitVec.ofNat 2 value.toNat ∧ (tget t.chk n).preset = bitOf value.toNat 2
        ∧ (tget t.chk n).reflect = bitOf value.toNat 3 ∧ (tget t.chk n).xorout = bitOf value.toNat 4
        ∧ (tget t.chk n).remainder = (if bitOf value.toNat 2 then 2 ^ chkWidth (value.toNat % 4) - 1 else 0)
        ∧ (∀ m, m ≠ n → tget t.chk m = tget s.chk m) ∧ t = { s with chk := t.chk })) ∧
      ((tget s.chk n).owner ≠ 0xFFFF → bitOf value.toNat 8 = false → Completes (.chkCtrlWrite n value) s (fun t =>
        tget t.chk n = { chkDrain (tget s.chk n) with
          poly := BitVec.ofNat 2 value.toNat, preset := bitOf value.toNat 2, reflect := bitOf value.toNat 3,
          xorout := bitOf value.toNat 4 }
        ∧ (∀ m, m ≠ n → tget t.chk m = tget s.chk m) ∧ t = { s with chk := t.chk })) ∧
      (∀ (offset : Nat) (b : Bytes), 0x10 ≤ offset → offset + b.length ≤ 0x18 → (tget s.chk n).owner ≠ 0xFFFF →
        ((tget s.chk n).started = false → Completes (.chkDataWrite n offset b) s (fun t =>
          tget t.chk n = { tget s.chk n with cfgErr := true } ∧ (∀ m, m ≠ n → tget t.chk m = tget s.chk m)
          ∧ t = { s with chk := t.chk })) ∧
        ((tget s.chk n).started = true → Completes (.chkDataWrite n offset b) s (fun t =>
          chkDrain (tget t.chk n) = b.foldl chkByte (chkDrain (tget s.chk n))
          ∧ (∀ m, m ≠ n → tget t.chk m = tget s.chk m) ∧ t = { s with chk := t.chk }))) ∧
      (∀ high : Bool, Completes (.chkResultRead n high) s (fun t =>
        tget t.chk n = chkDrain (tget s.chk n) ∧ (∀ m, m ≠ n → tget t.chk m = tget s.chk m)
        ∧ (n < 16 → t.pcie.tx = s.pcie.tx ++ [.completion (chkHalf high (chkDrain (tget s.chk n))) false]
          ∧ t = { s with chk := t.chk, pcie := { s.pcie with tx := t.pcie.tx } })
        ∧ (16 ≤ n → t = { s with
            chk := t.chk, delivered := { status := 0, data := chkHalf high (chkDrain (tget s.chk n)), poison := false } }))) ∧
      ((tget s.chk n).owner = 0xFFFF → ∀ (offset : Nat) (b : Bytes), 0x10 ≤ offset → offset + b.length ≤ 0x18 →
        Completes (.chkOwnerWrite n value) s (fun t => tget t.chk n = tget s.chk n) ∧
        Completes (.chkStart n value) s (fun t => tget t.chk n = tget s.chk n) ∧
        Completes (.chkCtrlWrite n value) s (fun t => tget t.chk n = tget s.chk n) ∧
        Completes (.chkDataWrite n offset b) s (fun t => tget t.chk n = tget s.chk n))) ∧
  (
    ∀ (s : State) (p : Nat) (k : Packet) (b : Bytes), MayBegin s p 0x0701 k →
      (∀ m, m < 16 → (tget s.chk m).command ≠ some p) → bufStatus s p false (bufB k) = 0 →
      (∀ n, n < 16 → (tget s.chk n).owner = 0 → (∀ m, m < n → (tget s.chk m).owner ≠ 0) →
        (∀ finds, (bufB k).host = true → s.pcie.d3hot = false → s.pcie.busMaster = true → (bufB k).len = b.length →
          Completes (.checkRun p (.bytes b) finds) s (fun t =>
            tget t.chk n = chkOver (tget s.chk n) (argAt k 0x10 4) b
            ∧ (tget t.chk n).owner = 0 ∧ Answers t p 0 (toBytes 8 (chkResult (tget t.chk n)) ++ toBytes 8 b.length)
            ∧ (∀ m, m ≠ n → tget t.chk m = tget s.chk m) ∧ t = { s with chk := t.chk, packets := t.packets })) ∧
        (∀ finds, (bufB k).host = true → 0 < (bufB k).len → s.pcie.d3hot = true →
          Completes (.checkRun p (.bytes b) finds) s (fun t =>
            tget t.chk n = { tget s.chk n with owner := 0xFFFF, command := some p }
            ∧ (∀ m, m ≠ n → tget t.chk m = tget s.chk m) ∧ t = { s with chk := t.chk })) ∧
        ((bufB k).host = false → (bufB k).addr + (bufB k).len ≤ 0xE020000000 → accessWaits s (bufB k).addr (bufB k).len = false →
          RangeVerifies s (bufB k).addr (bufB k).len → Completes (.checkRun p (.bytes []) []) s (fun t =>
            tget t.chk n = chkOver (tget s.chk n) (argAt k 0x10 4) (readBytes s.mem (bufB k).addr (bufB k).len)
            ∧ Answers t p 0 (toBytes 8 (chkResult (tget t.chk n)) ++ toBytes 8 (bufB k).len)
            ∧ (∀ m, m ≠ n → tget t.chk m = tget s.chk m)
            ∧ t = { s with chk := t.chk, packets := t.packets, throttled := t.throttled }))) ∧
      (∀ finds, (∀ n, n < 16 → (tget s.chk n).owner ≠ 0) →
        Completes (.checkRun p (.bytes b) finds) s (fun t => Answers t p 0x0011 [] ∧ t = { s with packets := t.packets })))

/-- PCI_SQ_CTRL (R313): a submission ring that is not ACTIVE, whose completion ring is enabled and whose place and
size keep R312, is enabled with HEAD and TAIL 0; without an enabled completion ring the write is refused with CFG_ERR;
ENABLE 0 stops fetching and changes nothing else. PCI_CQ_CTRL (R313): a completion ring that is not enabled and whose
place, size and vector keep R312 and R313 is enabled with TAIL 0, PHASE 1 and the freed index 0; a vector below 4 with
IRQ_EN is refused with CFG_ERR; a ring that no ACTIVE submission ring names is disabled, and one that is named is
refused with CFG_ERR. Completion: SQ_ENABLE, SQ_DISABLE, CQ_ENABLE and CQ_DISABLE answer a next state with their
effects, from every state and operands that meet the conditions named. Where it rests on the model's choices: log 33.
-/
def Obligations.RingEnables : Prop :=
  (
    ∀ (s : State) (q : Nat) (value : Word), Served s → q < 64 →
      (sqActive s q = false → (getCq s (value.toNat / 65536 % 64)).enable = true →
        7 ≤ value.toNat / 16 % 32 → value.toNat / 16 % 32 ≤ 16 → (getSq s q).base.toNat % 4096 = 0 →
        (bitOf value.toNat 1 = true → (getSq s q).base.toNat + 64 * 2 ^ (value.toNat / 16 % 32) ≤ 0x08000000) →
        (s.weft.manager = true ∨ (bitOf (getSq s q).target.toNat 18 = false ∧ bitOf (getSq s q).target.toNat 19 = false)) →
        Completes (.sqEnable q value) s (fun t =>
          getSq t q = { getSq s q with
            enable := true, head := 0, tail := 0, short := false, loc := bitOf value.toNat 1, sizeLog2 := BitVec.ofNat 5 (value.toNat / 16),
            weight := BitVec.ofNat 4 (value.toNat / 4096), cq := BitVec.ofNat 6 (value.toNat / 65536),
            cfgErr := (getSq s q).cfgErr && !bitOf value.toNat 3 }
          ∧ (∀ m, m ≠ q → getSq t m = getSq s m) ∧ t = { s with sqs := t.sqs })) ∧
      (sqActive s q = false → (getCq s (value.toNat / 65536 % 64)).enable = false →
        Completes (.sqEnable q value) s (fun t =>
          getSq t q = { getSq s q with cfgErr := true } ∧ (∀ m, m ≠ q → getSq t m = getSq s m) ∧ t = { s with sqs := t.sqs })) ∧
      Completes (.sqDisable q) s (fun t =>
        getSq t q = { getSq s q with enable := false } ∧ (∀ m, m ≠ q → getSq t m = getSq s m) ∧ t = { s with sqs := t.sqs })) ∧
  (
    ∀ (s : State) (q : Nat) (value : Word), Served s → q < 64 →
      ((getCq s q).enable = false → 4 ≤ value.toNat / 16 % 32 → value.toNat / 16 % 32 ≤ 16 →
        (getCq s q).base.toNat % 4096 = 0 →
        (bitOf value.toNat 1 = true → (getCq s q).base.toNat + 32 * 2 ^ (value.toNat / 16 % 32) ≤ 0x08000000) →
        (bitOf value.toNat 23 = true → 4 ≤ value.toNat / 65536 % 128) →
        Completes (.cqEnable q value) s (fun t =>
          getCq t q = { getCq s q with
            enable := true, tail := 0, phase := true, head := 0, reserved := 0, unread := 0, unsignalled := 0,
            loc := bitOf value.toNat 1, sizeLog2 := BitVec.ofNat 5 (value.toNat / 16),
            vector := BitVec.ofNat 7 (value.toNat / 65536), irqEn := bitOf value.toNat 23,
            cfgErr := (getCq s q).cfgErr && !bitOf value.toNat 2 }
          ∧ (∀ m, m ≠ q → getCq t m = getCq s m) ∧ t = { s with cqs := t.cqs })) ∧
      (bitOf value.toNat 23 = true → value.toNat / 65536 % 128 < 4 → Completes (.cqEnable q value) s (fun t =>
          getCq t q = { getCq s q with cfgErr := true } ∧ (∀ m, m ≠ q → getCq t m = getCq s m) ∧ t = { s with cqs := t.cqs })) ∧
      (cqNamed s q = false → Completes (.cqDisable q) s (fun t =>
          getCq t q = { getCq s q with enable := false } ∧ (∀ m, m ≠ q → getCq t m = getCq s m) ∧ t = { s with cqs := t.cqs })) ∧
      ((getCq s q).enable = true → cqNamed s q = true → Completes (.cqDisable q) s (fun t =>
          getCq t q = { getCq s q with cfgErr := true } ∧ (∀ m, m ≠ q → getCq t m = getCq s m) ∧ t = { s with cqs := t.cqs })))

/-- BAR4 (R310): ring pair q has SQ_TAIL at q × 0x400 and CQ_HEAD 4 bytes on, each with its index in bits [15:0];
reads return 0; a doorbell to a disabled ring is discarded, and one whose index is not below the ring's size is
discarded and sets CFG_ERR. Completion: SQ_TAIL, CQ_HEAD, REGISTER_WRITE and RC_REGISTER_READ answer a next state with
their effects, from every state and operands that meet the conditions named. -/
def Obligations.Doorbells : Prop :=
  ∀ (s : State) (q : Nat) (value : Word), Served s → q < 64 →
    exec (.registerWrite (.bar4 (q * 0x400)) 4 (value.setWidth 64)) s = exec (.sqTail q value) s ∧
    exec (.registerWrite (.bar4 (q * 0x400 + 4)) 4 (value.setWidth 64)) s = exec (.cqHead q value) s ∧
    (∀ offset, offset < 0x10000 → offset % 4 = 0 →
      exec (.rcRegisterRead (.bar4 offset) 4) s = .next { s with
        pcie := { s.pcie with tx := s.pcie.tx ++ [.completion [0, 0, 0, 0] false] } }) ∧
    ((getSq s q).enable = false → exec (.sqTail q value) s = .next s) ∧
    ((getSq s q).enable = true → 2 ^ (getSq s q).sizeLog2.toNat ≤ value.toNat % 65536 → Completes (.sqTail q value) s (fun t =>
      getSq t q = { getSq s q with cfgErr := true } ∧ (∀ m, m ≠ q → getSq t m = getSq s m) ∧ t = { s with sqs := t.sqs })) ∧
    ((getSq s q).enable = true → value.toNat % 65536 < 2 ^ (getSq s q).sizeLog2.toNat → Completes (.sqTail q value) s (fun t =>
      getSq t q = { getSq s q with tail := BitVec.ofNat 16 value.toNat, short := false } ∧ (∀ m, m ≠ q → getSq t m = getSq s m)
      ∧ t = { s with sqs := t.sqs })) ∧
    ((getCq s q).enable = false → exec (.cqHead q value) s = .next s) ∧
    ((getCq s q).enable = true → 2 ^ (getCq s q).sizeLog2.toNat ≤ value.toNat % 65536 → Completes (.cqHead q value) s (fun t =>
      getCq t q = { getCq s q with cfgErr := true } ∧ (∀ m, m ≠ q → getCq t m = getCq s m) ∧ t = { s with cqs := t.cqs })) ∧
    ((getCq s q).enable = true → value.toNat % 65536 < 2 ^ (getCq s q).sizeLog2.toNat → Completes (.cqHead q value) s (fun t =>
      getCq t q = { getCq s q with
        head := BitVec.ofNat 16 value.toNat,
        unread := (getCq s q).unread - (value.toNat % 65536 + 2 ^ (getCq s q).sizeLog2.toNat - (getCq s q).head.toNat)
          % 2 ^ (getCq s q).sizeLog2.toNat }
      ∧ (∀ m, m ≠ q → getCq t m = getCq s m) ∧ t = { s with cqs := t.cqs }))

/-- PACKET_FETCH (R314, R321) completes on a ring served by this device, in host memory or in the Warp Beam: HEAD
passes the packet's slots, an entry of its completion ring is reserved, and it joins the packets in flight, answered
at once when a check of R321 fails. REPLY_WRITE (R318, R319) of an answered packet of a ring whose completion ring
lies in host memory: the 32 bytes of the reply are written into the next entry, the packet is forgotten, and a reply
that is signalled at once sends the vector; while no request may go to the host the reply waits in order (R305).
Completion: PACKET_FETCH and REPLY_WRITE answer a next state with their effects, from every state and operands that
meet the conditions named. Where it rests on the model's choices: log 31, 32. -/
def Obligations.PacketFetchAndReply : Prop :=
  (
    ∀ (s : State) (q : Nat) (b : Bytes) (host : HostData), Served s → s.pcie.busMaster = true → (getSq s q).enable = true →
      (((getSq s q).loc = false ∧ host = .bytes b)
        ∨ ((getSq s q).loc = true ∧ b = ringBytes s (getSq s q) (getSq s q).head.toNat (1 + fieldAt b 0x0C 1 % 64)
          ∧ ∀ j, j < 1 + fieldAt b 0x0C 1 % 64 → Verifies s
            (wbAddr ((getSq s q).base.toNat + 64 * (((getSq s q).head.toNat + j) % sqSize (getSq s q))) / 256))) →
      bitOf (getSq s q).target.toNat 18 = false → bitOf (getSq s q).target.toNat 19 = false →
      0 < sqWaiting (getSq s q) → 1 + fieldAt b 0x0C 1 % 64 ≤ sqWaiting (getSq s q) →
      b.length = 64 * (1 + fieldAt b 0x0C 1 % 64) → s.packets.length < 4096 →
      (getCq s (getSq s q).cq.toNat).unread + (getCq s (getSq s q).cq.toNat).reserved < 2 ^ (getCq s (getSq s q).cq.toNat).sizeLog2.toNat →
      (getSq s q).served ≤ (getSq s q).weight.toNat →
      (packetStatus (.ring q) b = 0 → deviceStatus s (fieldAt b 0 2) = 0 → Completes (.packetFetch q host) s (fun t =>
        t.packets = s.packets ++ [packetOf s.nextPacket (.ring q) b
          (((getSq s q).head.toNat + 1 + fieldAt b 0x0C 1 % 64) % 2 ^ (getSq s q).sizeLog2.toNat) (getSq s q).cq.toNat]
        ∧ (getSq t q).head.toNat = ((getSq s q).head.toNat + 1 + fieldAt b 0x0C 1 % 64) % 2 ^ (getSq s q).sizeLog2.toNat % 65536
        ∧ (getCq t (getSq s q).cq.toNat).reserved = (getCq s (getSq s q).cq.toNat).reserved + 1
        ∧ t = { s with sqs := t.sqs, cqs := t.cqs, packets := t.packets, nextPacket := s.nextPacket + 1 })) ∧
      (packetStatus (.ring q) b = 0x0020 → Completes (.packetFetch q host) s (fun t =>
        t.packets.map (·.answer) = s.packets.map (·.answer) ++ [some { status := 0x0020, result := List.replicate 16 0 }]
        ∧ t.nextPacket = s.nextPacket + 1)) ∧
      (packetStatus (.ring q) b = 0x0030 → Completes (.packetFetch q host) s (fun t =>
        t.packets.map (·.answer) = s.packets.map (·.answer) ++ [some { status := 0x0030, result := List.replicate 16 0 }]
        ∧ t.nextPacket = s.nextPacket + 1))) ∧
  (
    ∀ (s : State) (p q : Nat) (k : Packet) (a : Answer), getPacket s p = some k → k.answer = some a → k.src = .ring q →
      k.follows = none → hubRuns s = true →
      (hostOpen s = false → s.pcie.held.contains (.reply p) = false →
        exec (.replyWrite p) s = .next { s with pcie := { s.pcie with held := s.pcie.held ++ [.reply p] } }) ∧
      (hostOpen s = true → (getCq s k.cq).loc = false → (getCq s k.cq).tail.toNat + 1 < 2 ^ (getCq s k.cq).sizeLog2.toNat →
      ((getCq s k.cq).irqEn = false → Completes (.replyWrite p) s (fun t =>
        t.packets = s.packets.filter (fun j => j.id != k.id)
        ∧ t.pcie.tx = s.pcie.tx ++ [.memWrite ((getCq s k.cq).base.toNat + 32 * (getCq s k.cq).tail.toNat)
            (replyBytes k.tag a.status q (getCq s k.cq).phase k.sqHead a.result) false]
        ∧ getCq t k.cq = { getCq s k.cq with
            tail := (getCq s k.cq).tail + 1, reserved := (getCq s k.cq).reserved - 1, unread := (getCq s k.cq).unread + 1,
            unsignalled := (getCq s k.cq).unsignalled + 1 }
        ∧ t = { s with packets := t.packets, cqs := t.cqs, pcie := { s.pcie with tx := t.pcie.tx } })) ∧
      ((getCq s k.cq).irqEn = true → k.irq = true → vectorOpen s (getCq s k.cq).vector.toNat = true →
        Completes (.replyWrite p) s (fun t =>
          t.pcie.tx = s.pcie.tx ++ [.memWrite ((getCq s k.cq).base.toNat + 32 * (getCq s k.cq).tail.toNat)
              (replyBytes k.tag a.status q (getCq s k.cq).phase k.sqHead a.result) false,
            .msix (getCq s k.cq).vector.toNat]
          ∧ (getCq t k.cq).unsignalled = 0))))

/-- The timers and heads of the rings of replies and records (R319, R500, R502): a coalescing time that passes with
replies unsignalled sends the ring's vector, one with records unsignalled sends vector 1, and a head moves only
forward and never past the tail. The capacity report (R513) and the darn-map extension (R488): an update shows the
states that wait in CAUSES, moves GENERATION by 2, and sends vector 0 when DEGRADED changes; an append writes the
oldest entry that waits while fewer than 16,380 entries stand. Completion: CQ_COALESCE_TIMER, HUB_ERR_HEAD,
HUB_TLM_HEAD, ERROR_VECTOR_TIMER, CAPACITY_REPORT_UPDATE and DARN_APPEND answer a next state with their effects, from
every state and operands that meet the conditions named. Where it rests on the model's choices: log 34. -/
def Obligations.RingHeadsAndReports : Prop :=
  (
    ∀ (s : State) (q : Nat) (value : Word),
      ((getCq s q).irqEn = true → 0 < (getCq s q).unsignalled → vectorOpen s (getCq s q).vector.toNat = true →
        hostOpen s = true → Completes (.cqCoalesceTimer q) s (fun t =>
          t.pcie.tx = s.pcie.tx ++ [.msix (getCq s q).vector.toNat] ∧ getCq t q = { getCq s q with unsignalled := 0 }
          ∧ (∀ m, m ≠ q → getCq t m = getCq s m) ∧ t = { s with cqs := t.cqs, pcie := { s.pcie with tx := t.pcie.tx } })) ∧
      (s.errors.unsignalled ≠ 0 → vectorOpen s 1 = true → hostOpen s = true →
        exec .errorVectorTimer s = .next { s with
          errors := { s.errors with unsignalled := 0 }, pcie := { s.pcie with tx := s.pcie.tx ++ [.msix 1] } }) ∧
      (s.errors.unsignalled ≠ 0 → vectorOpen s 1 = false → s.pcie.msixPending = [] →
        exec .errorVectorTimer s = .next { s with
          errors := { s.errors with unsignalled := 0 }, pcie := { s.pcie with msixPending := [1] } }) ∧
      (3 ≤ s.pcie.phase.toNat → (value - s.errors.head).toNat ≤ (s.errors.tail - s.errors.head).toNat →
        exec (.hubErrHead value) s = .next { s with errors := { s.errors with head := value } }) ∧
      ((s.errors.tail - s.errors.head).toNat < (value - s.errors.head).toNat → exec (.hubErrHead value) s = .next s) ∧
      (3 ≤ s.pcie.phase.toNat → (value - s.errors.tlmHead).toNat ≤ (s.errors.tlmTail - s.errors.tlmHead).toNat →
        value.toNat % 64 = 0 → exec (.hubTlmHead value) s = .next { s with errors := { s.errors with tlmHead := value } }) ∧
      ((s.errors.tlmTail - s.errors.tlmHead).toNat < (value - s.errors.tlmHead).toNat → exec (.hubTlmHead value) s = .next s)) ∧
  (
    ∀ (s : State),
      Completes .capacityReportUpdate s (fun t =>
        t.capacity.pendingSet = [] ∧ t.capacity.pendingClear = [] ∧ t.capacity.valid = true
        ∧ t.capacity.generation = s.capacity.generation + 2
        ∧ t.capacity.causes = t.capacity.standing.foldl (fun m e => m ||| BitVec.ofNat 64 (2 ^ e.1)) 0
        ∧ t.pcie.degradedShown = (t.capacity.causes != 0)
        ∧ (∀ e ∈ s.capacity.pendingSet, e ∈ t.capacity.standing)
        ∧ t = { s with capacity := t.capacity, pcie := t.pcie }) ∧
      (∀ e rest, s.boot.appendQueue = e :: rest → s.flash.darn.length < 16380 → Completes .darnAppend s (fun t =>
        t.flash.darn = s.flash.darn ++ [e] ∧ t.boot.appendQueue = rest ∧ t.flash.darnValid = true
        ∧ t = { s with boot := { s.boot with appendQueue := rest }, flash := t.flash })))

/-- MEMORY_READ and MEMORY_WRITE complete for an issuer that R45 refuses nothing, of memory whose blocks verify (R71,
R78) and that no controller holds back: a read delivers the bytes without POISON, a write stores exactly its bytes,
and a read of a poisoned block delivers POISON with ST_POISON (R73). An access to a near channel that serves nothing
enters its queue (R189, R216). Completion: MEMORY_READ and MEMORY_WRITE answer a next state with their effects, from
every state and operands that meet the conditions named. Where it rests on the model's choices: log 17, 24, 36, 37,
102, 103. -/
def Obligations.MemoryAccess : Prop :=
  ∀ (s : State) (i : Issuer) (a n : Nat) (b : Bytes) (restarted : Bool), 0 < n →
    a + n ≤ 0xE020000000 → (∀ x ∈ queuesOf s a n, queueOf s x = []) →
    (heldAt s a n = none →
      (accessStatus s i false a n = 0 → RangeVerifies s a n → Completes (.memoryRead i a n []) s (fun t =>
        t.delivered = { status := 0, data := readBytes s.mem a n, poison := false }
        ∧ t = { s with delivered := t.delivered, throttled := t.throttled })) ∧
      (accessStatus s i false a n = 0 → a % 256 + n ≤ 256 → inSeqTable (a / 256) = false →
        checkTag (a / 256) (readBytes s.mem (a / 256 * 256) 256) (tagOf s.mem (a / 256)) = some (true, restarted) →
        (tagOf s.mem (a / 256)).poison = true → Completes (.memoryRead i a n []) s (fun t =>
          t.delivered = { status := 0x0031, data := readBytes s.mem a n, poison := true } ∧ t.mem = s.mem)) ∧
      (b.length = n → accessStatus s i true a n = 0 → RangeVerifies s a n → Completes (.memoryWrite i a b restarted []) s (fun t =>
        Stores s t a b ∧ t.delivered = { status := 0, data := [], poison := false }
        ∧ t = { s with mem := t.mem, delivered := t.delivered }))) ∧
    (∀ ch finds, heldAt s a n = some (.near ch) →
      (accessStatus s i false a n = 0 → exec (.memoryRead i a n finds) s
        = .next (modChan s ch (fun c => { c with queue := [{ issuer := i, addr := a, length := n, finds := finds }] }))) ∧
      (b.length = n → accessStatus s i true a n = 0 → exec (.memoryWrite i a b restarted finds) s
        = .next (modChan s ch (fun c => { c with
          queue := [{ issuer := i, addr := a, length := n, write := some (b, restarted), finds := finds }] }))))

/-- BAR2 (R87, R309): BAR2_READ and BAR2_WRITE complete: a read that R87 allows returns the bytes in completions
without POISON, a read that it refuses returns 0xFF and a refused write stores nothing, and a write that it allows
stores exactly its bytes. A block whose copy loses bits before PCIe transmit fails the check there: its data leaves
poisoned, one record is written, and memory stays (R71, R74). Completion: BAR2_READ and BAR2_WRITE answer a next state
with their effects, from every state and operands that meet the conditions named. Where it rests on the model's
choices: log 17. -/
def Obligations.Bar2Window : Prop :=
  ∀ (s : State) (off n : Nat) (b : Bytes), Served s → 0 < n → off + n ≤ 536870912 →
    (accessStatus s .bar2 false (0xE000000000 + off) n = 0 → RangeVerifies s (0xE000000000 + off) n →
      Completes (.bar2Read off n []) s (fun t => ∃ l, t.pcie.tx = s.pcie.tx ++ l
        ∧ l.flatMap completionBytes = readBytes s.mem (0xE000000000 + off) n
        ∧ (∀ x ∈ l, ∃ d, x = .completion d false) ∧ t = { s with pcie := { s.pcie with tx := t.pcie.tx } })) ∧
    (accessStatus s .bar2 false (0xE000000000 + off) n ≠ 0 → Completes (.bar2Read off n []) s (fun t =>
      t.pcie.tx.getLast? = some (.completion (List.replicate n 0xFF) false))) ∧
    (b.length = n → accessStatus s .bar2 true (0xE000000000 + off) n = 0 → RangeVerifies s (0xE000000000 + off) n →
      Completes (.bar2Write off b []) s (fun t => Stores s t (0xE000000000 + off) b ∧ t = { s with mem := t.mem })) ∧
    (b.length = n → accessStatus s .bar2 true (0xE000000000 + off) n ≠ 0 → s.errors.ringUp = false →
      Completes (.bar2Write off b []) s (fun t => t.mem = s.mem ∧ t.errors.early.length = s.errors.early.length + 1)) ∧
    (∀ bits : List Nat, accessStatus s .bar2 false (0xE000000000 + off) n = 0 → off % 256 + n ≤ 256 →
      RangeVerifies s (0xE000000000 + off) n → s.errors.ringUp = false →
      crc32c (flipCopy (readBytes s.mem (0xE000000000 + off / 256 * 256) 256) bits)
        ≠ crc32c (readBytes s.mem (0xE000000000 + off / 256 * 256) 256) →
      Completes (.bar2Read off n [(0xE0000000 + off / 256, .inFlight bits)]) s (fun t =>
        (∃ d, t.pcie.tx = s.pcie.tx ++ [.completion d true]) ∧ t.mem = s.mem
        ∧ t.errors.early.length = s.errors.early.length + 1))

/-- MEM_READ to the host, MEM_WRITE from the parameter blocks and from the host, MEM_FILL, and MEM_COPY between ranges
of the device that do not meet (R352, Table 12-8), of memory whose blocks verify: the bytes move, nothing else
changes, and RESULT gives their number. Completion: MEM_READ, MEM_WRITE, MEM_FILL and MEM_COPY answer a next state
with their effects, from every state and operands that meet the conditions named. Where it rests on the model's
choices: log 35. -/
def Obligations.MemoryCommands : Prop :=
  ∀ (s : State) (p : Nat) (k : Packet),
    (MayBegin s p 0x0401 k → (bufA k).host = false → (bufB k).host = true → (bufA k).len = (bufB k).len →
      s.pcie.d3hot = false → s.pcie.busMaster = true → (bufA k).addr + (bufA k).len ≤ 0xE020000000 →
      accessStatus s (.command p) false (bufA k).addr (bufA k).len = 0 → accessWaits s (bufA k).addr (bufA k).len = false →
      RangeVerifies s (bufA k).addr (bufA k).len → Completes (.memRead p []) s (fun t =>
        (∃ l, t.pcie.tx = s.pcie.tx ++ l ∧ l.flatMap postedBytes
          = (rangeFrom (bufB k).addr (bufB k).len).zip (readBytes s.mem (bufA k).addr (bufA k).len))
        ∧ Answers t p 0 (toBytes 8 (bufA k).len) ∧ t.mem = s.mem)) ∧
    ((bufB k).host = false → (bufB k).addr + (bufB k).len ≤ 0xE020000000 →
      accessStatus s (.command p) true (bufB k).addr (bufB k).len = 0 →
      accessWaits s (bufB k).addr (bufB k).len = false → RangeVerifies s (bufB k).addr (bufB k).len →
      (MayBegin s p 0x0402 k → k.params ≠ [] → leNat (k.args.take 16) = 0 → (bufB k).len ≤ k.params.length →
        k.params.length < (bufB k).len + 64 → Completes (.memWrite p (.bytes []) []) s (fun t =>
          Stores s t (bufB k).addr (k.params.take (bufB k).len) ∧ Answers t p 0 (toBytes 8 (bufB k).len)
          ∧ t = { s with mem := t.mem, packets := t.packets })) ∧
      (∀ b : Bytes, MayBegin s p 0x0402 k → k.params = [] → (bufA k).host = true → (bufA k).len = (bufB k).len →
        b.length = (bufA k).len → s.pcie.d3hot = false → s.pcie.busMaster = true →
        Completes (.memWrite p (.bytes b) []) s (fun t =>
          Stores s t (bufB k).addr b ∧ Answers t p 0 (toBytes 8 (bufB k).len)
          ∧ t = { s with mem := t.mem, packets := t.packets })) ∧
      (MayBegin s p 0x0403 k → Completes (.memFill p []) s (fun t =>
        Stores s t (bufB k).addr ((List.range (bufB k).len).map (fun i => (k.args.take 4).getD (i % 4) 0))
        ∧ Answers t p 0 (toBytes 8 (bufB k).len) ∧ t = { s with mem := t.mem, packets := t.packets })) ∧
      (MayBegin s p 0x0404 k → (bufA k).host = false → (bufA k).len = (bufB k).len →
        (bufA k).addr + (bufA k).len ≤ 0xE020000000 →
        ((bufA k).addr + (bufA k).len ≤ (bufB k).addr ∨ (bufB k).addr + (bufB k).len ≤ (bufA k).addr) →
        accessStatus s (.command p) false (bufA k).addr (bufA k).len = 0 → accessWaits s (bufA k).addr (bufA k).len = false →
        RangeVerifies s (bufA k).addr (bufA k).len → Completes (.memCopy p (.bytes []) []) s (fun t =>
          Stores s t (bufB k).addr (readBytes s.mem (bufA k).addr (bufA k).len)
          ∧ Answers t p 0 (toBytes 8 (bufB k).len)
          ∧ t = { s with mem := t.mem, packets := t.packets, throttled := t.throttled })))

/-- The upkeep of the stores: a corrected far block is written back (R253), a port of the Warp Beam takes the weight
of Table 03-1 (R82, R84), a refresh is performed with those owed before it, or owed while the controller postpones it
or a run's bank is active and fewer than four would be owed (R204, R225), and a scrub of a row whose blocks verify
changes nothing, while an uncorrectable word is counted (R72, R200). Which refreshes a controller postpones is the
step's input (log 93). Completion: FAR_CORRECTION_WRITEBACK, WB_REWEIGHT, REFRESH_DUE and SCRUB_READ answer a next
state with their effects, from every state and operands that meet the conditions named. Where it rests on the model's
choices: log 60, 93. -/
def Obligations.StoreUpkeep : Prop :=
  ∀ (s : State) (pc port ch bank row : Nat), ch < 65536 → bank < 16 → row < 512 → port < 10 →
    ((getPc s pc).selfRefresh = false → (getPc s pc).tg.running = false → Completes (.farCorrectionWriteback pc) s (fun t =>
      (getPc t pc).writebacks = (getPc s pc).writebacks.drop 1 ∧ (∀ m, m ≠ pc → getPc t m = getPc s m)
      ∧ t = { s with pcs := t.pcs })) ∧
    Completes (.wbReweight port) s (fun t =>
      (port < 4 → tget t.wbWeights port = if (tget s.dies port).heldOut then 0 else (tget s.ports port).modules)
      ∧ (port = 7 → tget t.wbWeights port = b2n s.pcie.linkUp) ∧ (port = 8 → tget t.wbWeights port = 1)
      ∧ (port = 9 → tget t.wbWeights port = 16)
      ∧ (∀ m, m ≠ port → tget t.wbWeights m = tget s.wbWeights m) ∧ t = { s with wbWeights := t.wbWeights }) ∧
    ((layerOf s ch).selfRefresh = false →
      (∀ postpone : Bool, (postpone = false ∧ (getChan s ch).run = none) ∨ 3 ≤ tget (getChan s ch).refreshOwed bank →
        Completes (.refreshDue ch bank postpone) s (fun t =>
          tget (getChan t ch).refreshes bank
            = tget (getChan s ch).refreshes bank + (tget (getChan s ch).refreshOwed bank + 1)
          ∧ tget (getChan t ch).refreshOwed bank = 0 ∧ t = { s with chans := t.chans })) ∧
      (∀ postpone : Bool, tget (getChan s ch).refreshOwed bank < 3 →
        (postpone = true ∨ ∃ r, (getChan s ch).run = some r ∧ (tget r.banks bank).state = .active) →
        Completes (.refreshDue ch bank postpone) s (fun t =>
          tget (getChan t ch).refreshOwed bank = tget (getChan s ch).refreshOwed bank + 1
          ∧ (getChan t ch).refreshes = (getChan s ch).refreshes ∧ t = { s with chans := t.chans }))) ∧
    (chanHeld s ch = false → (layerOf s ch).inReset = false → bankMappedOut s (ch * 16 + bank) = false →
      ((∀ blk ∈ rangeFrom ((ch * 16 + bank) * 2048 + row * 4) 4, Verifies s blk) →
        exec (.scrubRead ch bank row []) s = .next s) ∧
      (∀ blk word syndrome, blk = (ch * 16 + bank) * 2048 + row * 4 + 3 →
        (∀ x ∈ rangeFrom ((ch * 16 + bank) * 2048 + row * 4) 4, Verifies s x) →
        Completes (.scrubRead ch bank row [(blk, .uncorrectable word syndrome)]) s (fun t =>
          (getChan t ch).eccUncorr = satAdd (getChan s ch).eccUncorr 1)))

/-- Registers as software reaches them (R306, R308): a plain register takes the value, an RW1C register loses the bits
written as 1, an RC register returns its value and clears, an access that R306 does not allow is discarded and
recorded, and the aperture reaches the control-space address that PCI_CTL_WINDOW selects. The configuration space
answers while the link is up, in every phase (R298, R299): the identification reads as Table 11-1 has it, and Bus
Master Enable takes its bit. Completion: REGISTER_WRITE, RC_REGISTER_READ and CONTROL_APERTURE_ACCESS answer a next
state with their effects, from every state and operands that meet the conditions named. Where it rests on the model's
choices: log 92, 120. -/
def Obligations.RegisterAccess : Prop :=
  ∀ (s : State) (value : Word64) (core off : Nat), core < 8192 → off < 0x80000 → off % 4 = 0 →
    (Served s →
    exec (.registerWrite (.bar0 0x20) 4 value) s = .next { s with pcie := { s.pcie with ctlWindow := BitVec.ofNat 21 value.toNat } } ∧
    (exec (.registerWrite (.bar0 0x22) 4 value) s = .next (recordPcie s 0x0502 .contained 0x22)) ∧
    (3 ≤ s.pcie.phase.toNat → exec (.rcRegisterRead (.bar0 0x408) 4) s = .next { s with
      errors := { s.errors with dropped := 0 },
      pcie := { s.pcie with tx := s.pcie.tx ++ [.completion (toBytes 4 s.errors.dropped.toNat) false] } }) ∧
    (ctlAway s (.core core 0) = false →
      Completes (.registerWrite (.ctl (0xF180000000 + core / 2048 * 0x100000000 + core % 2048 * 0x10000 + 4)) 4 value) s (fun t =>
        (getCore t core).vecIv = ((getCore s core).vecIv && !bitOf value.toNat 0)
        ∧ (getCore t core).vecNx = ((getCore s core).vecNx && !bitOf value.toNat 4)
        ∧ (∀ c, c ≠ core → getCore t c = getCore s c) ∧ t = { s with cores := t.cores }) ∧
      Completes (.rcRegisterRead (.ctl (0xF180000000 + core / 2048 * 0x100000000 + core % 2048 * 0x10000 + 8)) 4) s (fun t =>
        t.delivered = { status := 0, data := toBytes 4 (getCore s core).stallDry.toNat, poison := false }
        ∧ (getCore t core).stallDry = 0 ∧ (∀ c, c ≠ core → getCore t c = getCore s c)
        ∧ t = { s with cores := t.cores, delivered := t.delivered })) ∧
    (inControl (s.pcie.ctlWindow.toNat * 0x80000 + off) = true →
      exec (.controlApertureAccess off 4 (some value)) s
        = exec (.registerWrite (.ctl (s.pcie.ctlWindow.toNat * 0x80000 + off)) 4 value) s ∧
      Completes (.controlApertureAccess off 4 none) s (fun t =>
        t.pcie.tx = s.pcie.tx ++ [.completion (toBytes 4 (ctlRead s (s.pcie.ctlWindow.toNat * 0x80000 + off)).2) false])) ∧
    (inControl (s.pcie.ctlWindow.toNat * 0x80000 + off) = false →
      exec (.controlApertureAccess off 4 (some value)) s
        = .next (recordPcie s 0x0502 .contained (s.pcie.ctlWindow.toNat * 0x80000 + off)))) ∧
    (s.pcie.linkUp = true →
      exec (.rcRegisterRead (.config 0) 4) s = .next { s with
        pcie := { s.pcie with tx := s.pcie.tx ++ [.completion (toBytes 4 0x42041FD7) false] } } ∧
      (bitOf value.toNat 2 = false → Completes (.registerWrite (.config 4) 2 value) s (fun t =>
        t.pcie.busMaster = false ∧ t = { s with pcie := { s.pcie with busMaster := false, config := t.pcie.config } })))

/-- COLL_DEFINE completes (R100, R101, R354): 0xFF undefines a collective, a definition that keeps the rules is
stored, one that breaks them is refused with ST_BAD_PACKET, and one of a collective that runs with ST_BUSY.
COLL_START, COLL_REDUCE and COLL_PEER_REDUCE complete (Table 03-6, R102): the start registers the run, which waits for
its contributors by the values of the knots at the start; the reduction engine reduces the local slots, in the order
that the step gives, into the result slot and, with no peers, ARRIVEs the result knot and answers; a peer's data in an
all-gather is copied to its rank's place, with NaNs as R89 has them. Completion: COLL_DEFINE, COLL_START, COLL_REDUCE
and COLL_PEER_REDUCE answer a next state with their effects, from every state and operands that meet the conditions
named. Where it rests on the model's choices: log 16, 39, 107. -/
def Obligations.Collectives : Prop :=
  (
    ∀ (s : State) (p : Nat) (k : Packet), MayBegin s p 0x0601 k → k.context < 256 →
      ((getColl s k.context).run = none → argAt k 0x10 1 = 0xFF → Completes (.collDefine p) s (fun t =>
        getColl t k.context = {} ∧ Answers t p 0 [] ∧ (∀ m, m ≠ k.context → getColl t m = getColl s m)
        ∧ t = { s with colls := t.colls, packets := t.packets })) ∧
      ((getColl s k.context).run = none → argAt k 0x10 1 ≠ 0xFF → collOk k (collDefOf k) = true →
        Completes (.collDefine p) s (fun t => getColl t k.context = { def? := some (collDefOf k) } ∧ Answers t p 0 []
          ∧ (∀ m, m ≠ k.context → getColl t m = getColl s m) ∧ t = { s with colls := t.colls, packets := t.packets })) ∧
      ((getColl s k.context).run = none → argAt k 0x10 1 ≠ 0xFF → collOk k (collDefOf k) = false →
        Completes (.collDefine p) s (fun t => Answers t p 0x0020 [] ∧ t = { s with packets := t.packets })) ∧
      ((getColl s k.context).run ≠ none →
        Completes (.collDefine p) s (fun t => Answers t p 0x0011 [] ∧ t = { s with packets := t.packets }))) ∧
  (
    ∀ (s : State) (n : Nat) (d : CollDef), (getColl s n).def? = some d → n < 256 →
      (∀ p k, MayBegin s p 0x0602 k → k.context = n → (getColl s n).run = none → d.contributors ≠ [] →
        Completes (.collStart p) s (fun t => answerOf t p = none ∧ t.mem = s.mem ∧ t.knots = s.knots
          ∧ ∃ r, (getColl t n).run = some r ∧ r.packet = p ∧ r.reduced = false
            ∧ r.contribTarget = (tget s.knots d.contribKnot).value.toNat + d.contributors.length
            ∧ r.peerTargets = d.peers.map (fun e => (tget s.knots e.2.1).value.toNat + 1))) ∧
      (∀ r w k, (getColl s n).run = some r → r.reduced = false → r.poisoned = false → collWake s n 0 = some w →
        d.type = 0 → d.peers = [] → getPacket s r.packet = some k → k.answer = none →
        (∀ v ∈ s.waiters, v.issuer ≠ .command r.packet) → (∀ v ∈ s.weft.writes, v.issuer ≠ .reduction n) →
        (∀ o ∈ d.contributors, RangeVerifies s (0xE008000000 + o) (d.elements * collElem d.fmt)
          ∧ o + d.elements * collElem d.fmt ≤ 0x10000000) →
        RangeVerifies s (0xE008000000 + d.resultOffset) (d.elements * collElem d.fmt) →
        d.resultOffset + d.elements * collElem d.fmt ≤ 0x10000000 →
        ∀ order, isOrder d.contributors.length order = true → Completes (.collReduce n order []) s (fun t =>
          Stores s t (0xE008000000 + d.resultOffset) (reduceBytes d.fmt d.opMax d.elements (order.map (fun i =>
            readBytes s.mem (0xE008000000 + d.contributors.getD i 0) (d.elements * collElem d.fmt)))).1
          ∧ (tget t.knots d.resultKnot).value.toNat = clamped ((tget s.knots d.resultKnot).value.toNat + 1)
          ∧ (getColl t n).run = none ∧ (answerOf t r.packet).map (·.status) = some 0)) ∧
      (∀ r w i dev knot slot, (getColl s n).run = some r → r.reduced = true → r.peersDone.contains i = false →
        receivesFrom d i = true → collWake s n (i + 1) = some w → d.peers[i]? = some (dev, knot, slot) →
        d.type = 2 → d.resultOffset + collN d * d.elements * collElem d.fmt ≤ 0x10000000 →
        slot + d.elements * collElem d.fmt ≤ 0x10000000 → peerRank d i < collN d →
        RangeVerifies s (0xE008000000 + slot) (d.elements * collElem d.fmt) →
        RangeVerifies s (0xE008000000 + (d.resultOffset + peerRank d i * (d.elements * collElem d.fmt))) (d.elements * collElem d.fmt) →
        Completes (.collPeerReduce n i []) s (fun t =>
          Stores s t (0xE008000000 + (d.resultOffset + peerRank d i * (d.elements * collElem d.fmt)))
            (reduceBytes d.fmt d.opMax d.elements [readBytes s.mem (0xE008000000 + slot) (d.elements * collElem d.fmt)]).1)))

/-- The PCIe events complete (R300, R302, R303, R305): PERST# and a hot reset order a device cold reset and take the
link down, a function-level reset orders a warm reset and clears the configuration registers but for those of AER,
D3hot or Bus Master Enable 0 closes the host and D0 releases what waited in its order, and a link trained below 128
GT/s or ×16 is a degraded state. The power and clock pins (R519, R523, R524): PWROK rising samples the straps; PWROK
falling leaves what a device cold reset leaves, with every byte of memory 0; without the reference every clock stops
and memory stays. Completion: PERST, PCIE_HOT_RESET, FUNCTION_LEVEL_RESET, D3HOT_ENTRY, D0_RESTORE, PCIE_LINK_TRAINED,
PWROK_RISE, PWROK_FALL and REFCLK_LOSS answer a next state with their effects, from every state and operands that meet
the conditions named. Where it rests on the model's choices: log 2, 4, 120. -/
def Obligations.PcieAndPins : Prop :=
  (
    ∀ (s : State) (speed width : Nat), s.pins.pwrok = true → s.pins.refclkLost = false →
      Completes .perst s (fun t => t.pcie = { s.pcie with linkUp := false }
        ∧ t.resets = s.resets ++ [{ scope := .cold, unit := 0, cause := .pcie, start := (tget s.counters 4).toNat }]
        ∧ t.mem = s.mem ∧ t.packets = s.packets) ∧
      Completes .pcieHotReset s (fun t => t.pcie = { s.pcie with linkUp := false }
        ∧ t.resets = s.resets ++ [{ scope := .cold, unit := 0, cause := .pcie, start := (tget s.counters 4).toNat }]
        ∧ t.mem = s.mem ∧ t.packets = s.packets) ∧
      (s.pcie.linkUp = true → Completes .functionLevelReset s (fun t =>
        t.pcie = { s.pcie with
          d3hot := false, busMaster := false, msixEnable := false, msixMaskAll := false, config := stickyConfig s.pcie.config
          msixEntry := [], msixUnmasked := [], msixPending := [] }
        ∧ t.resets = s.resets ++ [{ scope := .warm, unit := 0, cause := .pcie, start := (tget s.counters 4).toNat }]
        ∧ t.mem = s.mem ∧ t.packets = s.packets)) ∧
      (s.pcie.linkUp = true →
        exec (.d3hotEntry true) s = .next { s with pcie := { s.pcie with d3hot := true } } ∧
        exec (.d3hotEntry false) s = .next { s with pcie := { s.pcie with busMaster := false } } ∧
        exec .d0Restore s = .next (s.pcie.held.foldl releaseHeld { s with pcie := { s.pcie with
          d3hot := false, busMaster := true, held := [] } }) ∧
        ((∀ p, .reply p ∉ s.pcie.held) → exec .d0Restore s = .next { s with pcie := { s.pcie with
          d3hot := false, busMaster := true, tx := s.pcie.tx ++ s.pcie.held, held := [] } })) ∧
      (128 ≤ speed → 16 ≤ width → Completes (.pcieLinkTrained speed width) s (fun t =>
        t.pcie = { s.pcie with linkUp := true, speed := speed, width := width }
        ∧ (12, none) ∉ t.capacity.pendingSet ∧ tget t.wbWeights 7 = 1
        ∧ t = { s with pcie := t.pcie, capacity := t.capacity, wbWeights := t.wbWeights })) ∧
      (speed < 128 → Completes (.pcieLinkTrained speed width) s (fun t =>
        t.pcie = { s.pcie with linkUp := true, speed := speed, width := width }
        ∧ (12, none) ∈ t.capacity.pendingSet ∧ tget t.wbWeights 7 = 1
        ∧ t = { s with pcie := t.pcie, capacity := t.capacity, wbWeights := t.wbWeights }))) ∧
  (
    ∀ (s : State) (straps : Straps),
      (s.pins.pwrok = false →
        exec (.pwrokRise straps) s = .next { s with pins := { pwrok := true, refclkLost := false, straps := straps } }) ∧
      (s.pins.pwrok = true → Completes .pwrokFall s (fun t => t.pins = { s.pins with pwrok := false } ∧ t.flash = s.flash
        ∧ t.mem = {} ∧ t.cores = [] ∧ t.slots = [] ∧ t.seqs = [] ∧ t.knots = [] ∧ t.packets = [] ∧ t.pcie.ready = false
        ∧ t.pending = s.pending)) ∧
      (s.pins.pwrok = true → Completes .refclkLoss s (fun t => t.pins = { s.pins with refclkLost := true }
        ∧ (∀ d, d < 6 → (tget t.dies d).clocksStopped = true) ∧ t = { s with pins := t.pins, dies := t.dies })))

/-- Device resets complete (R43, R207, R257, R304, R464, Table 17-7): a warm reset that was ordered clears the Warp
Beam, the core stores, the rings, knots and packets, keeps near and far memory in self-refresh, the flash, the power
cap and the log, and counts itself; a cold reset keeps only the flash and what the board holds. Completion:
DEVICE_WARM_RESET and DEVICE_COLD_RESET answer a next state with their effects, from every state and operands that
meet the conditions named. Where it rests on the model's choices: log 42, 97. -/
def Obligations.DeviceResets : Prop :=
  ∀ (s : State) (o : ResetOrder) (cause : ResetCause), s.pins.pwrok = true → s.pins.refclkLost = false →
    s.resets = [o] → o.unit = 0 → o.cause = cause → o.done = false → (∀ p, o.packet = some p → getPacket s p = none) →
    (o.scope = .warm → Completes (.deviceWarmReset cause) s (fun t =>
      (∀ a, a < 0xE000000000 → readByte t.mem a = readByte s.mem a)
      ∧ (∀ a, 0xE000000000 ≤ a → a < 0xE020000000 → readByte t.mem a = 0)
      ∧ (∀ a, 0xE100000000 ≤ a → a < 0xE180000000 → readByte t.mem a = 0)
      ∧ t.sqs = [] ∧ t.cqs = [] ∧ t.knots = [] ∧ t.waiters = [] ∧ t.packets = [] ∧ t.chk = [] ∧ t.resets = []
      ∧ (∀ l, l < 32 → (tget t.layers l).selfRefresh = true) ∧ (∀ pc, pc < 512 → (getPc t pc).selfRefresh = true)
      ∧ t.pcie.ready = false ∧ t.pcie.resetCount = s.pcie.resetCount + 1 ∧ t.pcie.linkUp = s.pcie.linkUp
      ∧ t.flash = s.flash ∧ t.power.capSet = s.power.capSet ∧ t.errors.log = s.errors.log ∧ t.pins = s.pins
      ∧ t.slots.map (fun e => (e.1, e.2.phase)) = s.slots.map (fun e => (e.1, e.2.phase)) ∧ t.pending = s.pending)) ∧
    (o.scope = .cold → Completes (.deviceColdReset cause) s (fun t =>
      t.mem = {} ∧ t.sqs = [] ∧ t.cqs = [] ∧ t.knots = [] ∧ t.packets = [] ∧ t.resets = [] ∧ t.slots = [] ∧ t.cores = []
      ∧ t.pcie.ready = false ∧ t.pcie.linkUp = false ∧ t.flash = s.flash ∧ t.pins = s.pins ∧ t.pending = s.pending))

/-- Containment (Table 17-6, R503 to R505): a core that fences itself is cut, FAULTED and put into reset, and at the
third time within a second it is fenced; a block controller's or region controller's silence orders the reset of its
units, and the watchdog and a device-fatal record that R504 names order a device warm reset. Completion:
WATCHDOG_EXPIRY, CORE_SELF_FENCE, BLOCK_HEARTBEAT_MISS, REGION_HEARTBEAT_MISS and DEVICE_FATAL_RESET_TIMER answer a
next state with their effects, from every state and operands that meet the conditions named. Where it rests on the
model's choices: log 97. -/
def Obligations.Containment : Prop :=
  ∀ (s : State) (u : Nat),
    (coreServes s u = true → (getCore s u).selfFenced = false →
      ((getCore s u).selfFenceAt.filter (fun x => decide (since (counterOf s (dieOfCore u)) x < 100000000))).length < 2 →
      Completes (.coreSelfFence u) s (fun t =>
        (getCore t u).selfFenced = true ∧ (getCore t u).seqr = .faulted ∧ (getCore t u).inReset = true
        ∧ (getCore t u).fenced = false ∧ (getCore t u).arraySlots = [] ∧ (getCore t u).vecSlots = []
        ∧ (getCore t u).moveSlots = [] ∧ (getCore t u).faultCause = 0
        ∧ ∃ o, t.resets = s.resets ++ [o] ∧ o.scope = .core ∧ o.unit = u ∧ o.cause = .containment)) ∧
    (coreServes s u = true → (getCore s u).selfFenced = false →
      2 ≤ ((getCore s u).selfFenceAt.filter (fun x => decide (since (counterOf s (dieOfCore u)) x < 100000000))).length →
      Completes (.coreSelfFence u) s (fun t => (getCore t u).fenced = true)) ∧
    (u < 128 → regionOn s (u / 8) = true → (getRegion s (u / 8)).inReset = false → orderFor s .block u .containment = none →
      Completes (.blockHeartbeatMiss u) s (fun t =>
        t.resets = s.resets ++ [{ scope := .block, unit := u, cause := .containment, start := (tget s.counters 4).toNat }]
        ∧ (∀ c, 64 * u ≤ c → c < 64 * u + 64 → (getCore t c).inReset = true)
        ∧ (∀ c, c < 64 * u ∨ 64 * u + 64 ≤ c → getCore t c = getCore s c)
        ∧ t = { s with cores := t.cores, resets := t.resets })) ∧
    (u < 16 → managerUp s = true → regionOn s u = true → (getRegion s u).inReset = false →
      (∀ k ∈ s.packets, servedByRegion s u k = false) → Completes (.regionHeartbeatMiss u) s (fun t =>
        t.resets = s.resets ++ [{ scope := .region, unit := u, cause := .containment, start := (tget s.counters 4).toNat }]
        ∧ (getRegion t u).inReset = true ∧ (∀ c, 512 * u ≤ c → c < 512 * u + 512 → (getCore t c).inReset = true)
        ∧ (∀ pc ∈ nominalHome u, (getPc t pc).inReset = true) ∧ t.errors.fatalCount = s.errors.fatalCount
        ∧ t.errors.logNext = s.errors.logNext + 1)) ∧
    (managerUp s = true → s.pcie.rescueOnly = false → Completes .watchdogExpiry s (fun t =>
      t.resets = s.resets ++ [{ scope := .warm, unit := 0, cause := .watchdog, start := (tget s.counters 4).toNat }]
      ∧ t.mem = s.mem ∧ t.packets = s.packets)) ∧
    (managerUp s = true → s.errors.fatalPending = true → Completes .deviceFatalResetTimer s (fun t =>
      t.resets = s.resets ++ [{ scope := .warm, unit := 0, cause := .deviceFatal, start := (tget s.counters 4).toNat }]
      ∧ t.errors = { s.errors with fatalPending := false } ∧ t.mem = s.mem ∧ t.packets = s.packets))

/-- Core, block and region resets (Tables 17-8 and 17-9, R509, R510), one ordered and no step-batch running: the units
return to their reset values but for their binding and their fences, their core stores are zeroed, they leave reset,
and the command that ordered the reset is answered. The resets of layers and dies and the bounds that a reset misses
(R206, R207, R211, R512): an M-layer reset that begins with no run on a channel and nothing queued puts the layer into
self-refresh and reset and leaves all else; a C-die out of service stays in reset with its layers in self-refresh; a
core whose reset misses its bound is fenced, a block's becomes its region's reset, a region leaves service, and a
layer's channels are mapped out. Completion: CORE_RESET, BLOCK_RESET, REGION_RESET, M_LAYER_RESET, C_DIE_RESET and
RESET_BOUND_MISS answer a next state with their effects, from every state and operands that meet the conditions named.
Where it rests on the model's choices: log 41, 96, 105. -/
def Obligations.UnitAndDieResets : Prop :=
  (
    ∀ (s : State) (o : ResetOrder) (u c p : Nat) (k : Packet) (cause : ResetCause), s.resets = [o] → o.unit = u →
      o.cause = cause → o.done = false → o.packet = some p → o.mailbox = none → orderClocked s o = true →
      (∀ b ∈ s.batches, b.running = false) → getPacket s p = some k → k.answer = none → k.opcode = 0x0A01 →
      (o.scope = .core → u < 8192 → Completes (.coreReset u cause) s (fun t =>
        getCore t u = { ({} : Core) with
          absent := (getCore s u).absent, spare := (getCore s u).spare, fenced := (getCore s u).fenced,
          selfFenceAt := (getCore s u).selfFenceAt }
        ∧ (∀ a, 0xE100000000 + u * 0x40000 ≤ a → a < 0xE100000000 + u * 0x40000 + 0x40000 → readByte t.mem a = 0)
        ∧ t.resets = [] ∧ Answers t p 0 [])) ∧
      (o.scope = .block → u < 128 → 64 * u ≤ c → c < 64 * u + 64 → Completes (.blockReset u cause) s (fun t =>
        getCore t c = { ({} : Core) with
          absent := (getCore s c).absent, spare := (getCore s c).spare, fenced := (getCore s c).fenced,
          selfFenceAt := (getCore s c).selfFenceAt }
        ∧ t.resets = [] ∧ Answers t p 0 [])) ∧
      (o.scope = .region → u < 16 → 512 * u ≤ c → c < 512 * u + 512 → (∀ ch, (getChan s ch).tg.packet ≠ some p) →
        (∀ pc, (getPc s pc).tg.packet ≠ some p) → Completes (.regionReset u cause) s (fun t =>
        getCore t c = { ({} : Core) with
          absent := (getCore s c).absent, spare := (getCore s c).spare, fenced := (getCore s c).fenced,
          selfFenceAt := (getCore s c).selfFenceAt }
        ∧ (getRegion t u).inReset = false ∧ (getRegion t u).active = 0 ∧ (getRegion t u).admitQueue = []
        ∧ tget t.chk (16 + 2 * u) = {} ∧ tget t.chk (17 + 2 * u) = {}
        ∧ t.resets = [] ∧ Answers t p 0 []))) ∧
  (
    ∀ (s : State) (pos layer u : Nat), pos < 4 → layer < 8 → managerUp s = true →
      (dieServes s pos = true → (tget s.dies pos).clocksStopped = false → (∀ o ∈ s.resets, o.scope ≠ .mLayer) →
        (∀ ch, (getChan s ch).run = none ∧ (getChan s ch).queue = []) → Completes (.mLayerReset pos layer) s (fun t =>
          tget t.layers (pos * 8 + layer) = { tget s.layers (pos * 8 + layer) with selfRefresh := true, inReset := true }
          ∧ (∀ l, l ≠ pos * 8 + layer → tget t.layers l = tget s.layers l)
          ∧ t.resets = s.resets ++ [{
            scope := .mLayer, unit := pos * 8 + layer, cause := .containment, start := (tget s.counters 4).toNat }]
          ∧ t = { s with layers := t.layers, resets := t.resets })) ∧
      ((tget s.dies pos).heldOut = true → (tget s.dies pos).inReset = false → Completes (.cDieReset pos) s (fun t =>
        (tget t.dies pos).inReset = true
        ∧ (∀ l, l < 8 → (tget t.layers (pos * 8 + l)).selfRefresh = true ∧ (tget t.layers (pos * 8 + l)).inReset = true)
        ∧ (∀ ch, ch / 16384 = pos → (getChan t ch).run = none))) ∧
      (∀ o, s.resets = [o] → o.unit = u → o.mailbox = none →
        (o.scope = .core → (getCore s u).absent = false →
          Completes (.resetBoundMiss .core u) s (fun t => (getCore t u).fenced = true ∧ t.resets = [])) ∧
        (o.scope = .block → s.packets = [] → Completes (.resetBoundMiss .block u) s (fun t =>
          ∃ x, t.resets = [x] ∧ x.scope = .region ∧ x.unit = u / 8 ∧ x.cause = .containment ∧ x.packet = o.packet)) ∧
        (o.scope = .region → Completes (.resetBoundMiss .region u) s (fun t =>
          (getRegion t u).outOfService = true ∧ t.resets = []))) ∧
      (dieServes s pos = true → (∃ o ∈ s.resets, o.scope = .mLayer ∧ o.unit = pos * 8 + layer) →
        Completes (.resetBoundMiss .mLayer (pos * 8 + layer)) s (fun t =>
        ∀ c, c < 2048 → (getChan t ((pos * 2048 + c) * 8 + layer)).chOut = true)))

/-- RESET, FENCE_UNIT and FW_ACTIVATE (R362 to R364, R360): a reset of a unit is ordered and waits, one of the device
is ordered and answers first; a unit named by FENCE_UNIT leaves service and the command answers; a staged image is
tried at the warm reset that follows the reply. Completion: FW_ACTIVATE, RESET and FENCE_UNIT answer a next state with
their effects, from every state and operands that meet the conditions named. Where it rests on the model's choices:
log 96. -/
def Obligations.ResetCommands : Prop :=
  ∀ (s : State) (p : Nat) (k : Packet), s.thermal.stop = 0 →
    (MayBegin s p 0x0A01 k → argAt k 0x10 4 = 0 → argAt k 0x14 4 < 8192 → coreRefusal s (argAt k 0x14 4) = 0 →
      Completes (.reset p) s (fun t => answerOf t p = none ∧ (getCore t (argAt k 0x14 4)).inReset = true
        ∧ ∃ o, t.resets = s.resets ++ [o] ∧ o.scope = .core ∧ o.unit = argAt k 0x14 4 ∧ o.packet = some p)) ∧
    (MayBegin s p 0x0A01 k → argAt k 0x10 4 = 1 → argAt k 0x14 4 < 128 → regionRefusal s (argAt k 0x14 4 / 8) = 0 →
      Completes (.reset p) s (fun t => answerOf t p = none
        ∧ ∃ o, t.resets = s.resets ++ [o] ∧ o.scope = .block ∧ o.unit = argAt k 0x14 4 ∧ o.packet = some p)) ∧
    (MayBegin s p 0x0A01 k → argAt k 0x10 4 = 3 → Completes (.reset p) s (fun t => Answers t p 0 []
        ∧ ∃ o, t.resets = s.resets ++ [o] ∧ o.scope = .warm ∧ o.cause = .command ∧ o.packet = some p)) ∧
    (MayBegin s p 0x0A01 k → argAt k 0x10 4 = 4 → Completes (.reset p) s (fun t => Answers t p 0 []
        ∧ ∃ o, t.resets = s.resets ++ [o] ∧ o.scope = .cold ∧ o.cause = .command ∧ o.packet = some p)) ∧
    (MayBegin s p 0x0A04 k → argAt k 0x10 4 = 2 → argAt k 0x14 4 < 65536 → coreRefusal s (argAt k 0x14 4 / 8) = 0 →
      (getChan s (argAt k 0x14 4)).chOut = false → (∀ n c, (getSeq s n).pending = some c → c.packet ≠ p) →
      Completes (.fenceUnit p) s (fun t =>
        (getChan t (argAt k 0x14 4)).chOut = true ∧ Answers t p 0 []
        ∧ t.boot.appendQueue.length = s.boot.appendQueue.length + 1)) ∧
    (MayBegin s p 0x0A04 k → argAt k 0x10 4 = 2 → argAt k 0x14 4 < 65536 → coreRefusal s (argAt k 0x14 4 / 8) = 0 →
      (getChan s (argAt k 0x14 4)).chOut = true →
      Completes (.fenceUnit p) s (fun t => Answers t p 0x0040 [] ∧ t = { s with packets := t.packets })) ∧
    (MayBegin s p 0x0903 k → hostBarred s k = false → s.flash.staged = true → Completes (.fwActivate p) s (fun t =>
      Answers t p 0 [] ∧ t.flash = { s.flash with try? := some (1 - s.boot.slot), staged := false }
      ∧ ∃ o, t.resets = s.resets ++ [o] ∧ o.scope = .warm ∧ o.cause = .fwActivate ∧ o.packet = some p))

/-- THERMAL_STOP and the stops (Tables 15-9 and 15-10, R452, R456): the command begins an orderly stop and waits for
it, the stop ends with H's records, self-refresh and step 3's voltage, and answers; a clock stop that was ordered
stops the clocks of every C-die and answers ST_THERMAL. The hardware trips (R455): a sensor of a C-die or of its
M-layers latches its bit and stops the die's clocks with its layers in self-refresh; H's trip stops H's clocks; the
latches of the other dies stand, and THERMTRIP_N is low (R521). Completion: THERMAL_STOP, ORDERLY_STOP, CLOCK_STOP,
C_DIE_TRIP, M_LAYER_TRIP and HUB_TRIP answer a next state with their effects, from every state and operands that meet
the conditions named. Where it rests on the model's choices: log 90. -/
def Obligations.StopsAndTrips : Prop :=
  (
    ∀ (s : State) (p : Nat) (k : Packet),
      (MayBegin s p 0x0805 k → s.thermal.stop = 0 → s.thermal.clockOrdered = false → s.weft.ownManager = none →
        Completes (.thermalStop p) s (fun t => answerOf t p = none ∧ t.thermal.stop = 1 ∧ t.thermal.cause = 9
          ∧ t.thermal.waiting = s.thermal.waiting ++ [p] ∧ t = { s with packets := t.packets, thermal := t.thermal })) ∧
      (MayBegin s p 0x0805 k → 2 ≤ s.thermal.stop →
        Completes (.thermalStop p) s (fun t => Answers t p 0 [] ∧ t = { s with packets := t.packets })) ∧
      (managerUp s = true → s.thermal.stop = 1 → s.thermal.clockOrdered = false → s.resets = [] → s.batches = [] →
        s.cores = [] → s.packets = [k] → k.id = p → k.opcode = 0x0805 → k.started = true → k.answer = none →
        s.thermal.waiting = [p] → s.weft.ownManager = none → Completes .orderlyStop s (fun t =>
          (t.thermal.stop = 2 ∨ t.thermal.stop = 3) ∧ (t.thermal.savedState = true ↔ t.thermal.stop = 2)
          ∧ t.thermal.waiting = [] ∧ Answers t p 0 [] ∧ (∀ d, d < 4 → (tget t.dies d).setpoint = setpointOf d 3)
          ∧ (∀ l, l < 32 → (tget t.layers l).selfRefresh = true) ∧ (∀ pc, pc < 512 → (getPc t pc).selfRefresh = true)
          ∧ t.errors.fatalCount = s.errors.fatalCount + 1)) ∧
      (hubRuns s = true → s.thermal.clockOrdered = true → s.thermal.stop ≠ 4 → s.batches = [] → s.cores = [] →
        s.packets = [k] → k.id = p → k.opcode = 0x0805 → k.started = true → k.answer = none → s.thermal.waiting = [p] →
        Completes .clockStop s (fun t => t.thermal.stop = 4 ∧ t.thermal.clockOrdered = false ∧ Answers t p 0x0015 []
          ∧ (∀ d, d < 4 → (tget t.dies d).clocksStopped = true) ∧ (∀ l, l < 32 → (tget t.layers l).selfRefresh = true)
          ∧ t.errors.fatalCount = s.errors.fatalCount + 1))) ∧
  (
    ∀ (s : State) (pos layer : Nat), pos < 4 → layer < 8 → s.pins.pwrok = true →
      (dieServes s pos = true → Completes (.cDieTrip pos) s (fun t =>
        t.thermal.tripCdie = s.thermal.tripCdie ||| BitVec.ofNat 4 (2 ^ pos) ∧ t.thermal.tripMlayer = s.thermal.tripMlayer
        ∧ t.thermal.tripHub = s.thermal.tripHub ∧ (tget t.dies pos).clocksStopped = true ∧ thermtripLow t = true
        ∧ ((tget s.dies pos).clocksStopped = false → ∀ l, l < 8 → (tget t.layers (pos * 8 + l)).selfRefresh = true))) ∧
      (dieServes s pos = true → Completes (.mLayerTrip pos layer) s (fun t =>
        t.thermal.tripMlayer = s.thermal.tripMlayer ||| BitVec.ofNat 4 (2 ^ pos) ∧ t.thermal.tripCdie = s.thermal.tripCdie
        ∧ t.thermal.tripHub = s.thermal.tripHub ∧ (tget t.dies pos).clocksStopped = true ∧ thermtripLow t = true
        ∧ ((tget s.dies pos).clocksStopped = false → ∀ l, l < 8 → (tget t.layers (pos * 8 + l)).selfRefresh = true))) ∧
      Completes .hubTrip s (fun t => t.thermal = { s.thermal with tripHub := true } ∧ (tget t.dies 4).clocksStopped = true
        ∧ (∀ d, d ≠ 4 → tget t.dies d = tget s.dies d) ∧ thermtripLow t = true ∧ t = { s with thermal := t.thermal, dies := t.dies }))

/-- LICENCE_INSTALL and FW_STAGE (R472, R474), with buffers in the host: a licence that passes every check is kept
pending, an image that verifies goes to the slot that does not run, one that fails a check leaves the flash as it was.
ATTEST and DOE_REQUEST (R325, R479): the report for a nonce and a mask goes to the command's buffer, with its length
as RESULT, or answers the request, which is held until phase 1 has ended. Completion: LICENCE_INSTALL, FW_STAGE,
ATTEST and DOE_REQUEST answer a next state with their effects, from every state and operands that meet the conditions
named. Where it rests on the model's choices: log 94, 95. -/
def Obligations.FirmwareAndAttestation : Prop :=
  (
    ∀ (s : State) (p : Nat) (k : Packet) (b : Bytes), hostBarred s k = false → flashBusy s k = false →
      s.pcie.d3hot = false → s.pcie.busMaster = true → (bufA k).host = true → (bufA k).len = b.length →
      (MayBegin s p 0x0901 k → b.length ≤ 16384 → licStatus s b = 0 → Completes (.licenceInstall p (.bytes b)) s (fun t =>
        t.flash = { s.flash with licPending := some (b.take 16384) } ∧ Answers t p 0 []
        ∧ t = { s with flash := t.flash, packets := t.packets })) ∧
      (MayBegin s p 0x0901 k → b.length ≤ 16384 → licStatus s b ≠ 0 → Completes (.licenceInstall p (.bytes b)) s (fun t =>
        Answers t p (licStatus s b) [] ∧ t = { s with packets := t.packets })) ∧
      (MayBegin s p 0x0902 k → b.length ≤ 67108864 → imgReason s b = 0 → Completes (.fwStage p (.bytes b)) s (fun t =>
        (s.boot.slot = 0 → t.flash = { s.flash with image1 := b.take (fieldAt b 0x14 4), staged := true })
        ∧ (s.boot.slot ≠ 0 → t.flash = { s.flash with image0 := b.take (fieldAt b 0x14 4), staged := true })
        ∧ Answers t p 0 ((b.drop 8).take 8) ∧ t = { s with flash := t.flash, packets := t.packets })) ∧
      (MayBegin s p 0x0902 k → b.length ≤ 67108864 → imgReason s b = 4 → Completes (.fwStage p (.bytes b)) s (fun t =>
        Answers t p 0x0027 [] ∧ t = { s with packets := t.packets }))) ∧
  (
    ∀ (s : State) (nonce : Bytes) (mask : BitVec 32) (p : Nat) (k : Packet) (r : Bytes),
      (MayBegin s p 0x0904 k → r = attestReport s (k.args.take 32) (argAt k 0x30 4) → argAt k 0x30 4 < 256 →
        (bufAt k.params 0).host = true → s.pcie.d3hot = false → s.pcie.busMaster = true → r.length ≤ (bufAt k.params 0).len →
        Completes (.attest p) s (fun t =>
          Answers t p 0 (toBytes 4 r.length) ∧ t.pcie.tx = s.pcie.tx ++ [.memWrite (bufAt k.params 0).addr r false true]
          ∧ t = { s with pcie := { s.pcie with tx := t.pcie.tx }, packets := t.packets })) ∧
      (hubRuns s = true → s.pins.pwrok = true → 2 ≤ s.pcie.phase.toNat → mask.toNat < 256 →
        Completes (.doeRequest (.attestation nonce mask)) s (fun t =>
          t.pcie = { s.pcie with doeHeld := none, tx := s.pcie.tx ++ [.doe (attestReport s nonce mask.toNat)] }
          ∧ t = { s with pcie := t.pcie })) ∧
      (hubRuns s = true → s.pins.pwrok = true → s.pcie.phase.toNat < 2 → s.pcie.rescueOnly = false → s.pcie.doeHeld = none →
        exec (.doeRequest (.attestation nonce mask)) s
          = .next { s with pcie := { s.pcie with doeHeld := some (.attestation nonce mask) } }))

/-- TOPOLOGY_SET, ROLE_SET and LINK_TEST (R361, R367, R392, R399): a table that R399 refuses is answered
ST_BAD_PACKET, one that it accepts before phase 5 is installed and kept in the flash, a role needs the licence's grant
and is kept, and a link under test is out of service until the test ends with what it found. Completion: TOPOLOGY_SET,
ROLE_SET and LINK_TEST answer a next state with their effects, from every state and operands that meet the conditions
named. Where it rests on the model's choices: log 66, 98. -/
def Obligations.TopologyCommands : Prop :=
  ∀ (s : State) (p : Nat) (k : Packet) (b : Bytes),
    (MayBegin s p 0x0905 k → fromWeft k.src = true → k.params = b → b ≠ [] → 4420 ≤ b.length →
      tableOk s (b.take 4420) = false → Completes (.topologySet p (.bytes [])) s (fun t =>
        Answers t p 0x0020 [] ∧ t = { s with packets := t.packets })) ∧
    (MayBegin s p 0x0905 k → fromWeft k.src = true → k.params = b → 4420 ≤ b.length → tableOk s (b.take 4420) = true →
      s.pcie.phase.toNat < 5 → (∀ l, l < 16 → linkInService s l = false) → Completes (.topologySet p (.bytes [])) s (fun t =>
        t.weft.table = some (b.take 4420) ∧ t.flash = { s.flash with topology := some (b.take 4420) }
        ∧ Answers t p 0 [] ∧ t = { s with weft := { s.weft with table := t.weft.table }, flash := t.flash, packets := t.packets })) ∧
    (MayBegin s p 0x0906 k → bitOf (argAt k 0x10 4) 0 = true → s.boot.licence.any (·.manager) = false →
      Completes (.roleSet p) s (fun t => Answers t p 0x0024 [] ∧ t = { s with packets := t.packets })) ∧
    (MayBegin s p 0x0906 k → (bitOf (argAt k 0x10 4) 0 = false ∨ s.boot.licence.any (·.manager) = true) →
      Completes (.roleSet p) s (fun t => Answers t p 0 [] ∧ t.weft.manager = bitOf (argAt k 0x10 4) 0
        ∧ t.weft.ownManager = (if ownDevice s = some (argAt k 0x14 4) then none else some (argAt k 0x14 4))
        ∧ t.flash = { s.flash with manager := t.weft.manager, ownManager := t.weft.ownManager }
        ∧ t = { s with flash := t.flash, packets := t.packets,
                       weft := { s.weft with manager := t.weft.manager, ownManager := t.weft.ownManager } })) ∧
    (∀ (errors : Nat) (lanes : BitVec 8), argAt k 0x10 4 < 16 →
      (MayBegin s p 0x0B02 k → argAt k 0x14 4 < 4 → argAt k 0x18 4 ≤ 60000000 →
        (getLink s (argAt k 0x10 4)).state = 0 → (getLink s (argAt k 0x10 4)).test = false →
        Completes (.linkTest p errors lanes) s (fun t => answerOf t p = none
          ∧ getLink t (argAt k 0x10 4) = { getLink s (argAt k 0x10 4) with test := true }
          ∧ (∀ l, l ≠ argAt k 0x10 4 → getLink t l = getLink s l))) ∧
      (getPacket s p = some k → k.opcode = 0x0B02 → k.started = true → k.answer = none → hubRuns s = true →
        Completes (.linkTest p errors lanes) s (fun t => Answers t p 0 (toBytes 4 errors ++ toBytes 4 lanes.toNat)
          ∧ getLink t (argAt k 0x10 4) = { getLink s (argAt k 0x10 4) with test := false, state := 3 }
          ∧ (∀ l, l ≠ argAt k 0x10 4 → getLink t l = getLink s l))))

/-- ABORT (R336 to R338) and a host read that fails (R324): a KNOT_WAIT that waits ends with ST_ABORTED, and the
ABORT's own reply follows with FOUND and STOPPED; with no command of that tag the answer is ST_ALREADY_DONE; a
MEM_WRITE whose host read fails ends with ST_HOST_DMA and a record. Completion: ABORT and PCIE_READ_FAILED answer a
next state with their effects, from every state and operands that meet the conditions named. Where it rests on the
model's choices: log 15. -/
def Obligations.AbortAndFailedRead : Prop :=
  ∀ (s : State) (p : Nat) (k : Packet),
    (MayBegin s p 0x0A02 k → (∀ j ∈ s.packets, j.id ≠ p → abortSource k j = false ∨ j.tag ≠ argAt k 0x10 4) →
      Completes (.abort p) s (fun t => Answers t p 0x0001 [] ∧ t = { s with packets := t.packets })) ∧
    (∀ j, MayBegin s p 0x0A02 k → s.packets = [j, k] → j.id ≠ p → abortSource k j = true → j.tag = argAt k 0x10 4 →
      j.opcode = 0x0503 → j.started = true → j.away = false → j.answer = none → Completes (.abort p) s (fun t =>
        Answers t j.id 0x0010 [] ∧ Answers t p 0 (toBytes 4 3)
        ∧ (getPacket t p).bind (·.follows) = some j.id
        ∧ t.waiters = s.waiters.filter (fun w => w.issuer != .command j.id))) ∧
    (∀ addr status, MayBegin s p 0x0402 k → k.params = [] → (bufA k).host = true →
      Completes (.pcieReadFailed p addr status) s (fun t => (answerOf t p).map (·.status) = some 0x0032
        ∧ t.errors.logNext = s.errors.logNext + 1))

/-- MODEL_LOAD of a draft in the host into a named EMPTY slot (R167, R341, Table 06-8): the first check that fails
gives its status with DETAIL; a draft that passes them all is kept in a slot that becomes LOADED. MODEL_EVICT of a
slot without step-batches and open sequences empties it, an open sequence without FORCE gives ST_BUSY (R343);
MODEL_QUERY answers with the slot's fields. Completion: MODEL_LOAD, MODEL_EVICT and MODEL_QUERY answer a next state
with their effects, from every state and operands that meet the conditions named. Where it rests on the model's
choices: log 49, 50, 52. -/
def Obligations.ModelCommands : Prop :=
  ∀ (s : State) (p : Nat) (k : Packet), k.context < 1024 →
    (∀ (b : Bytes), MayBegin s p 0x0101 k → (getSlot s k.context).phase = .empty → (bufA k).host = true →
      (bufA k).len = b.length → s.pcie.d3hot = false → s.pcie.busMaster = true →
      (∀ f, (loadDraft s [] (.host b) b.length (bitOf (argAt k 0x20 1) 0)).2.2 = some f →
        Completes (.modelLoad p (.bytes b) []) s (fun t =>
          Answers t p f.status (failResult (failDetail f) 0 0) ∧ t = { s with packets := t.packets })) ∧
      (∀ d a s1, loadDraft s [] (.host b) b.length (bitOf (argAt k 0x20 1) 0) = (s, d, none) →
        allocFirst s (ceilDiv (keptBytes d (keptSections d (hSigned d.hdr || bitOf (argAt k 0x20 1) 0))) 2048 * 2048)
          (List.range 16) = some (a, s1) →
        Completes (.modelLoad p (.bytes b) []) s (fun t =>
          (getSlot t k.context).phase = .loaded ∧ (getSlot t k.context).header = d.hdr
          ∧ (getSlot t k.context).kept = keptSections d (hSigned d.hdr || bitOf (argAt k 0x20 1) 0)
          ∧ Answers t p 0 (toBytes 4 k.context) ∧ (∀ n, n ≠ k.context → getSlot t n = getSlot s n)
          ∧ t = { s with slots := t.slots, regions := t.regions, packets := t.packets }))) ∧
    (MayBegin s p 0x0103 k → ((getSlot s k.context).phase = .loaded ∨ (getSlot s k.context).phase = .placed) →
      (∀ b ∈ s.batches, b.slot ≠ k.context) →
      (openSeqs s k.context = [] → Completes (.modelEvict p) s (fun t =>
        getSlot t k.context = {} ∧ (∀ n, n ≠ k.context → getSlot t n = getSlot s n) ∧ Answers t p 0 []
        ∧ t = { s with slots := t.slots, regions := t.regions, staging := t.staging, cores := t.cores, packets := t.packets })) ∧
      (openSeqs s k.context ≠ [] → bitOf (argAt k 0x10 1) 0 = false → Completes (.modelEvict p) s (fun t =>
        Answers t p 0x0011 [] ∧ t = { s with slots := t.slots, packets := t.packets }))) ∧
    (MayBegin s p 0x0104 k → Completes (.modelQuery p) s (fun t =>
      Answers t p 0 (toBytes 8 (fieldAt (getSlot s k.context).header 0x40 8)
        ++ toBytes 2 (hWeaveBlocks (getSlot s k.context).header) ++ toBytes 2 (getSlot s k.context).rowBase
        ++ toBytes 2 (openSeqs s k.context).length
        ++ toBytes 1 (if (getSlot s k.context).evicting then 4 else slotPhaseCode (getSlot s k.context).phase)
        ++ toBytes 1 (getSlot s k.context).origins)
      ∧ t = { s with packets := t.packets }))

/-- MODEL_PLACE (R168, R169, R342): a slot that is not LOADED gives ST_STATE; a LOADED draft whose reading verifies
again, whose weave is in service and for which rows, far memory and staging are free becomes PLACED on those blocks
with its relocated programs, and RESULT is the map of its blocks. Completion: MODEL_PLACE answers a next state with
its effect, from every state and operands that meet the conditions named. Where it rests on the model's choices: log
50, 51. -/
def Obligations.ModelPlace : Prop :=
  ∀ (s : State) (p : Nat) (k : Packet) (b : Bytes) (blocks weave : List Nat) (secs : List (Nat × Bytes)) (rb far : Nat)
    (s1 s2 : State) (st : Nat × Nat) (progs : List (List (BitVec 512))) (sl : ModelSlot),
    MayBegin s p 0x0102 k → k.context < 1024 →
    ((getSlot s k.context).phase ≠ .loaded → Completes (.modelPlace p (.bytes b) [] blocks) s (fun t =>
      Answers t p 0x0026 [] ∧ t = { s with packets := t.packets })) ∧
    ((getSlot s k.context).phase = .loaded →
      weaveOf s (getSlot s k.context) k (hWeaveBlocks (getSlot s k.context).header) blocks = some (0, weave) →
      weaveInReset s weave = false → (bufA k).host = true → (bufA k).len = b.length → s.pcie.d3hot = false →
      s.pcie.busMaster = true → rereadDraft s [] (.host b) b.length (getSlot s k.context) = (s, secs, 0) →
      sl = { getSlot s k.context with weave := weave } →
      placeDegraded s sl (bitOf (argAt k 0x20 4) 16) = none → ¬ (capOf sl 3 = true ∧ hFarBytes sl.header < 0x11000) →
      (relocateAll sl (argAt k 0x20 2) (· == 3)).isNone = false → chooseRowBase s sl = some rb →
      allocFirst s (farNeed sl) (windowOrder s sl) = some (far, s1) → allocStaging s1 (hStaging sl.header) = some (st, s2) →
      relocateAll { sl with
        rowBase := rb, far := (far, ceilDiv (farNeed sl) 2048 * 2048), staging := st, knotBase := argAt k 0x20 2 }
          (argAt k 0x20 2) (fun _ => true) = some progs →
      (∀ a n, accessWaits s2 a n = false) → Completes (.modelPlace p (.bytes b) [] blocks) s (fun t =>
        (getSlot t k.context).phase = .placed ∧ (getSlot t k.context).weave = weave ∧ (getSlot t k.context).rowBase = rb
        ∧ (getSlot t k.context).far = (far, ceilDiv (farNeed sl) 2048 * 2048) ∧ (getSlot t k.context).staging = st
        ∧ (getSlot t k.context).programs = progs ∧ (getSlot t k.context).epoch = 0
        ∧ (∀ n, n ≠ k.context → getSlot t n = getSlot s2 n)
        ∧ Answers t p 0 (toBytes 16 (blockMap weave))))

/-- SEQ_OPEN, SEQ_STEP, SEQ_PREFILL and SEQ_FORK (R266, R276, R345 to R347): a sequence is opened on a PLACED slot in
the lowest FREE entry, a privileged one beyond the licence's grant is refused, a step or prefill that nothing refuses
becomes pending in its order, and a fork makes an OPEN child of the parent's first tokens. Completion: SEQ_OPEN,
SEQ_PREFILL, SEQ_STEP and SEQ_FORK answer a next state with their effects, from every state and operands that meet the
conditions named. Where it rests on the model's choices: log 50, 56, 58. -/
def Obligations.SequenceStarts : Prop :=
  ∀ (s : State) (p : Nat) (k : Packet),
    (∀ slot maxLength home, slot = k.context → maxLength = argAt k 0x14 4 → slot < 1024 →
      home = (if argAt k 0x12 2 = 0xFF then leadRegion (getSlot s slot) else argAt k 0x12 2) →
      (argAt k 0x12 2 < 16 ∨ argAt k 0x12 2 = 0xFF) → 0 < maxLength → MayBegin s p 0x0201 k →
      (getSlot s slot).phase = .placed → (getSlot s slot).evicting = false →
      (bitOf (argAt k 0x10 1) 0 = false → maxLength ≤ 1048576 → ∀ n log root s1, freeEntry s = some n →
        allocSeq s (getSlot s slot) n slot home maxLength = some (log, root, s1) → Completes (.seqOpen p) s (fun t =>
          (getSeq t n).phase = .opened ∧ (getSeq t n).modelSlot = slot ∧ (getSeq t n).length = 0
          ∧ (getSeq t n).maxLength = maxLength ∧ (getSeq t n).homeRegion = home ∧ (getSeq t n).tokenLog = log
          ∧ (getSeq t n).ptRoot = root ∧ (getSeq t n).privileged = false ∧ (getSeq t n).pending = none
          ∧ (∀ m, m ≠ n → getSeq t m = getSeq s m) ∧ Answers t p 0 (toBytes 4 n)
          ∧ t = { s with seqs := t.seqs, regions := t.regions, frames := t.frames, packets := t.packets })) ∧
      (bitOf (argAt k 0x10 1) 0 = true → maxLength ≤ 131072 → grantedPrivileged s ≤ openPrivileged s →
        Completes (.seqOpen p) s (fun t => Answers t p 0x0024 [] ∧ t = { s with packets := t.packets }))) ∧
    (∀ q, q = k.context → q < 4096 →
      (MayBegin s p 0x0203 k → stepRefusal s q 1 = 0 → Completes (.seqStep p) s (fun t =>
        (getSeq t q).pending = some { packet := p, prefill := false, token := argAt k 0x10 4, order := s.nextOrder }
        ∧ answerOf t p = none ∧ getSeq t q = { getSeq s q with pending := (getSeq t q).pending }
        ∧ (∀ m, m ≠ q → getSeq t m = getSeq s m)
        ∧ t = { s with seqs := t.seqs, packets := t.packets, nextOrder := s.nextOrder + 1 })) ∧
      (MayBegin s p 0x0203 k → stepRefusal s q 1 ≠ 0 → Completes (.seqStep p) s (fun t =>
        Answers t p (stepRefusal s q 1) [] ∧ t = { s with packets := t.packets })) ∧
      (∀ n, MayBegin s p 0x0202 k → (bufA k).len = 4 * n → 0 < n → n ≤ 1048576 → (bufA k).host = true →
        stepRefusal s q n = 0 → Completes (.seqPrefill p) s (fun t =>
          (getSeq t q).pending = some { packet := p, prefill := true, total := n, order := s.nextOrder }
          ∧ answerOf t p = none ∧ getSeq t q = { getSeq s q with pending := (getSeq t q).pending }
          ∧ (∀ m, m ≠ q → getSeq t m = getSeq s m)
          ∧ t = { s with seqs := t.seqs, packets := t.packets, nextOrder := s.nextOrder + 1 })) ∧
      (∀ tokens maxLength child log root s1 s2 s3, MayBegin s p 0x0204 k →
        ((getSeq s q).phase = .opened ∨ (getSeq s q).phase = .parked) →
        tokens = argAt k 0x10 4 → tokens ≤ (getSeq s q).length →
        maxLength = (if argAt k 0x18 4 = 0 then (getSeq s q).maxLength else argAt k 0x18 4) → tokens ≤ maxLength →
        maxLength ≤ 1048576 → freeEntry s = some child → log + 4 * tokens ≤ 0xE000000000 →
        allocSeq s (getSlot s (getSeq s q).modelSlot) child (getSeq s q).modelSlot (getSeq s q).homeRegion maxLength = some (log, root, s1) →
        s2 = modSeq s1 child (fun _ => {
          phase := .opened, modelSlot := (getSeq s q).modelSlot, length := tokens, maxLength := maxLength
          priority := if bitOf (argAt k 0x14 4) 8 then (getSeq s q).priority else argAt k 0x14 4 % 256
          bucket := bucketOf tokens, homeRegion := (getSeq s q).homeRegion, ptRoot := root, tokenLog := log, parent := q
          forkPoint := tokens }) →
        (forkKeys s2 (getSlot s (getSeq s q).modelSlot) q tokens).foldl
          (shareEntry (getSlot s (getSeq s q).modelSlot) q child) (some s2) = some s3 →
        Completes (.seqFork p) s (fun t =>
          (getSeq t child).phase = .opened ∧ (getSeq t child).length = tokens ∧ (getSeq t child).parent = q
          ∧ (getSeq t child).forkPoint = tokens ∧ (getSeq t child).maxLength = maxLength
          ∧ (getSeq t child).tokenLog = log ∧ (getSeq t child).pending = none
          ∧ (∀ m, m ≠ child → getSeq t m = getSeq s m) ∧ Answers t p 0 (toBytes 4 child) ∧ t.slots = s.slots)))

/-- SEQ_PARK, SEQ_RESUME, SEQ_CLOSE and SEQ_QUERY (R282, R348, R349): an OPEN sequence without a pending command parks
for the host, a BATCHED one when its step-batch ends; a PARKED one resumes OPEN; a close leaves a FREE entry without
pages; a query answers with the entry's fields. Completion: SEQ_PARK, SEQ_RESUME, SEQ_CLOSE and SEQ_QUERY answer a
next state with their effects, from every state and operands that meet the conditions named. Where it rests on the
model's choices: log 56. -/
def Obligations.SequenceStates : Prop :=
  ∀ (s : State) (p : Nat) (k : Packet) (q : Nat), q = k.context → q < 4096 → (getSeq s q).pending = none →
    (MayBegin s p 0x0205 k → (getSeq s q).phase = .opened → (∀ b ∈ s.batches, holdsSeq q b = false) →
      Completes (.seqPark p) s (fun t =>
        getSeq t q = { getSeq s q with phase := .parked, parkedHost := true, parkOrder := s.nextOrder }
        ∧ (∀ m, m ≠ q → getSeq t m = getSeq s m) ∧ Answers t p 0 []
        ∧ t = { s with seqs := t.seqs, packets := t.packets, nextOrder := s.nextOrder + 1 })) ∧
    (MayBegin s p 0x0205 k → (getSeq s q).phase = .batched → Completes (.seqPark p) s (fun t =>
      getSeq t q = { getSeq s q with parkAfter := true } ∧ (∀ m, m ≠ q → getSeq t m = getSeq s m)
      ∧ answerOf t p = none ∧ t = { s with seqs := t.seqs })) ∧
    (MayBegin s p 0x0206 k → (getSeq s q).phase = .parked → Completes (.seqResume p) s (fun t =>
      getSeq t q = { getSeq s q with phase := .opened, parkedHost := false, parkedNoPage := false }
      ∧ (∀ m, m ≠ q → getSeq t m = getSeq s m) ∧ Answers t p 0 []
      ∧ t = { s with seqs := t.seqs, packets := t.packets })) ∧
    (MayBegin s p 0x0206 k → ((getSeq s q).phase = .opened ∨ (getSeq s q).phase = .batched) →
      Completes (.seqResume p) s (fun t => Answers t p 0 [] ∧ t = { s with packets := t.packets })) ∧
    (MayBegin s p 0x0207 k → ((getSeq s q).phase = .opened ∨ (getSeq s q).phase = .parked) → (getSeq s q).closers = [] →
      Completes (.seqClose p) s (fun t =>
        getSeq t q = {} ∧ (∀ key, pteSeq key = q → getPte t key = {}) ∧ Answers t p 0 []
        ∧ t.mem = s.mem ∧ t.slots = s.slots ∧ t.batches = s.batches)) ∧
    (MayBegin s p 0x0207 k → (getSeq s q).phase = .batched → Completes (.seqClose p) s (fun t =>
      getSeq t q = { getSeq s q with phase := .closing, closers := (getSeq s q).closers ++ [p] }
      ∧ (∀ m, m ≠ q → getSeq t m = getSeq s m) ∧ answerOf t p = none
      ∧ t = { s with seqs := t.seqs, packets := t.packets })) ∧
    (MayBegin s p 0x0208 k → (getSeq s q).phase ≠ .free → Completes (.seqQuery p) s (fun t =>
      Answers t p 0 (toBytes 1 (seqPhaseCode (getSeq s q).phase) ++ toBytes 1 (seqFlags (getSeq s q))
        ++ toBytes 2 (getSeq s q).modelSlot ++ toBytes 4 (getSeq s q).length
        ++ toBytes 4 (countPages s q (fun e => e.state == .present || e.state == .recomputing))
        ++ toBytes 4 (countPages s q (fun e => e.state == .absent)))
      ∧ t = { s with packets := t.packets }))

/-- PAGE_PIN, PAGE_UNPIN, PAGE_DROP and PAGE_STATS (R279, R281, R350, R351): where no page is named that has a frame
they answer ST_NO_PAGE; a pin raises PINS and HOLDS by one up to 255, an unpin lowers them, a drop makes the page
ABSENT and frees its frame; the statistics go to the buffer, one record for each of the 16 page services. Completion:
PAGE_PIN, PAGE_UNPIN, PAGE_DROP and PAGE_STATS answer a next state with their effects, from every state and operands
that meet the conditions named. Where it rests on the model's choices: log 56, 57. -/
def Obligations.PageCommands : Prop :=
  ∀ (s : State) (p : Nat) (k : Packet) (q count : Nat) (pairs : List (Nat × Nat)), q = k.context →
    count = argAt k 0x18 4 →
    (q < 4096 → 0 < count → count ≤ 1048576 → (getSeq s q).phase ≠ .free →
      namedPairs (getSlot s (getSeq s q).modelSlot) (argAt k 0x10 4) = some pairs →
      (∀ x ∈ pairs, (getRegion s (pairService (getSlot s (getSeq s q).modelSlot) x.1 x.2)).inReset = false) →
      (namedKeys s q (argAt k 0x14 4) count pairs = [] → ∀ c op, (c, op) ∈ [(Instr.pagePin p, 0x0301), (Instr.pageUnpin p, 0x0302),
        (Instr.pageDrop p, 0x0303)] → MayBegin s p op k → Completes c s (fun t =>
          Answers t p 0x0013 [] ∧ t = { s with packets := t.packets })) ∧
      (∀ key fn, namedKeys s q (argAt k 0x14 4) count pairs = [key] → fn = (getPte s key).fn →
        (MayBegin s p 0x0301 k → (getPte s key).pins < 255 → Completes (.pagePin p) s (fun t =>
          getPte t key = { getPte s key with pins := (getPte s key).pins + 1 }
          ∧ frameOf t fn = { frameOf s fn with holds := (frameOf s fn).holds + 1 }
          ∧ (∀ m, m ≠ key → getPte t m = getPte s m) ∧ (∀ m, frameKey m ≠ frameKey fn → frameOf t m = frameOf s m)
          ∧ Answers t p 0 (toBytes 4 1 ++ toBytes 4 (count * pairs.length - 1))
          ∧ t = { s with ptes := t.ptes, frames := t.frames, packets := t.packets })) ∧
        (MayBegin s p 0x0301 k → 255 ≤ (getPte s key).pins → Completes (.pagePin p) s (fun t =>
          Answers t p 0x0011 [] ∧ t = { s with packets := t.packets })) ∧
        (MayBegin s p 0x0302 k → 1 ≤ (getPte s key).pins → (frameOf s fn).allocated = true → 1 ≤ (frameOf s fn).refcount →
          Completes (.pageUnpin p) s (fun t =>
            getPte t key = { getPte s key with pins := (getPte s key).pins - 1 }
            ∧ (frameOf t fn).holds = (frameOf s fn).holds - 1 ∧ (frameOf t fn).allocated = true
            ∧ (∀ m, m ≠ key → getPte t m = getPte s m) ∧ (∀ m, frameKey m ≠ frameKey fn → frameOf t m = frameOf s m)
            ∧ Answers t p 0 (toBytes 4 1 ++ toBytes 4 (count * pairs.length - 1))
            ∧ t = { s with ptes := t.ptes, frames := t.frames, packets := t.packets })) ∧
        (MayBegin s p 0x0303 k → droppable s 4096 (frameOf s fn) = true → refKeys s fn = [key] →
          Completes (.pageDrop p) s (fun t =>
            getPte t key = { getPte s key with state := .absent, fn := 0, drops := Nat.min ((getPte s key).drops + 1) 255 }
            ∧ (frameOf t fn).allocated = false
            ∧ (getRegion t (frameRegion fn)).psDrops = (getRegion s (frameRegion fn)).psDrops + 1
            ∧ (∀ m, m ≠ key → getPte t m = getPte s m) ∧ (∀ m, frameKey m ≠ frameKey fn → frameOf t m = frameOf s m)
            ∧ Answers t p 0 (toBytes 4 1 ++ toBytes 4 (count * pairs.length - 1))
            ∧ t = { s with ptes := t.ptes, frames := t.frames, regions := t.regions, seqs := t.seqs, packets := t.packets })))) ∧
    (MayBegin s p 0x0304 k → q = 0xFFFFFFFF → (bufA k).host = true → 1024 ≤ (bufA k).len → s.pcie.d3hot = false →
      s.pcie.busMaster = true → Completes (.pageStats p) s (fun t =>
        t.pcie = { s.pcie with tx := s.pcie.tx ++ [.memWrite (bufA k).addr ((List.range 16).flatMap (serviceStats s)) false true] }
        ∧ Answers t p 0 (toBytes 4 16) ∧ t = { s with pcie := t.pcie, packets := t.packets }))

/-- What other units ask of a page service (R270, R271, R275, R278, R284, R506): the pins of a gather, a write into a
page that one sequence holds, the end of a reference, the request for a root entry, and what becomes of a frame that
left service or holds a poisoned block. Completion: GATHER_PIN, GATHER_UNPIN, PAGE_WRITE, PAGE_RELEASE,
ROOT_ENTRY_REQUEST, FRAME_LOSS_WALK and POISON_PAGE_DROP answer a next state with their effects, from every state and
operands that meet the conditions named. Where it rests on the model's choices: log 45, 57. -/
def Obligations.PageServices : Prop :=
  ∀ (s : State) (seq layer hgroup page region index fn key : Nat), page < 1048576 →
    key = pteKey seq layer hgroup false page →
    ((getPte s key).state = .present → fn = (getPte s key).fn → Completes (.gatherPin seq layer hgroup page) s (fun t =>
      (frameOf t fn).gpins = (frameOf s fn).gpins + 1
      ∧ frameOf t fn = { frameOf s fn with gpins := (frameOf t fn).gpins, lastUse := (frameOf t fn).lastUse }
      ∧ (∀ m, frameKey m ≠ frameKey fn → frameOf t m = frameOf s m) ∧ t = { s with frames := t.frames })) ∧
    ((getPte s key).state ≠ .present → exec (.gatherPin seq layer hgroup page) s = .next s) ∧
    (fn = indexFn region index → (frameOf s fn).allocated = true →
      (2 ≤ (frameOf s fn).gpins → Completes (.gatherUnpin region index) s (fun t =>
        (frameOf t fn).gpins = (frameOf s fn).gpins - 1 ∧ (frameOf t fn).allocated = true
        ∧ (∀ m, frameKey m ≠ frameKey fn → frameOf t m = frameOf s m) ∧ t = { s with frames := t.frames })) ∧
      ((frameOf s fn).gpins = 1 → (frameOf s fn).refcount = 0 → (frameOf s fn).holds = 0 →
        Completes (.gatherUnpin region index) s (fun t => (frameOf t fn).allocated = false
          ∧ (∀ m, frameKey m ≠ frameKey fn → frameOf t m = frameOf s m)
          ∧ t = { s with frames := t.frames, regions := t.regions, seqs := t.seqs }))) ∧
    (∀ (offset core : Nat) (b : Bytes), (getPte s key).state = .present → fn = (getPte s key).fn → pteSeq key = seq →
      homeCore (getSlot s (getSeq s seq).modelSlot) (pteLayer key) (pteHgroup key) = some core →
      (frameOf s fn).refcount ≤ 1 → 0 < b.length → offset + b.length ≤ 16384 →
      RangeVerifies s (frameAddr fn + offset) b.length → Completes (.pageWrite seq layer hgroup page offset b) s (fun t =>
        Stores s t (frameAddr fn + offset) b ∧ t = { s with mem := t.mem })) ∧
    ((getPte s key).state = .present → fn = (getPte s key).fn → (frameOf s fn).allocated = true →
      (2 ≤ (frameOf s fn).refcount → Completes (.pageRelease seq layer hgroup page) s (fun t =>
        getPte t key = { getPte s key with state := .noPage, fn := 0, pins := 0 }
        ∧ (frameOf t fn).refcount = (frameOf s fn).refcount - 1 ∧ (frameOf t fn).allocated = true
        ∧ (∀ m, m ≠ key → getPte t m = getPte s m) ∧ t = { s with ptes := t.ptes, frames := t.frames })) ∧
      ((frameOf s fn).refcount = 1 → (frameOf s fn).gpins = 0 →
        (frameOf s fn).holds = (getPte s key).pins + ownerHold s (pteSeq key) →
        Completes (.pageRelease seq layer hgroup page) s (fun t =>
          getPte t key = { getPte s key with state := .noPage, fn := 0, pins := 0 } ∧ (frameOf t fn).allocated = false
          ∧ (∀ m, m ≠ key → getPte t m = getPte s m)))) ∧
    ((getSeq s seq).phase ≠ .free → (getSeq s seq).homeRegion ≠ region →
      exec (.rootEntryRequest region seq layer hgroup) s = .next { s with delivered :=
        { status := 0, data := toBytes 8 (tget s.dirs (pairKey seq layer hgroup)), poison := false } }) ∧
    (∀ e, fn = indexFn region index → (frameOf s fn).allocated = true → (frameOf s fn).refcount = 1 →
      (frameOf s fn).gpins = 0 → refKeys s fn = [e] →
      (frameOf s fn).holds = (getPte s e).pins + (if pteSwatch e then 0 else ownerHold s (pteSeq e)) →
      (frameOut s fn = true → Completes (.frameLossWalk region index) s (fun t => (getPte t e).state = .absent
        ∧ (getSeq t (pteSeq e)).lost = true ∧ (frameOf t fn).allocated = false
        ∧ (∀ m, m ≠ e → getPte t m = getPte s m) ∧ t.mem = s.mem)) ∧
      (frameOut s fn = false → exec (.frameLossWalk region index) s = .next s) ∧
      (framePoisoned s fn = true → s.errors.ringUp = false → Completes (.poisonPageDrop region index) s (fun t =>
        (getPte t e).state = .absent ∧ (getSeq t (pteSeq e)).lost = (getSeq s (pteSeq e)).lost
        ∧ (frameOf t fn).allocated = false ∧ (∀ m, m ≠ e → getPte t m = getPte s m)
        ∧ ∀ j, readByte t.mem j = if frameAddr fn ≤ j ∧ j < frameAddr fn + 16384 then 0 else readByte s.mem j)))

/-- Step-batches (R280, R286 to R289, R344, R346): a build makes a row of the one ready step, whose pages grow; a
start gives every core of the weave the row table, starts the cores that have a role and makes the rows' sequences
BATCHED; the commit of a row that fills no page extends its sequence, keeps its token in the log and answers its step;
after a fault no row commits. Completion: STEP_BATCH_BUILD, STEP_BATCH_START and STEP_BATCH_COMMIT answer a next state
with their effects, from every state and operands that meet the conditions named. Where it rests on the model's
choices: log 53, 54, 55. -/
def Obligations.StepBatches : Prop :=
  ∀ (s : State) (slot q : Nat) (sl : ModelSlot), sl = getSlot s slot →
    (∀ (c : PendingCmd) (path : Bool) (s1 s2 : State) (keys sw : List Nat), batchAdmitted s slot = true →
      (∀ b ∈ s.batches, b.slot ≠ slot) → chooseRows s slot = ([(q, c)], path) → c.prefill = false →
      missingPages s sl q = [] →
      takeNeeds s [] q (growNeeds s sl q (getSeq s q).length ((getSeq s q).length + 1)) = (s1, keys, none) →
      takeSwatches s1 sl q keys = (s2, sw) → s2.nextSerial = s.nextSerial →
      (∀ e ∈ readyRows (modSeq s2 q (fun x => { x with recomputeDue := false })) slot,
        missingPages (modSeq s2 q (fun x => { x with recomputeDue := false })) sl e.1 = []) → Completes (.stepBatchBuild slot (.bytes []) []) s (fun t =>
        t.batches = s2.batches ++ [{
          slot := slot, serial := s.nextSerial % 2 ^ 32, path := !path
          bucket := if path then bucketOf ((getSeq s q).length + 1) else 0
          padTokens := if path then 256 * 2 ^ bucketOf ((getSeq s q).length + 1) else 0
          rows := [{ entry := { seq := q, retrieval := retrievalMode sl (getSeq s q), newTokens := 1, length := (getSeq s q).length }
                     tokens := [c.token], packet := some c.packet, newPages := keys, newSwatches := sw }] }]
        ∧ (getSeq t q).recomputeDue = false ∧ t.nextSerial = s.nextSerial + 1)) ∧
    (∀ (b : Batch), firstThat (fun x => x.slot == slot && !x.running) s.batches = some b →
      (∀ x ∈ s.batches, x.serial = b.serial → x = b) → batchAdmitted s slot = true → weaveIdle s slot = true →
      (∀ x ∈ s.batches, x.running = false) → sl.knotsToClear = false → capOf sl 3 = false →
      Completes (.stepBatchStart slot) s (fun t =>
        { b with running := true } ∈ t.batches ∧ (getSlot t slot).epoch = sl.epoch + 1
        ∧ (∀ r ∈ b.rows, (getSeq t r.entry.seq).phase = .batched)
        ∧ (∀ c ∈ weaveCores sl, (getCore t c).rowTable = some {
            path := b.path, bucket := b.bucket, padTokens := b.padTokens, rows := b.rows.map (·.entry) })
        ∧ (∀ c ∈ roleCores sl, (getCore t c).seqr = .running ∧ (getCore t c).epoch = BitVec.ofNat 48 sl.epoch
            ∧ (getCore t c).rowBase = sl.rowBase))) ∧
    (∀ (b : Batch) (r : BatchRow) (c : PendingCmd) (k : Packet), s.batches = [b] → b.slot = slot → b.running = true →
      b.rows = [r] → r.entry.seq = q → r.entry.recompute = false → r.struck = none → (getSeq s q).phase = .batched →
      (getSeq s q).parkAfter = false → (getSeq s q).pending = some c → c.prefill = false → getPacket s c.packet = some k →
      k.answer = none →
      (∀ pieces blks tok, b.failed = none →
        (∀ x ∈ roleCores sl, (getCore s x).halted = true ∧ (getCore s x).seqr = .idle) → capOf sl 3 = true → b.status = 0 →
        c.status = 0 → Verifies s ((sl.far.1 + 0x10000) / 256) →
        ((getSeq s q).privileged = true ∨ filledKeys sl q r.entry.length (r.entry.length + 1) (r.entry.length + 1) = []) →
        r.entry.length = (getSeq s q).length → r.entry.newTokens = 1 → r.tokens = [tok] → (getSeq s q).tokenLog % 4 = 0 →
        rowPieces s sl 0 r = some pieces → readPieces s [] (geometryOf sl) pieces = (s, blks) → anyPoison blks = false →
        (∀ x ∈ pieces, (getPte s x.1).state = .present ∧ (frameOf s (getPte s x.1).fn).refcount ≤ 1) →
        Completes (.stepBatchCommit slot []) s (fun t =>
          (getSeq t q).phase = .opened ∧ (getSeq t q).pending = none ∧ (getSeq t q).length = (getSeq s q).length + 1
          ∧ (getSeq t q).steps = ((getSeq s q).steps + 1) % 2 ^ 32 ∧ (getSeq t q).lastBatch = b.serial
          ∧ readBytes t.mem ((getSeq s q).tokenLog + 4 * (getSeq s q).length) 4 = toBytes 4 tok
          ∧ Answers t c.packet 0 (readBytes t.mem (sl.far.1 + 0x10000) 8 ++ toBytes 4 ((getSeq s q).length + 1)
              ++ toBytes 4 b.serial)
          ∧ t.batches = [])) ∧
      (∀ status, b.failed = some status → roleCores sl = [] → r.newPages = [] → r.newSwatches = [] →
        Completes (.stepBatchCommit slot []) s (fun t =>
          (getSeq t q).phase = .opened ∧ (getSeq t q).pending = none ∧ (getSeq t q).length = (getSeq s q).length
          ∧ Answers t c.packet status [] ∧ t.batches = [] ∧ t.mem = s.mem
          ∧ getSlot t slot = { sl with epoch := 0, origins := sl.origins + 1, knotsToClear := true }
          ∧ t = { s with seqs := t.seqs, packets := t.packets, slots := t.slots, batches := [] })))

/-- Programs (R156, R175, R179, R180, R183, R186): a held program starts from its ENTRY with its registers cleared, a
weave whose cores are all IDLE loads its feeders and starts every core that has a role, LOOP counts its TRIP register
and branches, HALT drains and then leaves the sequencer IDLE and halted, and an abort empties every slot. Completion:
PROGRAM_START, WEAVE_SWITCH, PROGRAM_ABORT, LOOP and HALT answer a next state with their effects, from every state and
operands that meet the conditions named. Where it rests on the model's choices: log 40, 115. -/
def Obligations.Programs : Prop :=
  ∀ (s : State) (core slot : Nat) (c : Core), c = getCore s core →
    (∀ h, c.program = some h → startable s core = true → c.queue.contains h = true →
      Completes (.programStart core) s (fun t =>
        (getCore t core).seqr = .running ∧ (getCore t core).pc = h.entry ∧ (getCore t core).xreg = []
        ∧ (getCore t core).trip = [] ∧ (getCore t core).localKnots = [] ∧ (getCore t core).halted = false
        ∧ (getCore t core).rowBase = (getSlot s h.slot).rowBase
        ∧ (getCore t core).epoch = BitVec.ofNat 48 (epochOf s h.slot)
        ∧ (∀ m, m ≠ core → getCore t m = getCore s m) ∧ t = { s with cores := t.cores })) ∧
    (weaveIdle s slot = true → Completes (.weaveSwitch slot) s (fun t =>
      (∀ x ∈ roleCores (getSlot s slot), (getCore t x).seqr = .running ∧ (getCore t x).rowBase = (getSlot s slot).rowBase
        ∧ (getCore t x).xreg = [] ∧ (getCore t x).trip = [])
      ∧ (∀ x ∈ weaveCores (getSlot s slot), x ∉ roleCores (getSlot s slot) → takesTables (getCore s x) = true →
        getCore t x = { loadFeeders (getSlot s slot) (getCore s x) with poisonReads := (getCore t x).poisonReads })
      ∧ (∀ x, x ∉ weaveCores (getSlot s slot) → getCore t x = { getCore s x with poisonReads := (getCore t x).poisonReads })
      ∧ t.slots = s.slots ∧ t.seqs = s.seqs)) ∧
    (∀ h d finds, fetchDesc s core finds = some (s, h, d) → dOpcode d = opLoop → descCause h.count d = none →
      ((tget c.trip (lpReg d) + 1).toNat < lpCount d → Completes (.loop core finds) s (fun t =>
        (getCore t core).pc = lpTarget d ∧ tget (getCore t core).trip (lpReg d) = tget c.trip (lpReg d) + 1
        ∧ (lpReg2En d = false → tget (getCore t core).xreg (lpReg d) = tget c.xreg (lpReg d) + BitVec.ofInt 40 (lpStride d))
        ∧ (lpReg2En d = true → lpReg2 d ≠ lpReg d →
            tget (getCore t core).xreg (lpReg d) = tget c.xreg (lpReg d) + BitVec.ofInt 40 (lpStride d)
            ∧ tget (getCore t core).xreg (lpReg2 d) = tget c.xreg (lpReg2 d) + BitVec.ofInt 40 (lpStride2 d))
        ∧ getCore t core = { c with
            pc := (getCore t core).pc, trip := (getCore t core).trip, xreg := (getCore t core).xreg }
        ∧ (∀ m, m ≠ core → getCore t m = getCore s m) ∧ t = { s with cores := t.cores })) ∧
      (lpCount d ≤ (tget c.trip (lpReg d) + 1).toNat → Completes (.loop core finds) s (fun t =>
        (getCore t core).pc = dNext d ∧ tget (getCore t core).trip (lpReg d) = 0
        ∧ tget (getCore t core).xreg (lpReg d) = 0
        ∧ (lpReg2En d = true → tget (getCore t core).xreg (lpReg2 d) = 0)
        ∧ getCore t core = { c with
            pc := (getCore t core).pc, trip := (getCore t core).trip, xreg := (getCore t core).xreg }
        ∧ (∀ m, m ≠ core → getCore t m = getCore s m) ∧ t = { s with cores := t.cores }))) ∧
    (∀ h d finds, fetchDesc s core finds = some (s, h, d) → dOpcode d = opHalt → descCause h.count d = none →
      modelCause (getSlot s h.slot) d = none →
      (¬ (c.arraySlots = [] ∧ c.vecSlots = [] ∧ c.moveSlots = []) → Completes (.halt core finds) s (fun t =>
        getCore t core = { c with seqr := .draining, haltPending := some d }
        ∧ (∀ m, m ≠ core → getCore t m = getCore s m) ∧ t = { s with cores := t.cores })) ∧
      (c.arraySlots = [] → c.vecSlots = [] → c.moveSlots = [] → dSigEn d = false → Completes (.halt core finds) s (fun t =>
        getCore t core = { c with seqr := .idle, halted := true, haltPending := none }
        ∧ (∀ m, m ≠ core → getCore t m = getCore s m) ∧ t = { s with cores := t.cores })) ∧
      (c.arraySlots = [] → c.vecSlots = [] → c.moveSlots = [] → dSigEn d = true → dSigLocal d = false →
        Completes (.halt core finds) s (fun t => (getCore t core).seqr = .idle ∧ (getCore t core).halted = true
          ∧ (tget t.knots (dSigKnot d)).value.toNat = clamped ((tget s.knots (dSigKnot d)).value.toNat + 1)
          ∧ ∀ m, m ≠ dSigKnot d → tget t.knots m = tget s.knots m))) ∧
    (c.seqr ≠ .idle → c.selfFenced = false → Completes (.programAbort core) s (fun t =>
      (getCore t core).seqr = .idle ∧ (getCore t core).arraySlots = [] ∧ (getCore t core).vecSlots = []
      ∧ (getCore t core).moveSlots = [] ∧ (getCore t core).localWaits = [] ∧ (getCore t core).drains = []
      ∧ ∀ b ∈ t.batches, b.running = true → c.program.any (fun h => h.slot == b.slot) = true → b.failed.isSome = true))

/-- Descriptors in the slots of the engines (R57, R176 to R178, R183): a descriptor that passes the checks takes a
slot in each of its engines, one that does not faults; the first placed slot issues once its wait is satisfied, an
executed one frees its slot and signals once those before it have written, and the knot descriptors act on the body
knot. Completion: DESCRIPTOR_DISPATCH, DESCRIPTOR_ISSUE, DESCRIPTOR_COMPLETE, KNOT_ARRIVE and DESC_KNOT_WAIT answer a
next state with their effects, from every state and operands that meet the conditions named. Where it rests on the
model's choices: log 40. -/
def Obligations.DescriptorSlots : Prop :=
  ∀ (s : State) (core : Nat) (c : Core), c = getCore s core →
    (∀ h d finds, fetchDesc s core finds = some (s, h, d) → c.pc < h.count →
      (descCause h.count d = none → modelCause (getSlot s h.slot) d = none → enginesOf d ≠ [] →
        (∀ e ∈ enginesOf d, (slotsOf c e).length < 4) → Completes (.descriptorDispatch core finds) s (fun t =>
          (getCore t core).pc = dNext d
          ∧ (∀ e ∈ enginesOf d, slotsOf (getCore t core) e = slotsOf c e ++ [slotFor (getSlot s h.slot) core c c.pc d])
          ∧ (∀ e, e ∉ enginesOf d → slotsOf (getCore t core) e = slotsOf c e)
          ∧ (∀ m, m ≠ core → getCore t m = getCore s m) ∧ t = { s with cores := t.cores })) ∧
      (∀ cause, descCause h.count d = some cause → Completes (.descriptorDispatch core finds) s (fun t =>
        (getCore t core).seqr = .faulted ∧ (getCore t core).faultIndex = BitVec.ofNat 9 c.pc
        ∧ (getCore t core).faultCause = BitVec.ofNat 7 cause
        ∧ (getCore t core).faultStatus = BitVec.ofNat 16 (causeStatus cause) ∧ (getCore t core).arraySlots = []
        ∧ (getCore t core).vecSlots = [] ∧ (getCore t core).moveSlots = []))) ∧
    (∀ e (before rest : List EngSlot) (x : EngSlot), (c.seqr = .running ∨ c.seqr = .draining) →
      slotsOf c e = before ++ x :: rest → (∀ y ∈ before, y.state ≠ .placed) → x.state = .placed → mayIssue c e before x = true →
      x.waiting = false →
      (issueCheck s core x = none → (headerWait x = false ∨ x.met = true) → Completes (.descriptorIssue core e) s (fun t =>
        slotsOf (getCore t core) e = before ++ { x with state := .issued, met := false } :: rest
        ∧ (∀ m, m ≠ core → getCore t m = getCore s m) ∧ t = { s with cores := t.cores })) ∧
      (∀ cause st, issueCheck s core x = some (cause, st) → (headerWait x = false ∨ x.met = true) →
        Completes (.descriptorIssue core e) s (fun t =>
          (getCore t core).seqr = .faulted ∧ (getCore t core).faultIndex = BitVec.ofNat 9 x.index
          ∧ (getCore t core).faultCause = BitVec.ofNat 7 cause ∧ (getCore t core).faultStatus = BitVec.ofNat 16 st)) ∧
      (headerWait x = true → x.met = false → dWaitLocal x.desc = false → s.waiters.length < 131072 →
        (tget s.knots (dWaitKnot x.desc)).value.toNat < x.target → Completes (.descriptorIssue core e) s (fun t =>
          slotsOf (getCore t core) e = before ++ { x with waiting := true } :: rest
          ∧ t.waiters = s.waiters ++ [{
              issuer := .engine core e, knot := dWaitKnot x.desc, target := x.target, tag := x.index }]
          ∧ t = { s with cores := t.cores, waiters := t.waiters }))) ∧
    (∀ e (before rest : List EngSlot) (x : EngSlot), slotsOf c e = before ++ x :: rest → enginesOf x.desc = [e] →
      (∀ y ∈ before, ¬ (y.index = x.index ∧ y.state = .executed)) → x.state = .executed → c.haltPending = none →
      (dSigEn x.desc = false → Completes (.descriptorComplete core e x.index) s (fun t =>
        slotsOf (getCore t core) e = before ++ rest ∧ (∀ e', e' ≠ e → slotsOf (getCore t core) e' = slotsOf c e')
        ∧ (∀ m, m ≠ core → getCore t m = getCore s m) ∧ t = { s with cores := t.cores })) ∧
      (dSigEn x.desc = true → signalHeld c e x = false → dSigLocal x.desc = false → Completes (.descriptorComplete core e x.index) s (fun t =>
        (slotsOf (getCore t core) e).length = (before ++ rest).length
        ∧ (tget t.knots (dSigKnot x.desc)).value.toNat = clamped ((tget s.knots (dSigKnot x.desc)).value.toNat + 1)
        ∧ ∀ m, m ≠ dSigKnot x.desc → tget t.knots m = tget s.knots m))) ∧
    (∀ (x : EngSlot) (es : List Engine), knotSlot c opKnotArrive = some (x, es) → x.waiting = false →
      remoteOf s x.desc = none →
      (kcLocal x.desc = false → 8192 ≤ kcKnot x.desc → Completes (.knotArrive core) s (fun t =>
        (tget t.knots (kcKnot x.desc)).value.toNat
          = clamped ((tget s.knots (kcKnot x.desc)).value.toNat + kcCount x.desc)
        ∧ (∀ m, m ≠ kcKnot x.desc → tget t.knots m = tget s.knots m) ∧ t.mem = s.mem)) ∧
      (kcLocal x.desc = true → Completes (.knotArrive core) s (fun t =>
        (tget (getCore t core).localKnots (kcKnot x.desc)).value.toNat
          = clamped ((tget c.localKnots (kcKnot x.desc)).value.toNat + kcCount x.desc)
        ∧ t = { s with cores := t.cores, throttled := t.throttled }))) ∧
    (∀ (x : EngSlot) (e : Engine), knotSlot c opKnotWait = some (x, [e]) →
      (x.met = true → Completes (.descKnotWait core) s (fun t =>
        (slotsOf (getCore t core) e).map (·.index) = (slotsOf c e).map (·.index)
        ∧ (∃ y ∈ slotsOf (getCore t core) e, y.index = x.index ∧ y.state = .executed)
        ∧ (∀ m, m ≠ core → getCore t m = getCore s m) ∧ t = { s with cores := t.cores })) ∧
      (x.met = false → x.waiting = false → remoteOf s x.desc = none → kcLocal x.desc = false → s.waiters.length < 131072 →
        (tget s.knots (kcKnot x.desc)).value.toNat < x.target → Completes (.descKnotWait core) s (fun t =>
          t.waiters = s.waiters ++ [{ issuer := .engine core e, knot := kcKnot x.desc, target := x.target, tag := x.index }]
          ∧ t.knots = s.knots ∧ t.mem = s.mem)))

/-- The rows of the array complete (R112 to R119, R123, R127 to R129, R140): an ARRAY_MM of one pass accumulates its
products column by column into the named accumulator, in the integer classes modulo 2^32, and masked columns keep
their values; a drain moves the accumulator to the column FIFOs and zeroes it; a drained column is written with its
format; a read that returns within 16 beats stalls nothing, and one after 30 beats gives the stalls of Table 04-5.
Completion: ARRAY_MM, ARRAY_DRAIN, DRAIN_COLUMN_WRITE and CORE_STORE_READ_RETURN answer a next state with their
effects, from every state and operands that meet the conditions named. Where it rests on the model's choices: log 7,
28, 108, 109. -/
def Obligations.ArrayOperations : Prop :=
  ∀ (s : State) (core : Nat) (c : Core), c = getCore s core →
    (∀ (x : EngSlot) (a b : Opd) (per : Nat) (isInt : Bool) (blks : List BlockRead),
      issuedSlot c .array opArrayMm = some x → a = { opd20 x.desc 16 with addr := x.addrA } →
      b = { opd20 x.desc 36 with addr := x.addrB } → mmPass x.desc = 0 → mmClass 0 a.fmt b.fmt = some (per, isInt) →
      rangesWait s (mmRangesA x.desc a ++ mmRangesB x.desc b ++ scaleRange core (mmAscale x.desc) a
        ++ scaleRange core (mmBscale x.desc) b) = false →
      engineOrder s core .array x (mmRangesA x.desc a ++ mmRangesB x.desc b ++ scaleRange core (mmAscale x.desc) a
        ++ scaleRange core (mmBscale x.desc) b) = false → (frozenColumns c).any (bitOf (dOpx x.desc)) = false →
      readOperands s core .array [] (mmRangesA x.desc a ++ mmRangesB x.desc b ++ scaleRange core (mmAscale x.desc) a
        ++ scaleRange core (mmBscale x.desc) b) = (s, blks) → anyPoison blks = false →
      ∀ (old : Accumulator), old = (if mmAcc x.desc = 0 then c.acc0 else c.acc1) → Completes (.arrayMm core [] none) s (fun t =>
        (∀ i j, i < 16 → j < 16 → ∀ v, v = (if mmClear x.desc then 0 else accValue old i j) →
          (bitOf (dOpx x.desc) j = false →
            accValue (if mmAcc x.desc = 0 then (getCore t core).acc0 else (getCore t core).acc1) i j = accValue old i j) ∧
          (bitOf (dOpx x.desc) j = true →
            accValue (if mmAcc x.desc = 0 then (getCore t core).acc0 else (getCore t core).acc1) i j
              = (cellPass blks core x.desc a b per isInt { planeA := 0, planeB := 0, acc := mmAcc x.desc } i j v).1
            ∧ (isInt = true → a.e0 % per = 0 →
                accValue (if mmAcc x.desc = 0 then (getCore t core).acc0 else (getCore t core).acc1) i j
                  = v + BitVec.ofInt 32 (((List.range a.e0).map (fun q =>
                      signed (elemBits a.fmt) (mmCodeA blks x.desc a i q 0) * signed (elemBits b.fmt) (mmCodeB blks b j q 0))).foldl
                        (· + ·) 0))))
        ∧ (if mmAcc x.desc = 0 then (getCore t core).acc1 = c.acc1 else (getCore t core).acc0 = c.acc0)
        ∧ (∃ y ∈ (getCore t core).arraySlots, y.index = x.index ∧ y.state = .executed)
        ∧ (∀ m, m ≠ core → getCore t m = getCore s m) ∧ t = { s with cores := t.cores })) ∧
    (∀ (x : EngSlot), issuedSlot c .array opArrayDrain = some x → c.drains = [] → Completes (.arrayDrain core) s (fun t =>
      (∀ j, j < 16 → tget (getCore t core).drains j = {
        values := (List.range 16).map (fun i => accValue (if drAcc x.desc = 0 then c.acc0 else c.acc1) i j)
        addr := ((x.addrC : Int) + j * (opd16 x.desc 16).s1).toNat, fmt := (opd16 x.desc 16).fmt, sat := drSat x.desc
        poisoned := (if drAcc x.desc = 0 then c.acc0 else c.acc1).poisoned })
      ∧ (∀ i j, accValue (if drAcc x.desc = 0 then (getCore t core).acc0 else (getCore t core).acc1) i j = 0)
      ∧ (if drAcc x.desc = 0 then (getCore t core).acc1 = c.acc1 else (getCore t core).acc0 = c.acc0)
      ∧ (∀ m, m ≠ core → getCore t m = getCore s m) ∧ t = { s with cores := t.cores })) ∧
    (∀ (column frozen apart : Nat) (k : DrainColumn), c.drains = [(column, k)] → k.poisoned = false → k.values.length = 16 →
      (k.fmt = 0 ∨ k.fmt = 1 ∨ k.fmt = 2 ∨ k.fmt = 0xB) → RangeVerifies s k.addr (16 * elemSize k.fmt) →
      Completes (.drainColumnWrite core column frozen apart) s (fun t =>
        Stores s t k.addr (k.values.flatMap (fun v => toBytes (elemSize k.fmt) (drainCode k.fmt k.sat v).1))
        ∧ (getCore t core).drains = []
        ∧ (getCore t core).arrOverflow = (c.arrOverflow || k.values.any (fun v => (drainCode k.fmt k.sat v).2.overflow))
        ∧ (∀ x, issuedSlot c .array opArrayDrain = some x →
            ∃ y ∈ (getCore t core).arraySlots, y.index = x.index ∧ y.state = .executed)
        ∧ (∀ m, m ≠ core → getCore t m = getCore s m) ∧ t = { s with mem := t.mem, cores := t.cores })) ∧
    (∀ (link late apart : Nat),
      (late ≤ 16 → exec (.coreStoreReadReturn core link late none apart) s = .next s) ∧
      (16 < late → exec (.coreStoreReadReturn core link late none apart) s
        = .next (modCore s core (addStall (runningMask c) late apart (some link) none)))) ∧
    (runningMask c = 0xFFFF → c.elastic = {} → c.stalls = none → Completes (.coreStoreReadReturn core 5 30 none 0) s (fun t =>
      (getCore t core).stallDry.toNat = Nat.min (c.stallDry.toNat + 14) 4294967295
      ∧ (getCore t core).stallHold.toNat = Nat.min (c.stallHold.toNat + 11) 4294967295
      ∧ (getCore t core).stallFreeze = c.stallFreeze ∧ rowOccupancy (getCore t core) 5 = 3
      ∧ (∀ m, m ≠ core → getCore t m = getCore s m) ∧ t = { s with cores := t.cores }))

/-- The elementwise sub-operations of VEC_OP (Tables 04-7 and 06-14, R134, R135, R148, R149) on a row: each element of
C takes the operation of its own elements, and a NaN operand gives the default NaN (R135). The row sub-operations of
VEC_OP and TOPK (Tables 04-7 and 06-14, R133, R147 to R152): the reductions give one value in the fixed tree, SOFTMAX
of a row of −∞ gives +0, SOFTMAX and the normalisations give their formulas' values within the accuracy that log entry
14 leaves free, CONVERT rounds each element to the target's format, SPLIT writes the high and the low part, TOPK as
many indices as OPX names. Completion: FMA, VEC_ADD, SUB, VEC_MUL, MIN, VEC_MAX, EXP, RCP, RSQRT, SILU, GELU,
REDUCE_SUM, REDUCE_MAX, SOFTMAX, RMSNORM, LAYERNORM, CONVERT, SPLIT and TOPK answer a next state with their effects,
from every state and operands that meet the conditions named. Where it rests on the model's choices: log 13, 14, 26,
27, 28, 99. -/
def Obligations.VectorOperations : Prop :=
  (
    (∀ (s : State) (core : Nat),
      VecCompletes (.fma core []) s core 0x00 true id (fun _ a b _ c => List.zipWith (fun p z => fp32Fma p.1 p.2 z) (a.zip b) c) ∧
      VecCompletes (.vecAdd core []) s core 0x01 false id (fun _ a b _ _ => List.zipWith fp32Add a b) ∧
      VecCompletes (.sub core []) s core 0x02 false id (fun _ a b _ _ => List.zipWith (fun u v => fp32Add u (fp32Neg v)) a b) ∧
      VecCompletes (.vecMul core []) s core 0x03 false id (fun _ a b _ _ => List.zipWith fp32Mul a b) ∧
      VecCompletes (.min core []) s core 0x04 false id (fun _ a b _ _ => List.zipWith fp32Min a b) ∧
      VecCompletes (.vecMax core []) s core 0x05 false id (fun _ a b _ _ => List.zipWith fp32Max a b) ∧
      VecCompletes (.exp core []) s core 0x08 false id (fun _ a _ _ _ => a.map vecExp) ∧
      VecCompletes (.rcp core []) s core 0x09 false id (fun _ a _ _ _ => a.map (vecRcp 1)) ∧
      VecCompletes (.rsqrt core []) s core 0x0A false id (fun _ a _ _ _ => a.map vecRsqrt) ∧
      VecCompletes (.silu core []) s core 0x0B false id (fun _ a _ _ _ => a.map vecSilu) ∧
      VecCompletes (.gelu core []) s core 0x0C false id (fun _ a _ _ _ => a.map vecGelu)) ∧
    (∀ a b c : Word,
      (isNan (valOf a) = true ∨ isNan (valOf b) = true → (fp32Add a b).1 = 0x7FC00000 ∧ (fp32Mul a b).1 = 0x7FC00000
        ∧ (fp32Min a b).1 = 0x7FC00000 ∧ (fp32Max a b).1 = 0x7FC00000) ∧
      (isNan (valOf a) = true ∨ isNan (valOf b) = true ∨ isNan (valOf c) = true → (fp32Fma a b c).1 = 0x7FC00000))) ∧
  (
    (∀ (s : State) (core : Nat),
      VecCompletes (.reduceSum core []) s core 0x10 false (fun _ => 1) (fun _ a _ _ _ => reduceTree fp32Add a) ∧
      VecCompletes (.reduceMax core []) s core 0x11 false (fun _ => 1) (fun _ a _ _ _ => reduceTree fp32Max a) ∧
      VecCompletes (.softmax core []) s core 0x18 false id (fun _ a _ _ _ =>
        if a.all (fun w => w == 0xFF800000) then a.map (fun _ => (0, {})) else openRow 0x18 a (Config.softmax a) (softmaxVals a)) ∧
      VecCompletes (.rmsnorm core []) s core 0x19 false id (fun x a b _ _ =>
        openRow 0x19 a (Config.rmsnorm a b (epsOf x.desc)) (rmsnormVals a b (epsOf x.desc))) ∧
      VecCompletes (.layernorm core []) s core 0x1A false id (fun x a b b1 _ =>
        openRow 0x1A a (Config.layernorm a b b1 (epsOf x.desc)) (layernormVals a b b1 (epsOf x.desc))) ∧
      (∀ (x : EngSlot) (n : Nat), VecRow s core 0x20 n n x → (opd16 x.desc 16).scaled = false →
        (opd16 x.desc 48).scaled = false → dOpx x.desc % 4 ≠ 1 → Completes (.convert core []) s (fun t =>
          Stores s t x.addrC ((codesAt s.mem (opd16 x.desc 16).fmt x.addrA n).flatMap (fun k =>
            toBytes (elemSize (opd16 x.desc 48).fmt) (encodeElem (opd16 x.desc 48).fmt .nearest (bitOf (dOpx x.desc) 2)
              (if (opd16 x.desc 16).fmt = 0xB then valOf (toFp32 (decodeElem 0xB k)).1 else decodeElem (opd16 x.desc 16).fmt k)).1))
          ∧ (∃ y ∈ (getCore t core).vecSlots, y.index = x.index ∧ y.state = .executed)
          ∧ t = { s with mem := t.mem, cores := t.cores })) ∧
      (∀ (x : EngSlot) (n : Nat), issuedVec (getCore s core) 0x21 = some x → 0 < n → (opd16 x.desc 16).fmt = 0 →
        (opd16 x.desc 16).e0 = n → (opd16 x.desc 16).e1 = 1 → (opd16 x.desc 16).e2 = 1 → (opd16 x.desc 16).s0 = 0 →
        (opd16 x.desc 48).fmt = 1 → (opd16 x.desc 48).s0 = 0 → (opd16 x.desc 48).s2 = 2 * (n : Int) →
        StoreRow s core x.addrA 0 n → StoreRow s core x.addrC 1 (2 * n) → Completes (.split core []) s (fun t =>
          Stores s t x.addrC ((codesAt s.mem 0 x.addrA n).flatMap (fun k => toBytes 2 (splitElem (BitVec.ofNat 32 k)).1.1)
            ++ (codesAt s.mem 0 x.addrA n).flatMap (fun k => toBytes 2 (splitElem (BitVec.ofNat 32 k)).2.1))
          ∧ (∃ y ∈ (getCore t core).vecSlots, y.index = x.index ∧ y.state = .executed)
          ∧ t = { s with mem := t.mem, cores := t.cores })) ∧
      (∀ (x : EngSlot) (n : Nat), issuedSlot (getCore s core) .vector opTopk = some x → 0 < n → 0 < dOpx x.desc →
        (opd16 x.desc 16).fmt = 0 → (opd16 x.desc 16).e0 = n → (opd16 x.desc 16).e1 = 1 → (opd16 x.desc 16).e2 = 1 →
        (opd16 x.desc 16).s0 = 0 → (opd16 x.desc 48).fmt = 0 → (opd16 x.desc 48).e0 = dOpx x.desc →
        (opd16 x.desc 48).e1 = 1 → (opd16 x.desc 48).e2 = 1 → (opd16 x.desc 48).s0 = 0 → StoreRow s core x.addrA 0 n →
        StoreRow s core x.addrC 0 (dOpx x.desc) → Completes (.topk core []) s (fun t =>
          Stores s t x.addrC ((topkIndices (dOpx x.desc) ((codesAt s.mem 0 x.addrA n).map (BitVec.ofNat 32))).flatMap (toBytes 4))
          ∧ (getCore t core).vecIv = (getCore s core).vecIv
          ∧ (∃ y ∈ (getCore t core).vecSlots, y.index = x.index ∧ y.state = .executed)
          ∧ t = { s with mem := t.mem, cores := t.cores }))) ∧
    (∀ (k : Nat) (scores : List Word), (topkIndices k scores).length = k
      ∧ ∀ i ∈ topkIndices k scores, i < scores.length ∨ i = 0xFFFFFFFF) ∧
    (∀ a b c d : Word, (reduceTree fp32Add [a, b, c, d]).map (·.1) = [(fp32Add (fp32Add a b).1 (fp32Add c d).1).1]) ∧
    (∀ a : Word, isNan (valOf a) = true → (reduceTree fp32Add [a]).map (·.1) = [0x7FC00000]
      ∧ (reduceTree fp32Max [a]).map (·.1) = [0x7FC00000]))

/-- The micro-operations that touch no memory (Table 08-5, R223, R224, R229, R230, R242): NOP, END, LOOP, SETP, CLR,
EXPT and RSQ change their bank's bobbin alone. Completion: NOP, END, UOP_LOOP, SETP, CLR, EXPT and RSQ answer a next
state with their effects, from every state and operands that meet the conditions named. Where it rests on the model's
choices: log 43. -/
def Obligations.BobbinControl : Prop :=
  ∀ (s : State) (ch slot bank : Nat) (r : BobRun) (b : Bobbin) (u : Word64), UopDue s ch slot r bank b u →
    (uCode u = 0x00 → Completes (.nop ch slot) s (fun t =>
      UopDone s t ch bank r 1 {} (fun v => v = { b with upc := b.upc + 1 }) ∧ t = { s with chans := t.chans })) ∧
    (uCode u = 0x01 → (∀ e ∈ r.banks, e.2.state ≠ .ready) → Completes (.endRun ch slot) s (fun t =>
      (∃ r', (getChan t ch).run = some r' ∧ tget r'.banks bank = { b with state := .ended } ∧ slotBank r' slot = none
        ∧ ∀ m, m ≠ bank → tget r'.banks m = tget r.banks m)
      ∧ (∀ c, c ≠ ch → getChan t c = getChan s c) ∧ t = { s with chans := t.chans })) ∧
    (uCode u = 0x02 → ∀ n, n = (if uCounter u = 0 then b.lc0 else b.lc1) + 1 →
      (n < uCount u → Completes (.uopLoop ch slot) s (fun t => UopDone s t ch bank r 1 {} (fun v =>
        v = { b with upc := uTarget u, lc0 := if uCounter u = 0 then n else b.lc0, lc1 := if uCounter u = 0 then b.lc1 else n })
        ∧ t = { s with chans := t.chans })) ∧
      (uCount u ≤ n → Completes (.uopLoop ch slot) s (fun t => UopDone s t ch bank r 1 {} (fun v =>
        v = { b with upc := b.upc + 1, lc0 := if uCounter u = 0 then 0 else b.lc0, lc1 := if uCounter u = 0 then b.lc1 else 0 })
        ∧ t = { s with chans := t.chans }))) ∧
    (uCode u = 0x03 → uPointer u < 3 → Completes (.setp ch slot) s (fun t => UopDone s t ch bank r 1 {} (fun v =>
      v = { b with upc := b.upc + 1, p0 := if uPointer u = 0 then uWordIndex u else b.p0
                   p1 := if uPointer u = 1 then uWordIndex u else b.p1, p2 := if uPointer u = 2 then uWordIndex u else b.p2 })
      ∧ t = { s with chans := t.chans })) ∧
    (uCode u = 0x05 → uPointer u < 3 → Completes (.clr ch slot) s (fun t => UopDone s t ch bank r 1 {} (fun v =>
      v = { b with upc := b.upc + 1, acc := [], typeI := decide (uPointer u = 2)
                   cfmt := if uPointer u = 0 then .bf16 else if uPointer u = 1 then .fp16 else .int16 })
      ∧ t = { s with chans := t.chans })) ∧
    (∀ c code g, (c, code, g) ∈ [(Instr.expt ch slot, 0x10, exptWord), (Instr.rsq ch slot, 0x11, rsqWord)] → uCode u = code →
      (b.typeI = false → Completes c s (fun t => UopDone s t ch bank r 4
          { invalid := (List.range 32).any (fun l => (g (laneAcc b l)).2.iv)
            overflow := (List.range 32).any (fun l => (g (laneAcc b l)).2.overflow) } (fun v =>
          v = { b with upc := b.upc + 1, acc := (List.range 32).map (fun l => (g (laneAcc b l)).1) })
        ∧ t = { s with chans := t.chans })) ∧
      (b.typeI = true → Completes c s (fun t => UopFaults t ch r.core 0x02 0x0020)))

/-- The micro-operations that read column words (Table 08-5, R226 to R231): LDV loads the chunk, MAC and MACW
accumulate products lane by lane, SCL, ADD, MUL and MAX combine 32 values with the accumulators, SUMSQ accumulates
squares; words beyond NEAR_ROWS and a chunk that ends too early fault. A command that asks for fewer steps than a MAC
has runs the K steps of those column cycles, and the bank stays at the micro-operation (R224). Completion: LDV, MAC,
MACW, SCL, UOP_ADD, MUL, MAX and SUMSQ answer a next state with their effects, from every state and operands that meet
the conditions named. Where it rests on the model's choices: log 13, 15, 43. -/
def Obligations.BobbinReads : Prop :=
  ∀ (s : State) (ch slot bank : Nat) (r : BobRun) (b : Bobbin) (u : Word64) (x : UopCtx), UopDue s ch slot r bank b u →
    x = uopCtx s ch bank r b u →
    (∀ w m f, uCode u = 0x04 → w = 32 * uRow u + 2 * uFirst u → m = uRegs u → f = uFirst u → f + m ≤ 16 → (b.v = [] ∨ b.v.length = 512) →
      WordsRead s x w (2 * m) → Completes (.ldv ch slot []) s (fun t => UopDone s t ch bank r (2 * m) {} (fun v =>
        v.upc = b.upc + 1 ∧ v = { b with upc := v.upc, v := v.v }
        ∧ ∀ e, e < 512 → chunkElem v e = if 32 * f ≤ e ∧ e < 32 * (f + m) then
            nearField s x (w + (e - 32 * f) / 16) (2 * ((e - 32 * f) % 16)) 2 else chunkElem b e)
        ∧ t = { s with chans := t.chans })) ∧
    (∀ n, uCode u = 0x06 → n = uN u → typesMatch b = true → uElem u + n ≤ 512 → WordsRead s x b.p0 (2 * n) →
      ∀ ls, ls = lanes b n (fun l i acc => laneStep b (cfmtCode b.cfmt)
        (nearField s x (b.p0 + 2 * i + l / 16) (2 * (l % 16)) 2) (uElem u + i) none acc) → ∀ k, Ends k (2 * n) →
      Completes (.mac ch slot [] k) s (fun t => UopDone s t ch bank r (2 * n) (laneFlags ls) (fun v =>
        v = { b with upc := b.upc + 1, p0 := b.p0 + 2 * n, acc := ls.map (·.1) }) ∧ t = { s with chans := t.chans })) ∧
    (∀ k, uCode u = 0x06 → 0 < k → 32 * k < uN u → typesMatch b = true → uElem u + uN u ≤ 512 → WordsRead s x b.p0 (64 * k) →
      ∀ ls, ls = lanes b (32 * k) (fun l i acc => laneStep b (cfmtCode b.cfmt)
        (nearField s x (b.p0 + 2 * i + l / 16) (2 * (l % 16)) 2) (uElem u + i) none acc) →
      Completes (.mac ch slot [] k) s (fun t => UopDone s t ch bank r (64 * k) (laneFlags ls) (fun v =>
        v = { b with done := k, acc := ls.map (·.1) }) ∧ t = { s with chans := t.chans })) ∧
    (∀ k, uCode u = 0x06 → 512 < uElem u + uN u → Completes (.mac ch slot [] k) s (fun t => UopFaults t ch r.core 0x02 0x0020)) ∧
    (∀ k, uCode u = 0x06 → Ends k (2 * uN u) → typesMatch b = true → uElem u + uN u ≤ 512 → 32 * x.nearRows < b.p0 + 2 * uN u →
      Completes (.mac ch slot [] k) s (fun t => UopFaults t ch r.core 0x04 0x0021)) ∧
    (∀ n fmt, uCode u = 0x07 → n = uN u → fmt = uFmt u → uScaled u = false → typesMatch b = true →
      macwOk b.cfmt fmt false = true → uElem u + n ≤ 512 → WordsRead s x b.p0 (if fmt = 9 then (n + 1) / 2 else n) →
      ∀ ls, ls = lanes b n (fun l i acc => laneStep b fmt
        (if fmt = 9 then (if i % 2 = 1 then nearField s x (b.p0 + i / 2) l 1 / 16 else nearField s x (b.p0 + i / 2) l 1 % 16)
         else nearField s x (b.p0 + i) l 1) (uElem u + i) none acc) → ∀ k, Ends k n →
      Completes (.macw ch slot [] k) s (fun t => UopDone s t ch bank r n (laneFlags ls) (fun v =>
        v = { b with upc := b.upc + 1, p0 := b.p0 + (if fmt = 9 then (n + 1) / 2 else n), acc := ls.map (·.1) })
        ∧ t = { s with chans := t.chans })) ∧
    (∀ n fmt per words, uCode u = 0x07 → n = uN u → fmt = uFmt u → uScaled u = true → typesMatch b = true →
      macwOk b.cfmt fmt true = true → uElem u + n ≤ 512 → uElem u % 32 = 0 → n % 32 = 0 →
      per = (if fmt = 7 then 17 else 33) → words = per * (n / 32) → onScaleWord s x per = true → WordsRead s x b.p0 words →
      ∀ ls, ls = lanes b n (fun l i acc => laneStep b fmt
        (if fmt = 7 then (if i % 2 = 1 then nearField s x (b.p0 + per * (i / 32) + 1 + i % 32 / 2) l 1 / 16
            else nearField s x (b.p0 + per * (i / 32) + 1 + i % 32 / 2) l 1 % 16)
         else nearField s x (b.p0 + per * (i / 32) + 1 + i % 32) l 1) (uElem u + i)
        (some (nearField s x (b.p0 + per * (i / 32)) l 1)) acc) →
      ∀ k, Ends k (if fmt = 7 then n else n + n / 32) → Completes (.macw ch slot [] k) s (fun t => UopDone s t ch bank r (if fmt = 7 then n else n + n / 32) (laneFlags ls) (fun v =>
        v = { b with upc := b.upc + 1, p0 := b.p0 + words, acc := ls.map (·.1) }) ∧ t = { s with chans := t.chans })) ∧
    (∀ c code ty g, (c, code, ty, g) ∈ [(Instr.scl ch slot [], 0x08, false, sclLane), (Instr.uopAdd ch slot [], 0x09, b.typeI, addLane),
        (Instr.mul ch slot [], 0x0A, b.typeI, mulLane), (Instr.max ch slot [], 0x0B, b.typeI, maxLane)] → uCode u = code →
      WordsRead s x b.p0 4 → ∀ ls, ls = (List.range 32).map (fun l =>
        g b.typeI (laneAcc b l) (BitVec.ofNat 32 (nearField s x (b.p0 + l / 8) (4 * (l % 8)) 4))) →
      Completes c s (fun t => UopDone s t ch bank r 4 (laneFlags ls) (fun v =>
        v = { b with upc := b.upc + 1, p0 := b.p0 + 4, typeI := ty, acc := ls.map (·.1) }) ∧ t = { s with chans := t.chans })) ∧
    (∀ n k, uCode u = 0x12 → n = uN u → Ends k n → typesMatch b = true → WordsRead s x b.p0 n → Completes (.sumsq ch slot [] k) s (fun t =>
      (∃ v, (getChan t ch).run = some { r with banks := tinsert r.banks bank v, exiting := false } ∧ v.upc = b.upc + 1 ∧ v.p0 = b.p0 + n
        ∧ (∀ l, 16 ≤ l → l < 32 → laneAcc v l = laneAcc b l)
        ∧ (b.typeI = true → ∀ l, l < 16 → laneAcc v l = laneAcc b l + BitVec.ofInt 32 (((List.range n).map (fun i =>
            signed 16 (nearField s x (b.p0 + i) (2 * l) 2) * signed 16 (nearField s x (b.p0 + i) (2 * l) 2))).foldl (· + ·) 0)))
      ∧ (∀ c, c ≠ ch → getChan t c = getChan s c) ∧ t = { s with chans := t.chans }))

/-- The micro-operations that write column words (Table 08-5, R233 to R237, R241): WB32 and WB16 write the
accumulators at P1 or return them, EADD and EMUL write the elementwise results, RMSN waits at its barrier, which
releases every bank with the common factor, and then writes; a write into the rows of weights faults. EADD, EMUL and
RMSN go word by word: an operand word that an earlier word of the same micro-operation wrote is read as it was
written. Completion: RMSN_BARRIER_RELEASE, WB16, WB32, EADD, EMUL and RMSN answer a next state with their effects,
from every state and operands that meet the conditions named. Where it rests on the model's choices: log 13, 15, 43.
-/
def Obligations.BobbinWrites : Prop :=
  (∀ (s : State) (ch slot bank : Nat) (r : BobRun) (b : Bobbin) (u : Word64) (x : UopCtx), UopDue s ch slot r bank b u →
    x = uopCtx s ch bank r b u →
    (uCode u = 0x0D → r.retAddr = none → b.p1 + 4 ≤ 32 * x.nearRows → b.p1 + 4 ≤ 16384 →
      (∀ w, w < 4 → weightRow s ch bank (x.rowBase + (b.p1 + w) / 32) = false) → Completes (.wb32 ch slot) s (fun t =>
        UopDone s t ch bank r 4 {} (fun v => v.upc = b.upc + 1 ∧ v.p1 = b.p1 + 4 ∧ v.acc = b.acc ∧ v.v = b.v)
        ∧ Stores s t (wordAddr x b.p1) ((List.range 32).flatMap (fun l => toBytes 4 (laneAcc b l).toNat)))) ∧
    (∀ a, uCode u = 0x0D → r.retAddr = some a → 32 * ((b.returned : Int) + 4) ≤ r.retS1 → 0 ≤ r.retS2 →
      (a : Int) + (ch % 8 : Nat) * r.retS2 + bank * r.retS1 + 32 * b.returned + 128 ≤ storeBase (ch / 8) + 0x38000 →
      storeBase (ch / 8) ≤ a → Completes (.wb32 ch slot) s (fun t =>
        UopDone s t ch bank r 4 {} (fun v => v.upc = b.upc + 1 ∧ v.returned = b.returned + 4)
        ∧ Stores s t ((a : Int) + (ch % 8 : Nat) * r.retS2 + bank * r.retS1 + 32 * b.returned).toNat
            ((List.range 32).flatMap (fun l => toBytes 4 (laneAcc b l).toNat)))) ∧
    (uCode u = 0x0D → r.retAddr = none → b.p1 + 4 ≤ 32 * x.nearRows → b.p1 + 4 ≤ 16384 →
      weightRow s ch bank (x.rowBase + b.p1 / 32) = true → Completes (.wb32 ch slot) s (fun t =>
        UopFaults t ch r.core 0x06 0x0025)) ∧
    (uCode u = 0x0C → r.retAddr = none → b.typeI = false → (uFmt u = 1 ∨ uFmt u = 2) → b.p1 + 2 ≤ 32 * x.nearRows →
      b.p1 + 2 ≤ 16384 → (∀ w, w < 2 → weightRow s ch bank (x.rowBase + (b.p1 + w) / 32) = false) →
      Completes (.wb16 ch slot) s (fun t =>
        UopDone s t ch bank r 2
          { overflow := (List.range 32).any (fun l => (encodeElem (uFmt u) .nearest (uSat u) (valOf (laneAcc b l))).2.overflow) }
          (fun v => v.upc = b.upc + 1 ∧ v.p1 = b.p1 + 2 ∧ v.acc = b.acc)
        ∧ Stores s t (wordAddr x b.p1) ((List.range 32).flatMap (fun l =>
            toBytes 2 (encodeElem (uFmt u) .nearest (uSat u) (valOf (laneAcc b l))).1)))) ∧
    (∀ k c code isMul n, (c, code, isMul) ∈ [(Instr.eadd ch slot [] k, 0x13, false), (Instr.emul ch slot [] k, 0x14, true)] →
      uCode u = code → n = uN u → Ends k (3 * n) → r.retAddr = none → WordsRead s x b.p0 n → WordsRead s x b.p2 n →
      b.p1 + n ≤ 32 * x.nearRows → b.p1 + n ≤ 16384 →
      (∀ w, w < n → weightRow s ch bank (x.rowBase + (b.p1 + w) / 32) = false) →
      ∀ (cs : List (Nat × BobFlags)), cs.length = 16 * n →
      ∀ y : Nat → Nat → Nat, (∀ p j, y p j = if b.p1 ≤ p + j / 16 ∧ p < b.p1
        then (cs.getD (16 * (p + j / 16 - b.p1) + j % 16) (0, {})).1 % 65536 else nearField s x (p + j / 16) (2 * (j % 16)) 2) →
      (∀ j, j < 16 * n → cs.getD j (0, {}) = elemOp isMul b.cfmt (Config.freeBits 16 (s.free + j)) (y b.p0 j) (y b.p2 j)) →
      Completes c s (fun t =>
        UopDone s t ch bank r (3 * n) (cs.foldl (fun f y => arrOr f y.2) {}) (fun v =>
          v.upc = b.upc + 1 ∧ v.p0 = b.p0 + n ∧ v.p1 = b.p1 + n ∧ v.p2 = b.p2 + n ∧ v.acc = b.acc)
        ∧ Stores s t (wordAddr x b.p1) (cs.flatMap (fun y => toBytes 2 y.1)))) ∧
    (uCode u = 0x15 → b.typeI = false → b.cfmt ≠ .int16 → b.released = false →
      (∀ e ∈ r.banks, e.2.state ≠ .ready) → ∀ k, Completes (.rmsn ch slot [] k) s (fun t =>
        (∃ r', (getChan t ch).run = some r' ∧ tget r'.banks bank = { b with state := .atBarrier } ∧ slotBank r' slot = none)
        ∧ t = { s with chans := t.chans })) ∧
    (∀ n k, uCode u = 0x15 → n = uN u → Ends k (3 * n) → b.typeI = false → b.cfmt ≠ .int16 → b.released = true → r.retAddr = none →
      WordsRead s x b.p0 n → WordsRead s x b.p2 n → b.p1 + n ≤ 32 * x.nearRows → b.p1 + n ≤ 16384 →
      (∀ w, w < n → weightRow s ch bank (x.rowBase + (b.p1 + w) / 32) = false) →
      ∀ cs : List Nat, cs.length = 16 * n →
      ∀ y : Nat → Nat → Nat, (∀ p j, y p j = if b.p1 ≤ p + j / 16 ∧ p < b.p1
        then cs.getD (16 * (p + j / 16 - b.p1) + j % 16) 0 % 65536 else nearField s x (p + j / 16) (2 * (j % 16)) 2) →
      (∀ j, j < 16 * n → cs.getD j 0 = (toCfmt b.cfmt
        ((mulVal (mulVal (decodeElem (cfmtCode b.cfmt) (y b.p0 j)) (valOf (laneAcc b 0))).1 (decodeElem (cfmtCode b.cfmt) (y b.p2 j))).1,
          (mulVal (decodeElem (cfmtCode b.cfmt) (y b.p0 j)) (valOf (laneAcc b 0))).2 || (mulVal (mulVal (decodeElem (cfmtCode b.cfmt) (y b.p0 j)) (valOf (laneAcc b 0))).1 (decodeElem (cfmtCode b.cfmt) (y b.p2 j))).2)).1) →
      Completes (.rmsn ch slot [] k) s (fun t =>
        (∃ v, (getChan t ch).run = some { r with banks := tinsert r.banks bank v, exiting := false } ∧ v.upc = b.upc + 1 ∧ v.released = false
          ∧ v.p0 = b.p0 + n ∧ v.p1 = b.p1 + n ∧ v.p2 = b.p2 + n)
        ∧ Stores s t (wordAddr x b.p1) (cs.flatMap (fun z => toBytes 2 z))))) ∧
    (∀ (s : State) (ch : Nat) (q : BobRun) (first : Nat × Bobbin) (rest : Table Bobbin), (getChan s ch).run = some q → q.banks = first :: rest →
      (q.banks.map (·.1)).Pairwise (· < ·) →
      (∀ e ∈ q.banks, e.2.state = .atBarrier ∧ e.2.upc = first.2.upc) → Completes (.rmsnBarrierRelease ch) s (fun t =>
        (∃ r', (getChan t ch).run = some r' ∧ r'.banks.map (·.1) = q.banks.map (·.1)
          ∧ (∀ e ∈ r'.banks, e.2.released = true ∧ (e.2.state = .ready ∨ e.2.state = .active) ∧ e.2.acc = List.replicate 32
              (rmsnScale ((q.banks.flatMap (fun y => (List.range 16).map (laneAcc y.2))).tail.foldl (fun a w => (fp32Add a w).1)
                (laneAcc first.2 0)) (uN (q.uops.getD first.2.upc 0)) q.banks.length (uEps (q.uops.getD first.2.upc 0))).1)
          ∧ r'.slot0 = some first.1)
        ∧ (∀ c, c ≠ ch → getChan t c = getChan s c) ∧ t = { s with chans := t.chans }))

/-- MOVE and ATTN_GATHER (R54, R173, R291 to R293, Table 10-10): each waits while bytes that it reaches are yet to be
written by an earlier descriptor of its engine; else it completes: a move between rows that do not meet copies exactly
its bytes; a gather whose row does not apply writes a bias of −∞, and one of a present page writes the page's keys and
values token by token, the bias of its positions and the append record of its row. Completion: MOVE and ATTN_GATHER
answer a next state with their effects, from every state and operands that meet the conditions named. Where it rests
on the model's choices: log 44, 45, 110. -/
def Obligations.MoveAndGather : Prop :=
  ∀ (s : State) (core : Nat) (x : EngSlot) (a c : Opd),
    (∀ n, issuedSlot (getCore s core) .move opMove = some x → a = { opd20 x.desc 16 with addr := x.addrA } →
      c = { opd20 x.desc 36 with addr := x.addrC } → elemBits a.fmt ≠ 4 → c.fmt = a.fmt → 0 < n → a.e0 = n → c.e0 = n →
      a.e1 = 1 → a.e2 = 1 → c.e1 = 1 → c.e2 = 1 → a.s0 = 0 → c.s0 = 0 →
      x.addrA + elemSize a.fmt * n ≤ 0xE200000000 → x.addrC + elemSize a.fmt * n ≤ 0xE200000000 →
      (x.addrA + elemSize a.fmt * n ≤ x.addrC ∨ x.addrC + elemSize a.fmt * n ≤ x.addrA) →
      rangesWait s (opdRanges a ++ opdRanges c) = false → engineOrder s core .move x (opdRanges a ++ opdRanges c) = false → RangeVerifies s x.addrA (elemSize a.fmt * n) →
      RangeVerifies s x.addrC (elemSize a.fmt * n) → Completes (.move core []) s (fun t =>
        Stores s t x.addrC (readBytes s.mem x.addrA (elemSize a.fmt * n))
        ∧ (∃ y ∈ (getCore t core).moveSlots, y.index = x.index ∧ y.state = .executed)
        ∧ (∀ m, m ≠ core → getCore t m = getCore s m)
        ∧ t = { s with mem := t.mem, cores := t.cores, throttled := t.throttled })) ∧
    (issuedSlot (getCore s core) .move opMove = some x → a = { opd20 x.desc 16 with addr := x.addrA } →
      c = { opd20 x.desc 36 with addr := x.addrC } → engineOrder s core .move x (opdRanges a ++ opdRanges c) = true →
      exec (.move core []) s = .next s) ∧
    (issuedSlot (getCore s core) .move opGather = some x → scList x.desc = false → engineOrder s core .move x (cutRanges x) = true →
      exec (.attnGather core []) s = .next s) ∧
    (issuedSlot (getCore s core) .move opGather = some x → c = { opd20 x.desc 24 with addr := x.addrC } →
      engineOrder s core .move x (cutRanges x ++ (if scList x.desc then
        [(((storeBase core + scFirst x.desc % 2 ^ 18 : Nat) : Int), 4 * dOpx x.desc)] else [])) = false → ∀ e, e = rowEntryOf (getCore s core) x.row →
      (appliesTo x.desc e = false → RangeVerifies s (biasAddr c) (4 * (c.e1 + 64)) → Completes (.attnGather core []) s (fun t =>
        Stores s t (biasAddr c) ((List.range (c.e1 + 64)).flatMap (fun _ => toBytes 4 0xFF800000))
        ∧ (∃ y ∈ (getCore t core).moveSlots, y.index = x.index ∧ y.state = .executed)
        ∧ t = { s with mem := t.mem, cores := t.cores })) ∧
      (∀ (g : Geometry) (pg key fn k : Nat), appliesTo x.desc e = true → scList x.desc = false → scKv x.desc = 3 →
        g = geometryOf (getSlot s (getSeq s e.seq).modelSlot) → namedPages x.desc (pagesBelow g e.length) = [pg] →
        pg < pagesBelow g e.length → key = pteKey e.seq (scLayer x.desc) (scHgroup x.desc) false pg →
        (getPte s key).state = .present → fn = (getPte s key).fn → (frameOf s fn).allocated = true →
        1 ≤ (frameOf s fn).refcount → frameOut s fn = false → frameAddr fn + 16384 ≤ 0xE000000000 →
        k = Nat.min g.tpp (e.length - pg * g.tpp) → k ≤ c.e1 → c.s1 = keyBytes g → c.e2 = 2 →
        c.s2 = ((c.e1 + 64 : Nat) : Int) * c.s1 → g.tpp * keyBytes g ≤ 8192 → 0 < keyBytes g →
        (∀ tab, (getCore s core).rowTable = some tab → tab.path = true) → (getCore s core).rowTable.isSome = true →
        rangesWait s [(((frameAddr fn : Nat) : Int), 16384)] = false →
        engineOrder s core .move x ([(((frameAddr fn : Nat) : Int), 16384)] ++ cutRanges x) = false → RangeVerifies s (frameAddr fn) 16384 → core < 8192 →
        storeBase core ≤ x.addrC → biasAddr c + 4 * (c.e1 + 64) ≤ storeBase core + 0x38000 →
        RangeVerifies s x.addrC (biasAddr c + 4 * (c.e1 + 64) - x.addrC) → (getCore s core).appends = [] →
        Completes (.attnGather core []) s (fun t =>
          (∀ tok i, tok < k → i < keyBytes g →
            readByte t.mem (x.addrC + tok * keyBytes g + i) = readByte s.mem (frameAddr fn + tok * keyBytes g + i)
            ∧ readByte t.mem (x.addrC + (c.e1 + 64 + tok) * keyBytes g + i)
              = readByte s.mem (frameAddr fn + 8192 + tok * keyBytes g + i))
          ∧ readBytes t.mem (biasAddr c) (4 * (c.e1 + 64)) = biasRow k c.e1 e.newTokens
          ∧ (∀ j, j < storeBase core ∨ storeBase core + 0x40000 ≤ j → readByte t.mem j = readByte s.mem j)
          ∧ (getCore t core).appends = [{
              row := x.row, layer := scLayer x.desc, hgroup := scHgroup x.desc, addr := x.addrC + c.e1 * keyBytes g
              stride := c.s1, plane := c.s2 }]
          ∧ (frameOf t fn).gpins = (frameOf s fn).gpins
          ∧ ∃ y ∈ (getCore t core).moveSlots, y.index = x.index ∧ y.state = .executed)))

/-- Processor mode (R218 to R222, R296): a BOBBIN_SEQ or a SWATCH_SCORE with candidates queues its channels for
admission, a score without candidates gives NaN everywhere, a grant below LIMIT starts the first admissible channel's
run, of a sequence or of a score's tiles, and the exit of the last channel completes the descriptor; a block that the
run wrote in part keeps its bytes and gains a fresh check value, and one whose old bytes failed their check is
poisoned (R70, Table 08-3). Completion: BOBBIN_SEQ, SWATCH_SCORE, ADMISSION_GRANT and PROCESSOR_MODE_EXIT answer a
next state with their effects, from every state and operands that meet the conditions named. Where it rests on the
model's choices: log 106. -/
def Obligations.ProcessorMode : Prop :=
  ∀ (s : State) (core ch region : Nat) (x : EngSlot),
    (firstThat (newSlot opBobbin) (getCore s core).moveSlots = some x → engineOrder s core .move x (cutRanges x
        ++ [(((storeBase core + bcOffset x.desc : Nat) : Int), 8 * bcLen x.desc)]
        ++ ((maskChans core (bcMask x.desc)).map (fun m => (((m * 0x800000 : Nat) : Int), 0x800000)))) = false → Completes (.bobbinSeq core) s (fun t =>
      (∀ m ∈ maskChans core (bcMask x.desc), (getChan t m).waitAdmit = (getChan s m).waitAdmit ++ [(core, x.index)]
        ∧ ((getChan s m).run = none → m ∈ (getRegion t (m / 4096)).admitQueue))
      ∧ (∀ m, m ∉ maskChans core (bcMask x.desc) → getChan t m = getChan s m)
      ∧ (∀ m, m ≠ core → getCore t m = getCore s m)
      ∧ t = { s with cores := t.cores, chans := t.chans, regions := t.regions })) ∧
    (∀ c : Opd, c = { opd20 x.desc 44 with addr := x.addrC } → firstThat (newSlot opScore) (getCore s core).moveSlots = some x →
      engineOrder s core .move x (cutRanges x ++ opdRanges { opd20 x.desc 24 with addr := x.addrA }
        ++ ((scoreCandidates s core x).map (fun y => y.2.2)).eraseDups.map (fun fn => (((frameAddr fn : Nat) : Int), 16384))) = false →
      0 < dOpx x.desc → c.e0 = dOpx x.desc → c.e1 = 1 → c.e2 = 1 → c.s0 = 0 → c.fmt = 0 →
      RangeVerifies s x.addrC (4 * dOpx x.desc) → Completes (.swatchScore core []) s (fun t =>
        Stores s t x.addrC ((List.range (dOpx x.desc)).flatMap (fun _ => toBytes 4 0x7FC00000))
        ∧ (scoreCandidates s core x = [] →
            (∃ y ∈ (getCore t core).moveSlots, y.index = x.index ∧ y.state = .executed)
            ∧ t = { s with mem := t.mem, cores := t.cores })
        ∧ ∀ y ∈ scoreCandidates s core x, (core, x.index) ∈ (getChan t (fnChan y.2.2)).waitAdmit
            ∧ 1 ≤ (frameOf t y.2.2).gpins)) ∧
    (admitLimit (getRegion s region).admitLevel.toNat ≤ (getRegion s region).active →
      exec (.admissionGrant region []) s = .next s) ∧
    (∀ (index : Nat) (rest : List (Nat × Nat)) (uops : List Word64), (getRegion s region).inReset = false →
      (getRegion s region).active < admitLimit (getRegion s region).admitLevel.toNat →
      firstThat (grantable s) (getRegion s region).admitQueue = some ch → (getChan s ch).waitAdmit = (core, index) :: rest →
      firstThat (holdsChan index ch) (getCore s core).moveSlots = some x → dOpcode x.desc = opBobbin → core < 8192 →
      0 < bcLen x.desc → bcOffset x.desc + 8 * bcLen x.desc ≤ 0x38000 →
      RangeVerifies s (storeBase core + bcOffset x.desc) (8 * bcLen x.desc) →
      uops = (List.range (bcLen x.desc)).map (fun i =>
        BitVec.ofNat 64 (leNat (readBytes s.mem (storeBase core + bcOffset x.desc + 8 * i) 8))) →
      (∀ ril, ril = (getCore s core).program.any (fun p => rilavanik (getSlot s p.slot)) → sequenceOk ril uops = true) →
      Completes (.admissionGrant region []) s (fun t =>
        (∃ r, (getChan t ch).run = some r ∧ r.core = core ∧ r.slotIndex = index ∧ r.uops = uops
          ∧ r.banks.map (·.1) = (List.range 16).filter (fun b => bitOf (bcArg x.desc) b)
          ∧ ∀ e ∈ r.banks, e.2.upc = 0 ∧ e.2.acc = [] ∧ e.2.v = [])
        ∧ (getChan t ch).waitAdmit = rest ∧ (getRegion t region).active = (getRegion s region).active + 1
        ∧ ch ∉ (getRegion t region).admitQueue ∧ (∀ m, m ≠ ch → getChan t m = getChan s m)
        ∧ t = { s with chans := t.chans, regions := t.regions })) ∧
    (∀ (index : Nat) (rest : List (Nat × Nat)), (getRegion s region).inReset = false →
      (getRegion s region).active < admitLimit (getRegion s region).admitLevel.toNat →
      firstThat (grantable s) (getRegion s region).admitQueue = some ch → (getChan s ch).waitAdmit = (core, index) :: rest →
      firstThat (holdsChan index ch) (getCore s core).moveSlots = some x → dOpcode x.desc = opScore →
      Completes (.admissionGrant region []) s (fun t =>
        (∃ r, (getChan t ch).run = some r ∧ r.core = core ∧ r.slotIndex = index ∧ r.score = true ∧ r.uops.map uCode ∈
            [[0x05, 0x06, 0x0D], [0x05, 0x07, 0x0D]]
          ∧ ∀ e ∈ r.banks, e.2.upc = 0 ∧ e.2.acc = [] ∧ ∃ y ∈ scoreCandidates s core x, fnChan y.2.2 = ch ∧ fnBank y.2.2 = e.1)
        ∧ (getChan t ch).waitAdmit = rest ∧ (getRegion t region).active = (getRegion s region).active + 1)) ∧
    (∀ r, (getChan s ch).run = some r → r.score = false → allEnded r = true → (∀ e ∈ r.banks, e.2.olds = []) → r.core = core →
      firstThat (holdsChan r.slotIndex ch) (getCore s core).moveSlots = some x → x.chans = [ch] → r.poisoned = false →
      x.poisoned = false → Completes (.processorModeExit ch []) s (fun t =>
        (getChan t ch).run = none ∧ (getRegion t (ch / 4096)).active = (getRegion s (ch / 4096)).active - 1
        ∧ (∃ y ∈ (getCore t core).moveSlots, y.index = x.index ∧ y.state = .executed)
        ∧ (∀ m, m ≠ ch → getChan t m = getChan s m) ∧ (∀ m, m ≠ core → getCore t m = getCore s m)
        ∧ t = { s with cores := t.cores, chans := t.chans, regions := t.regions })) ∧
    (∀ (r : BobRun) (bank blk : Nat) (b : Bobbin) (old : Bytes) (tag : Tag), (getChan s ch).run = some r → r.score = false →
      allEnded r = true → r.banks = [(bank, b)] → b.olds = [(blk, old, tag)] → r.poisoned = false → Verifies s blk →
      Completes (.processorModeExit ch []) s (fun t =>
        (getChan t ch).run = none ∧ (∀ j, readByte t.mem j = readByte s.mem j)
        ∧ (checkTag blk old tag = some (false, true) → (∀ y ∈ (getCore s r.core).moveSlots, y.poisoned = false) →
          checkTag blk (blockBytes t blk) (tagOf t.mem blk) = some (false, true))
        ∧ (checkTag blk old tag = none → (tagOf t.mem blk).poison = true)))

/-- The commands and the sample of the power manager (R357, R358, R426, R445, R448, R449, R502): a cap is taken
between 600 W and the licence's maximum and replies at the next sample, which moves each region's rung by its budget;
a query and a telemetry record answer from the manager's state; a stream record goes to its ring, or is dropped where
the ring lacks room. Completion: TELEM_READ, TELEM_STREAM, TELEM_STREAM_PERIOD, POWER_CAP_SET, POWER_QUERY and
POWER_SAMPLE answer a next state with their effects, from every state and operands that meet the conditions named.
Where it rests on the model's choices: log 91. -/
def Obligations.PowerCommands : Prop :=
  ∀ (s : State) (p : Nat) (k : Packet),
    (MayBegin s p 0x0803 k →
      (argAt k 0x10 4 < 600 → Completes (.powerCapSet p) s (fun t =>
        Answers t p 0x0020 [] ∧ t = { s with packets := t.packets })) ∧
      (600 ≤ argAt k 0x10 4 → licenceMax s < argAt k 0x10 4 → Completes (.powerCapSet p) s (fun t =>
        Answers t p 0x0024 [] ∧ t = { s with packets := t.packets })) ∧
      (600 ≤ argAt k 0x10 4 → argAt k 0x10 4 ≤ licenceMax s → Completes (.powerCapSet p) s (fun t =>
        answerOf t p = none ∧ t.power = { s.power with capPending := s.power.capPending ++ [p] }
        ∧ t = { s with power := t.power, packets := t.packets }))) ∧
    (∀ (r : HubReadings), managerUp s = true →
      (s.pcie.phase ≠ 2 → s.power.capPending = [p] → getPacket s p = some k → k.answer = none →
        Completes (.powerSample r) s (fun t =>
          t.power.capSet = some (argAt k 0x10 4) ∧ t.power.capPending = []
          ∧ Answers t p 0 (toBytes 4 (Nat.min (argAt k 0x10 4) (licenceMax s))))) ∧
      (s.pcie.phase ≠ 2 → Completes (.powerSample r) s (fun t => t.thermal.stop = 0 → ∀ g ∈ regionsOn s,
        (getRegion t g).rung = if 11 / 10 * budgetOf t g < (getRegion t g).power then (getRegion s g).rung - 2
          else if budgetOf t g < (getRegion t g).power then (getRegion s g).rung - 1 else (getRegion s g).rung)) ∧
      (s.pcie.phase = 2 → Completes (.powerSample r) s (fun t =>
        (getSensor t 528).reading = codeReading r.inlet.toNat ∧ (getSensor t 529).reading = codeReading r.outlet.toNat
        ∧ t.regions = s.regions ∧ t.packets = s.packets ∧ t.power.step = s.power.step ∧ t.power.capSet = s.power.capSet))) ∧
    (MayBegin s p 0x0804 k → Completes (.powerQuery p) s (fun t =>
      Answers t p 0 (toBytes 4 (milliwatt s.power.packagePower) ++ toBytes 4 (capInEffect s)
        ++ toBytes 4 (s.power.step + 256 * ((regionsOn s).map (fun r => (getRegion s r).admitLevel.toNat)).foldl Nat.min
          (((regionsOn s).map (fun r => (getRegion s r).admitLevel.toNat)).headD 0)) ++ toBytes 4 (highestRth s))
      ∧ t = { s with packets := t.packets })) ∧
    (∀ b, MayBegin s p 0x0801 k → argAt k 0x10 4 < 256 → b = telemRecord s (argAt k 0x10 4) → (bufB k).host = true →
      s.pcie.d3hot = false → s.pcie.busMaster = true →
      (b.length ≤ (bufB k).len → Completes (.telemRead p) s (fun t =>
        t.pcie = { s.pcie with tx := s.pcie.tx ++ [.memWrite (bufB k).addr b false true] } ∧ Answers t p 0 (toBytes 4 b.length)
        ∧ t.power = { s.power with telemSeq := (s.power.telemSeq + 1) % 2 ^ 32 }
        ∧ t = { s with pcie := t.pcie, packets := t.packets, power := t.power })) ∧
      ((bufB k).len < b.length → Completes (.telemRead p) s (fun t =>
        Answers t p 0x0020 [] ∧ t = { s with packets := t.packets }))) ∧
    (MayBegin s p 0x0802 k → argAt k 0x10 4 < 256 → Completes (.telemStream p) s (fun t =>
      t.power = { s.power with streamMask := BitVec.ofNat 32 (argAt k 0x10 4), streamPeriod := argAt k 0x14 4 }
      ∧ Answers t p 0 [] ∧ t = { s with power := t.power, packets := t.packets })) ∧
    (∀ len, managerUp s = true → 0 < s.power.streamPeriod →
      len = ((telemRecord s s.power.streamMask.toNat).length + 63) / 64 * 64 →
      s.errors.tlmTail.toNat % 2097152 + len ≤ 2097152 →
      (RangeVerifies s (0xE01EE00000 + s.errors.tlmTail.toNat % 2097152) len → (s.errors.tlmTail - s.errors.tlmHead).toNat + len ≤ 2097152 → Completes .telemStreamPeriod s (fun t =>
        Stores s t (0xE01EE00000 + s.errors.tlmTail.toNat % 2097152) (padTo len (telemRecord s s.power.streamMask.toNat))
        ∧ t.errors = { s.errors with tlmTail := s.errors.tlmTail + BitVec.ofNat 32 len }
        ∧ t.power = { s.power with telemSeq := (s.power.telemSeq + 1) % 2 ^ 32 }
        ∧ t = { s with mem := t.mem, errors := t.errors, power := t.power, pcie := t.pcie })) ∧
      (2097152 < (s.errors.tlmTail - s.errors.tlmHead).toNat + len → Completes .telemStreamPeriod s (fun t =>
        t.errors.tlmDropped.toNat = Nat.min (s.errors.tlmDropped.toNat + 1) 4294967295
        ∧ t.errors.tlmTail = s.errors.tlmTail ∧ t.mem = s.mem)))

/-- The timed changes of the power manager (R201, R202, R258, R259, R415, R427, R435, R436, R438, R442 to R444, R448,
R450, R457): each acts when its count of samples has been reached, on its own layer, stack, sensor, region or step. A
C-die's telemetry record carries the die's own number and counter (R63, R64); a divider change goes to each C-die as a
control message, and a die whose hub port is quiesced keeps its divider until traffic resumes (R36, R37, R420).
Completion: BAND_FALL, THROTTLE_FALL, STACK_READOUT_MISSING, TELEM_MISS_HOLD, TELEM_LOST, SENSOR_NO_READING,
SENSOR_FAULT_DECISION, SENSOR_SUSPECT_CLEAR, SENSOR_SUSPECT_FAULTY, INLET_HOT, RUNG_RISE, CLOCK_STEP_DOWN,
CLOCK_STEP_UP, STEP_UP_VOLTAGE_CONFIRMED, STEP_UP_ABANDON, TELEM and TELEM_MISS_TIMER answer a next state with their
effects, from every state and operands that meet the conditions named. Where it rests on the model's choices: log 89,
91. -/
def Obligations.PowerTimers : Prop :=
  ∀ (s : State) (pos layer n g a b : Nat), managerUp s = true → pos < 4 → layer < 8 →
    (∀ v, v = tget s.thermal.bands (pos * 8 + layer) → 0 < v → 40 ≤ tget s.thermal.bandBelow (pos * 8 + layer) →
      Completes (.bandFall pos layer) s (fun t => tget t.thermal.bands (pos * 8 + layer) = v - 1
        ∧ (∀ m, m ≠ pos * 8 + layer → tget t.thermal.bands m = tget s.thermal.bands m)
        ∧ (∀ c, 2048 * pos ≤ c → c < 2048 * (pos + 1) → (getChan t (chanOf c layer)).band = BitVec.ofNat 2 (v - 1)
            ∧ (getChan t (chanOf c layer)).relaxed = decide (2 ≤ v - 1))
        ∧ t = { s with thermal := t.thermal, chans := t.chans })) ∧
    (∀ k, k = tget s.hbmStacks n → k.out = false → k.held = false →
      (40 ≤ k.below → 0 < k.step → Completes (.throttleFall n) s (fun t =>
        tget t.hbmStacks n = { k with step := k.step - 1, below := 0 } ∧ (∀ m, m ≠ n → tget t.hbmStacks m = tget s.hbmStacks m)
        ∧ t = { s with hbmStacks := t.hbmStacks })) ∧
      (4 ≤ k.missing → Completes (.stackReadoutMissing n) s (fun t =>
        tget t.hbmStacks n = { k with step := 3, held := true, below := 0 }
        ∧ (∀ m, m ≠ n → tget t.hbmStacks m = tget s.hbmStacks m)))) ∧
    (∀ r, dieServes s pos = true → (tget s.dies pos).clocksStopped = false → Completes (.telem pos r) s (fun t =>
      tget t.dies pos = { tget s.dies pos with
        telem := some { r with seq := (tget s.dies pos).telemSeq, counter := counterOf s pos }
        telemSeq := ((tget s.dies pos).telemSeq + 1) % 2 ^ 32, misses := 0 } ∧ (∀ m, m ≠ pos → tget t.dies m = tget s.dies m)
      ∧ t = { s with dies := t.dies })) ∧
    (dieServes s pos = true → Completes (.telemMissTimer pos) s (fun t =>
      (tget t.dies pos).misses = (tget s.dies pos).misses + 1
      ∧ (tget t.dies pos).telemMissedHub.toNat = Nat.min ((tget s.dies pos).telemMissedHub.toNat + 1) 4294967295
      ∧ (∀ m, m ≠ pos → tget t.dies m = tget s.dies m) ∧ t = { s with dies := t.dies })) ∧
    (4 ≤ (tget s.dies pos).misses → Completes (.telemMissHold pos) s (fun t =>
      (∀ r, r / 4 = pos → regionOn s r = true → (getRegion t r).rung ≤ 2 ∧ (getRegion t r).rung ≤ (getRegion s r).rung)
      ∧ (∀ r, r / 4 ≠ pos → getRegion t r = getRegion s r) ∧ t = { s with regions := t.regions })) ∧
    (s.thermal.stop = 0 → s.thermal.clockOrdered = false →
      (40 ≤ (tget s.dies pos).misses → Completes (.telemLost pos) s (fun t =>
        t.thermal = { s.thermal with stop := 1, cause := 7 })) ∧
      (40 ≤ s.power.inletHot → Completes .inletHot s (fun t =>
        t.thermal = { s.thermal with stop := 1, cause := 6 }))) ∧
    (∀ x, x = getSensor s n → x.faulty = false →
      ((512 ≤ n ∧ n < 530 ∧ 4 ≤ x.missing) ∨
        (s.thermal.hold = true ∧ n < 512 ∧ 40 ≤ x.missing ∧ dieServes s (n % 256 / 64) = true) →
        Completes (.sensorNoReading n) s (fun t => (getSensor t n).faulty = true ∧ (getSensor t n).suspect = false
          ∧ (∀ m, m ≠ n → getSensor t m = getSensor s m))) ∧
      (x.suspect = true → 40 ≤ x.clearFor → Completes (.sensorSuspectClear n) s (fun t =>
        getSensor t n = { x with suspect := false, suspectFor := 0, clearFor := 0 }
        ∧ (∀ m, m ≠ n → getSensor t m = getSensor s m) ∧ t = { s with sensors := t.sensors })) ∧
      (x.suspect = true → 4000 ≤ x.suspectFor → Completes (.sensorSuspectFaulty n) s (fun t =>
        (getSensor t n).faulty = true ∧ (getSensor t n).suspect = false
        ∧ (∀ m, m ≠ n → getSensor t m = getSensor s m)))) ∧
    (a < b → nodePairs.contains (a, b) = true → 8 ≤ tget s.power.disagree (a * 1024 + b) → standsAlone s a b = true →
      standsAlone s b a = false → Completes (.sensorFaultDecision a b) s (fun t =>
        (getSensor t a).faulty = true ∧ (∀ m, m ≠ a → getSensor t m = getSensor s m))) ∧
    (regionOn s g = true → s.thermal.stop = 0 → 4 ≤ (getRegion s g).belowCount →
      ¬ (4 ≤ (tget s.dies (g / 4)).misses ∧ 2 ≤ (getRegion s g).rung) → Completes (.rungRise g) s (fun t =>
        (getRegion t g).rung = Nat.min 11 ((getRegion s g).rung + 1) ∧ (getRegion t g).belowCount = 0
        ∧ (getRegion t g).admitLevel = BitVec.ofNat 3 (rungAdmit (getRegion t g).rung)
        ∧ (∀ r, r ≠ g → getRegion t r = getRegion s r) ∧ t = { s with regions := t.regions })) ∧
    (s.thermal.stop = 0 → s.power.stepWait = 0 →
      (4 ≤ s.power.overCount → halfLow s = true → s.power.step < 3 → Completes .clockStepDown s (fun t =>
        t.power.step = s.power.step + 1 ∧ t.power.overCount = 0 ∧ t.power.stepTarget = none
        ∧ (∀ d, d < 4 → ((tget t.dies d).clockStep =
              if (getPort s d).quiesced = true then (tget s.dies d).clockStep else s.power.step + 1)
            ∧ (tget t.dies d).setpoint = setpointOf d (s.power.step + 1)
            ∧ getPort t d = getPort (sendControl s d (.clockStep (s.power.step + 1))) d)
        ∧ t = { s with power := t.power, dies := t.dies, ports := t.ports })) ∧
      (40 ≤ s.power.underCount → 0 < s.power.step → s.power.stepTarget = none →
        (∀ r ∈ regionsOn s, 6 ≤ (getRegion s r).rung) → (∀ d, d < 4 → (tget s.dies d).misses < 4) →
        Completes .clockStepUp s (fun t =>
          t.power.step = s.power.step ∧ t.power.stepTarget = some (s.power.step - 1)
          ∧ (∀ d, d < 4 → (tget t.dies d).setpoint = setpointOf d (s.power.step - 1)
              ∧ (tget t.dies d).clockStep = (tget s.dies d).clockStep)
          ∧ t = { s with power := t.power, dies := t.dies }))) ∧
    (∀ k, s.power.stepTarget = some k →
      (s.thermal.stop = 0 → (∀ d, d < 4 → dieServes s d = true → voltageShown s d = true) →
        Completes .stepUpVoltageConfirmed s (fun t => t.power.step = k ∧ t.power.stepTarget = none
          ∧ (∀ d, d < 4 → ((tget t.dies d).clockStep = if (getPort s d).quiesced = true then (tget s.dies d).clockStep else k)
            ∧ (tget t.dies d).setpoint = (tget s.dies d).setpoint ∧ getPort t d = getPort (sendControl s d (.clockStep k)) d)
          ∧ t = { s with power := t.power, dies := t.dies, ports := t.ports })) ∧
      (4 ≤ s.power.upSamples → s.power.oldSetpoints.length = 4 → Completes .stepUpAbandon s (fun t =>
        t.power.stepTarget = none ∧ t.power.step = s.power.step
        ∧ ∀ d, d < 4 → (tget t.dies d).setpoint = s.power.oldSetpoints.getD d 0)))

/-- The phases of bring-up up to the dies' agreement (R459, R462, R463, R467, R468, R475; Table 14-6; R403, R405,
R409, R457): phase 1 boots the active slot's image when it verifies, else the other's with FALLBACK, else serves
rescue only; a host image boots when it verifies, else its REASON is shown; phase 2 agrees each C-die that answers as
it must, holds one out that is wrong or silent, and goes on unless a temperature hold or no C-die remains. Completion:
BOOT_HOST_GO, BRING_UP_PHASE_1, BRING_UP_PHASE_2 and BRINGUP_HOLD_END answer a next state with their effects, from
every state and operands that meet the conditions named. Where it rests on the model's choices: log 19, 80, 83. -/
def Obligations.BringUpImageAndDies : Prop :=
  ∀ (s : State), powered s = true → hubRuns s = true →
    (s.pcie.phase = 0 → s.pcie.rescueOnly = false → s.flash.darnValid = true → s.pcie.doeHeld = none → (∀ o ∈ s.boot.order, o.cause ≠ .watchdog) →
      (s.pins.straps.bootSrc = 1 → Completes .bringUpPhase1 s (fun t => t.pcie.phase = 1
        ∧ t.boot.licenceRead = readLicence s ∧ t.weft.table = s.flash.topology ∧ t.boot.image = s.boot.image)) ∧
      (s.pins.straps.bootSrc ≠ 1 → s.flash.pending = none → s.flash.try? = none → s.flash.fallback = false →
        (imgReason s (flashImage s s.flash.active) = 0 → Completes .bringUpPhase1 s (fun t =>
          t.pcie.phase = 2 ∧ t.boot.slot = s.flash.active ∧ t.boot.image = flashImage s s.flash.active
          ∧ t.pcie.warm = (s.boot.order.any (·.scope == .warm) && s.boot.memoryKept)
          ∧ t.boot.licenceRead = readLicence s ∧ t.weft.table = s.flash.topology ∧ t.flash = s.flash
          ∧ t = { s with pcie := t.pcie, boot := t.boot, weft := t.weft })) ∧
        (imgReason s (flashImage s s.flash.active) ≠ 0 → imgReason s (flashImage s (1 - s.flash.active)) = 0 →
          Completes .bringUpPhase1 s (fun t => t.pcie.phase = 2 ∧ t.boot.slot = 1 - s.flash.active
            ∧ t.boot.image = flashImage s (1 - s.flash.active) ∧ t.flash = { s.flash with fallback := true })) ∧
        (imgReason s (flashImage s s.flash.active) ≠ 0 → imgReason s (flashImage s (1 - s.flash.active)) ≠ 0 →
          Completes .bringUpPhase1 s (fun t => t.pcie.phase = 1 ∧ t.pcie.rescueOnly = true ∧ t.flash = s.flash)))) ∧
    (∀ b : Bytes, s.pcie.phase = 1 → (s.pcie.rescueOnly = true ∨ s.pins.straps.bootSrc = 1) → s.pcie.doeHeld = none →
      (hostOpen s = true → imgReason s b = 0 → Completes (.bootHostGo (.bytes b)) s (fun t =>
        t.pcie.phase = 2 ∧ t.pcie.bootHostDone = true ∧ t.pcie.bootHostFail = false ∧ t.pcie.rescueOnly = false
        ∧ t.boot.hostBoot = true ∧ t.boot.image = b.take (fieldAt b 0x14 4) ∧ t.flash = s.flash
        ∧ t = { s with pcie := t.pcie, boot := t.boot })) ∧
      (hostOpen s = true → imgReason s b ≠ 0 → Completes (.bootHostGo (.bytes b)) s (fun t =>
        t.pcie.bootHostFail = true ∧ t.pcie.bootHostDone = false ∧ t.pcie.bootHostReason.toNat = imgReason s b
        ∧ t.pcie.phase = 1 ∧ t = { s with pcie := t.pcie })) ∧
      (hostOpen s = false → Completes (.bootHostGo (.bytes b)) s (fun t =>
        t.pcie.bootHostFail = true ∧ t.pcie.bootHostReason = 1 ∧ t.pcie.phase = 1 ∧ t = { s with pcie := t.pcie }))) ∧
    (∀ (dies : List DieAnswer) (sides : List (BitVec 4)) (r : HubReadings) (good : Nat → Prop),
      s.pcie.phase = 2 → s.errors.ringUp = false → darnOf s 9 = [] → (∀ d, d < 4 → (tget s.dies d).heldOut = false) →
      (∀ d, good d ↔ d < 4 ∧ ∃ a, dies[d]? = some a ∧ a.responds = true ∧ a.dieType = 0 ∧ a.pos.toNat = d ∧ a.capSent = true
        ∧ commonTable a ≠ 0 ∧ (∀ b, b < 10 → bitOf a.caps.toNat b = true) ∧ a.modulesTrained = 0xFFFF) →
      Completes (.bringUpPhase2 dies sides r) s (fun t => t.errors.ringUp = true
        ∧ (∀ d, good d → (tget t.dies d).heldOut = false ∧ (tget t.dies d).posMatch = true ∧ (getPort t d).state = 2
            ∧ (getPort t d).modules = 16 ∧ tget t.wbWeights d = 16
            ∧ (∀ a, dies[d]? = some a → (tget t.dies d).tableVersion.toNat = commonTable a ∧ (tget t.dies d).revision = a.revision))
        ∧ (∀ d a, d < 4 → dies[d]? = some a → a.responds = true → a.modulesTrained = 0xFFFF → (a.dieType ≠ 0 ∨ a.pos.toNat ≠ d) →
            (tget t.dies d).heldOut = true ∧ (tget t.dies d).holdCause = 1 ∧ (getPort t d).state = 3)
        ∧ (∀ d a, d < 4 → dies[d]? = some a → a.responds = false → (tget t.dies d).heldOut = true ∧ (getPort t d).state = 3
            ∧ ((tget t.dies d).holdCause = 4 ∨ (tget t.dies d).holdCause = 7))
        ∧ ((∃ d, good d) → t.pcie.phase = if t.thermal.hold then 2 else 3)
        ∧ ((∀ d a, d < 4 → dies[d]? = some a → a.responds = false) → t.pcie.phase = 2 ∧ t.pcie.ready = s.pcie.ready))) ∧
    (s.pcie.phase = 2 → s.errors.ringUp = true → s.thermal.hold = true → holdOver s = true →
      (∃ d, d < 4 ∧ (tget s.dies d).tableVersion ≠ 0 ∧ (tget s.dies d).heldOut = false) →
      Completes .bringupHoldEnd s (fun t => t.pcie.phase = 3 ∧ t.thermal = { s.thermal with hold := false }
        ∧ t = { s with pcie := t.pcie, thermal := t.thermal }))

/-- The phases of bring-up from the memories to the licence, and re-weave's items (R23, R208, R248, R249, R378, R461
to R463, R475 to R477, R483, R490 to R493): a cold bring-up loses slots and sequences, each home's n is fixed,
unlicensed links stay disabled, memories that trained leave self-refresh, failed cores are fenced and the licensed
regions enabled, and the licence that verifies disables what it does not grant; a re-weave counts its items, marks
them, loses a slot that fits nowhere and ends with its layer out. Completion: BRING_UP_PHASE_3, BRING_UP_PHASE_4,
BRING_UP_PHASE_5, LICENCE_VERIFICATION and REWEAVE_ITEM answer a next state with their effects, from every state and
operands that meet the conditions named. Where it rests on the model's choices: log 19, 82, 83, 84, 85. -/
def Obligations.BringUpMemoriesAndLicence : Prop :=
  ∀ (s : State),
    (powered s = true → hubRuns s = true →
      (∀ ladders hbm banks pcs tsv clean, s.pcie.phase = 3 →
        Completes (.bringUpPhase3 ladders hbm banks pcs tsv clean) s (fun t => t.pcie.phase = 4 ∧ t.boot.memoryKept = true
          ∧ (s.pcie.warm = false → t.slots = [] ∧ t.seqs = [] ∧ t.ptes = [])
          ∧ (∀ p l, p < 4 → l < 8 → (tget s.dies p).heldOut = false → (tget t.layers (8 * p + l)).selfRefresh = false
              ∧ (tget t.layers (8 * p + l)).inReset = false)
          ∧ (∀ p, p < 4 → (tget s.dies p).heldOut = false → (tget t.dies p).ladderOk = ladders.getD p 0)
          ∧ (∀ p, p < 4 → (tget s.dies p).heldOut = false → hbm.getD (2 * p) .out = .out →
              (tget t.hbmStacks (2 * p)).out = true)
          ∧ (∀ g, g < 16 → (getRegion t g).windowOut = decide ((getRegion t g).homeN < 16)
              ∧ ((tget s.dies (g / 4)).heldOut = true → (getRegion t g).homeN = 0)))) ∧
      (∀ links, s.pcie.phase = 4 → Completes (.bringUpPhase4 links) s (fun t => t.pcie.phase = 5
        ∧ ∀ l, l < 16 → linkRead s l = false → (getLink t l).disabled = true)) ∧
      (∀ failed, s.pcie.phase = 5 → Completes (.bringUpPhase5 failed) s (fun t => t.pcie.phase = 6
        ∧ (∀ g, g < 16 → (getRegion t g).enabled = regionReady s g)
        ∧ (∀ c ∈ failed, c < 8192 → (getCore s c).absent = false → (getCore t c).fenced = true)
        ∧ (failed = [] → t = { s with regions := t.regions, pcie := t.pcie }))) ∧
      (∀ l, s.pcie.phase = 6 → s.pcie.warm = false → s.flash.licPending = none → s.flash.licActive ≠ [] →
        licStatus s s.flash.licActive = 0 → l = licOf s.flash.licActive → s.weft.discrepancies = [] → s.flash.pending = none →
        (∀ n, n < 16 → bitOf l.weftLinks.toNat n = true ∨ (getLink s n).disabled = true) → l.chiplet = true →
        (s.flash.manager = true → l.manager = true) → Completes .licenceVerification s (fun t =>
          t.pcie.phase = 7 ∧ t.pcie.ready = true ∧ t.boot.licence = some l
          ∧ ∀ g, g < 16 → (getRegion t g).enabled = ((getRegion s g).enabled && bitOf l.regions.toNat g))) ∧
      (s.pcie.phase = 6 → s.pcie.warm = false → s.flash.licPending = none → s.flash.licActive = [] →
        Completes .licenceVerification s (fun t => t.pcie.phase = 7 ∧ t.pcie.ready = true ∧ t.boot.licence = none
          ∧ (∀ g, g < 16 → (getRegion t g).enabled = false) ∧ ∀ l, l < 16 → (getLink t l).disabled = true))) ∧
    (reweaveOpen s = true →
      (∀ pos layer, pos < 4 → layer < 8 → s.boot.reweave = none → layerTroubled s pos layer = true →
        (getChan s (chanOf (2048 * pos) layer)).chOut = false → Completes (.reweaveItem (.start pos layer)) s (fun t =>
          t.boot = { s.boot with reweave := some (pos, layer, 0), appendQueue := s.boot.appendQueue
            ++ [darnEntry 0xB 4 (pos + layer * 4)] } ∧ t = { s with boot := t.boot, capacity := t.capacity })) ∧
      (∀ pos layer n, s.boot.reweave = some (pos, layer, n) → n < 16777216 →
        Completes (.reweaveItem (.mark n)) s (fun t =>
          t.boot = { s.boot with appendQueue := s.boot.appendQueue ++ [darnEntry 0xC 4 (pos + layer * 4 + n * 256)] }
          ∧ t = { s with boot := t.boot })) ∧
      (∀ pos layer n m, s.boot.reweave = some (pos, layer, n) → m < 1024 → (getSlot s m).phase = .placed →
        (∃ x ∈ (getSlot s m).tiles, x.kind ≠ 3 ∧ dieOfCore x.core = pos ∧ x.layer = layer) →
        (∀ b ∈ s.batches, b.slot ≠ m) → weaveInReset s (getSlot s m).weave = false →
        ((eligibleBlocks s (getSlot s m) 0).filter (fun b => b / 32 != pos)).length < (getSlot s m).weave.length →
        Completes (.reweaveItem (.slot m [] [])) s (fun t => (getSlot t m).phase = .reload
          ∧ t.boot.reweave = some (pos, layer, n + 1) ∧ (∀ j, j ≠ m → getSlot t j = getSlot s j))) ∧
      (∀ pos layer n fn new f, s.boot.reweave = some (pos, layer, n) → frameOf s fn = f → f.allocated = true → f.kind ≠ 1 →
        f.gpins = 0 → fn < 33554432 → fn / 4096 / 2048 = pos → fn / 512 % 8 = layer →
        (getRegion s (regionOfCore (fn / 4096))).inReset = false → (freeNear s (fn / 4096)).head? = some new →
        accessWaits s (frameAddr fn) 16384 = false → accessWaits s (frameAddr new) 16384 = false →
        RangeVerifies s (frameAddr fn) 16384 →
        Completes (.reweaveItem (.frame (regionOfCore (fn / 4096)) (fn % 2097152) [])) s (fun t =>
          t.boot.reweave = some (pos, layer, n + 1) ∧ (∀ key ∈ refKeys s fn, (getPte t key).fn = new)
          ∧ frameOf t new = f ∧ Stores s t (frameAddr new) (readBytes s.mem (frameAddr fn) 16384))) ∧
      (∀ pos layer n, s.boot.reweave = some (pos, layer, n) → pos < 4 → layer < 8 → layerEmptied s pos layer = true →
        Completes (.reweaveItem .finish) s (fun t => t.boot.reweave = none
          ∧ t.boot.appendQueue = s.boot.appendQueue ++ [darnEntry 6 4 (pos + layer * 4), darnEntry 0xD 4 (pos + layer * 4)]
          ∧ ∀ c, 2048 * pos ≤ c → c < 2048 * (pos + 1) → (getChan t (chanOf c layer)).chOut = true)))

/-- The traffic generators and the management core's log (R208, R261, R365, R366): a run starts unless it lasts or, in
write mode, is of a reserved mode or not allowed, which sets REFUSED, and keeps the fields that its START found; its
end counts its errors, zeroes a write-mode range and maps out each bank, or the pseudo-channel, that failed; a
READ_ONLY run reads every block of its range, ends without an error where all verify, and counts and poisons a block
that does not; TRAFFIC_GEN starts one or is refused; ERRLOG_READ writes the records it names. Completion: ERRLOG_READ,
TRAFFIC_GEN, TG_START, TG_STOP, TG_RUN_END, FAR_TG_START, FAR_TG_STOP and FAR_TG_RUN_END answer a next state with
their effects, from every state and operands that meet the conditions named. Where it rests on the model's choices:
log 59, 86, 92, 104. -/
def Obligations.TrafficGenerators : Prop :=
  ∀ (s : State) (ch pc p : Nat) (k : Packet) (v : Word) (r : TgResult),
    (∀ g, g = (getChan s ch).tg →
      (g.running = true → Completes (.tgStart ch v) s (fun t => t = s)) ∧
      (g.running = false → bitOf v.toNat 5 = true ∨ (bitsOf v.toNat 4 2 < 6 ∧ tgAllowed s ch (tgFields g v.toNat) = true) →
        Completes (.tgStart ch v) s (fun t => (getChan t ch).tg = { g with
            running := true, stopping := false, mode := BitVec.ofNat 3 (bitsOf v.toNat 4 2), readOnly := bitOf v.toNat 5
            bankMask := BitVec.ofNat 16 (bitsOf v.toNat 23 8)
            cur := { mode := bitsOf v.toNat 4 2, readOnly := bitOf v.toNat 5, bankMask := bitsOf v.toNat 23 8, first := g.first
                     last := g.last, param := g.param } }
          ∧ (∀ c, c ≠ ch → getChan t c = getChan s c) ∧ t = { s with chans := t.chans })) ∧
      (g.running = false → bitOf v.toNat 5 = false → 6 ≤ bitsOf v.toNat 4 2 ∨ tgAllowed s ch (tgFields g v.toNat) = false →
        Completes (.tgStart ch v) s (fun t => (getChan t ch).tg.refused = true ∧ (getChan t ch).tg.running = false
          ∧ (∀ c, c ≠ ch → getChan t c = getChan s c) ∧ t = { s with chans := t.chans })) ∧
      Completes (.tgStop ch) s (fun t => (getChan t ch).tg = { g with stopping := g.running }
        ∧ (∀ c, c ≠ ch → getChan t c = getChan s c) ∧ t = { s with chans := t.chans }) ∧
      (g.running = true → g.packet = none → g.cur.readOnly = false → (getChan s ch).queue = [] →
        (∀ b ∈ r.banks, bitOf g.cur.bankMask b = false) →
        Completes (.tgRunEnd ch r []) s (fun t =>
          (getChan t ch).tg.running = false ∧ (getChan t ch).tg.done = true ∧ (getChan t ch).tg.fail = (g.fail || decide (0 < r.errors))
          ∧ (getChan t ch).tg.errors.toNat = Nat.min (g.errors.toNat + r.errors) 65535
          ∧ (∀ j, readByte t.mem j = if nearRange ch g.cur.bankMask g.cur.first g.cur.last (j / 256) then 0 else readByte s.mem j)
          ∧ (∀ c, c ≠ ch → getChan t c = getChan s c) ∧ t = { s with chans := t.chans, mem := t.mem })) ∧
      (∀ b, g.running = true → g.cur.readOnly = false → (getChan s ch).queue = [] → r.banks = [b] →
        bitOf g.cur.bankMask b = true → Completes (.tgRunEnd ch r []) s (fun t => bankMappedOut t (ch * 16 + b) = true ∧ (getChan t ch).tg.running = false)) ∧
      (g.running = true → g.cur.readOnly = false → g.packet = some p → getPacket s p = some k → k.answer = none →
        (getChan s ch).queue = [] → r.banks = [] → 0 < r.errors → Completes (.tgRunEnd ch r []) s (fun t => Answers t p 0
            (toBytes 4 (1 + Nat.min r.errors 65535 * 65536) ++ toBytes 4 r.firstAddr ++ toBytes 4 r.firstInfo)
          ∧ (getChan t ch).tg.failAddr = BitVec.ofNat 32 r.firstAddr ∧ (getChan t ch).tg.failInfo = BitVec.ofNat 32 r.firstInfo
          ∧ t = { s with chans := t.chans, packets := t.packets, mem := t.mem })) ∧
      (∀ l, g.running = true → g.cur.readOnly = true → nearHeld s ch = false → (layerOf s ch).inReset = false → ch < 65536 →
        g.cur.last < 512 → l = (nearBlocks ch g.cur.bankMask g.cur.first g.cur.last).filter (fun b => !bankMappedOut s (b / 2048)) →
        ((∀ b ∈ l, Verifies s b) → g.packet = some p → getPacket s p = some k → k.answer = none →
          Completes (.tgRunEnd ch r []) s (fun t => Answers t p 0 [] ∧ (getChan t ch).tg.done = true
            ∧ (getChan t ch).tg.errors.toNat = g.errors.toNat ∧ t = { s with chans := t.chans, packets := t.packets })) ∧
        (∀ b, b ∈ l → checkTag b (blockBytes s b) (tagOf s.mem b) = none → (∀ x ∈ l, x ≠ b → Verifies s x) →
          Completes (.tgRunEnd ch r []) s (fun t => (getChan t ch).tg.fail = true
            ∧ (getChan t ch).tg.errors.toNat = Nat.min (g.errors.toNat + 1) 65535
            ∧ (getChan t ch).tg.failAddr = BitVec.ofNat 32 (b * 256 % 2 ^ 23) ∧ (tagOf t.mem b).poison = true)))) ∧
    (∀ g, g = (getPc s pc).tg →
      (g.running = false → bitOf v.toNat 5 = true ∨ (bitsOf v.toNat 4 2 < 6 ∧ farTgAllowed s pc = true) →
        Completes (.farTgStart pc v) s (fun t => (getPc t pc).tg = { g with
            running := true, stopping := false, mode := BitVec.ofNat 3 (bitsOf v.toNat 4 2), readOnly := bitOf v.toNat 5
            bankMask := 0
            cur := { mode := bitsOf v.toNat 4 2, readOnly := bitOf v.toNat 5, bankMask := 0, first := g.first
                     last := g.last, param := g.param } }
          ∧ (∀ c, c ≠ pc → getPc t c = getPc s c) ∧ t = { s with pcs := t.pcs })) ∧
      (g.running = false → bitOf v.toNat 5 = false → 6 ≤ bitsOf v.toNat 4 2 ∨ farTgAllowed s pc = false →
        Completes (.farTgStart pc v) s (fun t => (getPc t pc).tg.refused = true ∧ (getPc t pc).tg.running = false
          ∧ t = { s with pcs := t.pcs })) ∧
      Completes (.farTgStop pc) s (fun t => (getPc t pc).tg = { g with stopping := g.running }
        ∧ (∀ c, c ≠ pc → getPc t c = getPc s c) ∧ t = { s with pcs := t.pcs }) ∧
      (g.running = true → g.packet = none → g.cur.readOnly = false → (getPc s pc).queue = [] → r.errors = 0 →
        Completes (.farTgRunEnd pc r []) s (fun t =>
        (getPc t pc).tg.running = false ∧ (getPc t pc).tg.done = true ∧ (getPc t pc).tg.fail = g.fail
        ∧ (∀ j, readByte t.mem j = if farRange s pc g.cur.first g.cur.last (j / 256) then 0 else readByte s.mem j)
        ∧ t = { s with pcs := t.pcs, mem := t.mem })) ∧
      (g.running = true → g.cur.readOnly = false → (getPc s pc).queue = [] → 0 < r.errors → (getPc s pc).out = false →
        Completes (.farTgRunEnd pc r []) s (fun t => (getPc t pc).hole = true ∧ (getPc t pc).tg.fail = true)) ∧
      (g.running = true → g.packet = none → g.cur.readOnly = true → pcHeld s pc = false →
        (∀ b ∈ farBlocks s pc g.cur.first g.cur.last, Verifies s b) → Completes (.farTgRunEnd pc r []) s (fun t =>
          (getPc t pc).tg.done = true ∧ (getPc t pc).tg.running = false ∧ (getPc t pc).tg.fail = g.fail
          ∧ t = { s with pcs := t.pcs }))) ∧
    (∀ u, u = argAt k 0x14 4 → MayBegin s p 0x0B01 k →
      (tgRefusal s k ≠ 0 → Completes (.trafficGen p) s (fun t =>
        Answers t p (tgRefusal s k) [] ∧ t = { s with packets := t.packets })) ∧
      (tgRefusal s k = 0 → bitOf (argAt k 0x10 1) 0 = false →
        (bitOf (argAt k 0x18 1) 3 = true ∨ (argAt k 0x18 1 % 8 < 6 ∧ tgAllowed s u (tgOf (getChan s u).tg k true) = true) →
          Completes (.trafficGen p) s (fun t => (getChan t u).tg.running = true ∧ (getChan t u).tg.packet = some k.id
            ∧ (getChan t u).tg.first = argAt k 0x20 2 ∧ (getChan t u).tg.last = argAt k 0x22 2
            ∧ answerOf t p = none ∧ t = { s with chans := t.chans, packets := t.packets })) ∧
        (bitOf (argAt k 0x18 1) 3 = false → 6 ≤ argAt k 0x18 1 % 8 ∨ tgAllowed s u (tgOf (getChan s u).tg k true) = false →
          Completes (.trafficGen p) s (fun t => Answers t p 0x0011 [] ∧ (getChan t u).tg.refused = true
            ∧ t = { s with chans := t.chans, packets := t.packets }))) ∧
      (tgRefusal s k = 0 → bitOf (argAt k 0x10 1) 0 = true → bitOf (argAt k 0x18 1) 3 = true →
        Completes (.trafficGen p) s (fun t => (getPc t u).tg.running = true ∧ (getPc t u).tg.first = argAt k 0x20 2
          ∧ answerOf t p = none ∧ t = { s with pcs := t.pcs, packets := t.packets }))) ∧
    (∀ l, l = logRange s (argAt k 0x10 4) (argAt k 0x14 4) → MayBegin s p 0x0A03 k → (bufB k).host = true →
      s.pcie.d3hot = false → s.pcie.busMaster = true →
      ((bufB k).len < 32 * argAt k 0x14 4 → Completes (.errlogRead p) s (fun t =>
        Answers t p 0x0020 [] ∧ t = { s with packets := t.packets })) ∧
      (32 * argAt k 0x14 4 ≤ (bufB k).len → Completes (.errlogRead p) s (fun t =>
        t.pcie = { s.pcie with tx := s.pcie.tx ++ (if l.flatten = [] then [] else [.memWrite (bufB k).addr l.flatten false true]) }
        ∧ Answers t p 0 (toBytes 4 l.length ++ toBytes 4 (oldestIndex s))
        ∧ t = { s with pcie := t.pcie, packets := t.packets })))

/-- The rescue mailboxes (R301, R321, R368, R371): GO on a mailbox that is not busy queues its request, or answers it
with its refusal; a request in front runs its operation and is answered with BUSY 0 and DONE 1, a region reset when it
completes; 20 ms without an answer give ST_BUSY. Completion: RSC_SNAPSHOT, RSC_ERRLOG_READ, RSC_TELEM_READ,
RSC_REGION_RESET, RSC_WARM_RESET, RSC_LINK_DISABLE, RSC_THERMAL_STOP, RESCUE_GO and RESCUE_REPLY_BUSY answer a next
state with their effects, from every state and operands that meet the conditions named. Where it rests on the model's
choices: log 86. -/
def Obligations.RescueMailboxes : Prop :=
  ∀ (s : State) (m : Nat), m < 2 → rescueServed s = true →
    ((getMailbox s m).busy = true → Completes (.rescueGo m) s (fun t =>
      getMailbox t m = { getMailbox s m with refused := true } ∧ t = { s with mailboxes := t.mailboxes })) ∧
    ((getMailbox s m).busy = false → s.rescueOrder = [] →
      (rescueRefusal s m = 0 → Completes (.rescueGo m) s (fun t => getMailbox t m = { getMailbox s m with busy := true }
        ∧ (∀ n, n ≠ m → getMailbox t n = getMailbox s n) ∧ t.rescueOrder = [m]
        ∧ t = { s with mailboxes := t.mailboxes, rescueOrder := t.rescueOrder })) ∧
      (rescueRefusal s m ≠ 0 → Completes (.rescueGo m) s (fun t =>
        RescueReplies s t m (rescueRefusal s m) [] ∧ t.rescueOrder = []))) ∧
    (RescueServes s m 0xF001 → Completes (.rscSnapshot m) s (fun t =>
      RescueReplies s t m 0 (toBytes 4 256) ∧ (getMailbox t m).data = padTo 3840 (snapshotBytes s)
      ∧ (getMailbox t m).data.take 4 = toBytes 4 (pciReady s)
      ∧ fieldAt (getMailbox t m).data 0x38 4 = s.errors.logNext.toNat)) ∧
    (∀ k, k = rescuePacket s m →
      (RescueServes s m 0xF002 →
        (0 < argAt k 0x14 4 → argAt k 0x14 4 ≤ 120 → Completes (.rscErrlogRead m) s (fun t =>
          ∀ l, l = logRange s (argAt k 0x10 4) (argAt k 0x14 4) →
            RescueReplies s t m 0 (toBytes 4 l.length ++ toBytes 4 (oldestIndex s))
            ∧ (l.flatten ≠ [] → (getMailbox t m).data = padTo 3840 l.flatten))) ∧
        (argAt k 0x14 4 = 0 ∨ 120 < argAt k 0x14 4 → Completes (.rscErrlogRead m) s (fun t => RescueReplies s t m 0x0020 []))) ∧
      (RescueServes s m 0xF003 → argAt k 0x10 4 < 256 → (telemRecord s (argAt k 0x10 4)).length ≤ 3840 →
        Completes (.rscTelemRead m) s (fun t =>
          RescueReplies s t m 0 (toBytes 4 (telemRecord s (argAt k 0x10 4)).length)
          ∧ t.power = { s.power with telemSeq := (s.power.telemSeq + 1) % 2 ^ 32 }
          ∧ (telemRecord s (argAt k 0x10 4) ≠ [] → (getMailbox t m).data = padTo 3840 (telemRecord s (argAt k 0x10 4))))) ∧
      (RescueServes s m 0xF004 → (∀ o ∈ s.resets, o.mailbox ≠ some m) →
        (16 ≤ argAt k 0x10 4 → Completes (.rscRegionReset m) s (fun t => RescueReplies s t m 0x0020 [])) ∧
        (argAt k 0x10 4 < 16 → regionRefusal s (argAt k 0x10 4) = 0 → Completes (.rscRegionReset m) s (fun t =>
          (getMailbox t m).busy = true ∧ (getRegion t (argAt k 0x10 4)).inReset = true
          ∧ ∃ o ∈ t.resets, o.scope = .region ∧ o.unit = argAt k 0x10 4 ∧ o.cause = .rescue ∧ o.mailbox = some m))) ∧
      (RescueServes s m 0xF005 → Completes (.rscWarmReset m) s (fun t => RescueReplies s t m 0 []
        ∧ ∃ o ∈ t.resets, o.scope = .warm ∧ o.cause = .rescue)) ∧
      (RescueServes s m 0xF006 →
        (16 ≤ argAt k 0x10 4 → Completes (.rscLinkDisable m) s (fun t => RescueReplies s t m 0x0020 [])) ∧
        (argAt k 0x10 4 < 16 → Completes (.rscLinkDisable m) s (fun t => RescueReplies s t m 0 []
          ∧ (getLink t (argAt k 0x10 4)).disabled = true ∧ (getLink t (argAt k 0x10 4)).state = 3))) ∧
      (RescueServes s m 0xF007 → s.thermal.stop = 0 → s.thermal.clockOrdered = false →
        (bitOf (argAt k 0x10 1) 0 = false → Completes (.rscThermalStop m) s (fun t => RescueReplies s t m 0 []
          ∧ t.thermal = { s.thermal with stop := 1, cause := 9 })) ∧
        (bitOf (argAt k 0x10 1) 0 = true → Completes (.rscThermalStop m) s (fun t =>
          t.thermal = { s.thermal with clockOrdered := true, cause := 10 } ∧ t = { s with thermal := t.thermal })))) ∧
    (∀ op step, RescueServes s m op → Completes (.rescueReplyBusy m step) s (fun t => RescueReplies s t m 0x0011 (toBytes 4 step)))

/-- The I3C target (R369, R370, R526): a private write sets the offset and writes mailbox 1's request area while it is
not busy; a private read sends bytes from the offset on and advances it; ENTDAA and SETDASA give a target without a
dynamic address one; RSTDAA, ENEC and DISEC change what they name; the directed reads send the target's
characteristics. Completion: I3C_PRIVATE_WRITE, I3C_PRIVATE_READ, ENTDAA, SETDASA, RSTDAA, ENEC, DISEC, GETPID,
GETBCR, GETDCR and GETSTATUS answer a next state with their effects, from every state and operands that meet the
conditions named. Where it rests on the model's choices: log 87. -/
def Obligations.I3cTarget : Prop :=
  ∀ (s : State), s.pins.pwrok = true → s.pins.refclkLost = false →
    (∀ (b : Bytes) (n : Nat), s.i3c.dynamic ≠ none → rescueServed s = true →
      (2 < b.length → 0x40 ≤ fieldAt b 0 2 → fieldAt b 0 2 + (b.length - 2) ≤ 0x80 → (getMailbox s 1).busy = false →
        Completes (.i3cPrivateWrite b) s (fun t => t.i3c = { s.i3c with offset := fieldAt b 0 2 }
          ∧ (∀ i, i < 64 → (getMailbox t 1).request.getD i 0 =
              if fieldAt b 0 2 - 0x40 ≤ i ∧ i < fieldAt b 0 2 - 0x40 + (b.length - 2) then b.getD (2 + (i - (fieldAt b 0 2 - 0x40))) 0
              else (getMailbox s 1).request.getD i 0)
          ∧ getMailbox t 0 = getMailbox s 0 ∧ t = { s with i3c := t.i3c, mailboxes := t.mailboxes })) ∧
      (b.length = 2 → Completes (.i3cPrivateWrite b) s (fun t => t = { s with i3c := { s.i3c with offset := fieldAt b 0 2 } })) ∧
      (s.i3c.offset + n ≤ 0x1000 → Completes (.i3cPrivateRead n) s (fun t => t = { s with i3c := { s.i3c with
        out := s.i3c.out ++ [mailboxBytes s 1 s.i3c.offset n], offset := s.i3c.offset + n } }))) ∧
    (s.i3c.dynamic = none →
      (∀ a, Completes (.entdaa a) s (fun t => t = { s with i3c := { s.i3c with
        dynamic := some a, out := s.i3c.out ++ [toBytes 6 Config.i3cPid.toNat ++ [Config.i3cBcr, Config.i3cDcr]] } })) ∧
      (∀ st a : BitVec 7, st.toNat = 0x2C + s.pins.straps.i3cAddr.toNat → Completes (.setdasa st a) s (fun t =>
        t = { s with i3c := { s.i3c with dynamic := some a } })) ∧
      (∀ st a : BitVec 7, st.toNat ≠ 0x2C + s.pins.straps.i3cAddr.toNat → Completes (.setdasa st a) s (fun t => t = s))) ∧
    Completes .rstdaa s (fun t => t = { s with i3c := { s.i3c with dynamic := none } }) ∧
    (∀ e, Completes (.enec e) s (fun t => t = { s with i3c := { s.i3c with events := s.i3c.events ||| e } })) ∧
    (∀ e, Completes (.disec e) s (fun t => t = { s with i3c := { s.i3c with events := s.i3c.events &&& ~~~ e } })) ∧
    (s.i3c.dynamic ≠ none →
      Completes .getpid s (fun t => t = { s with i3c := { s.i3c with out := s.i3c.out ++ [toBytes 6 Config.i3cPid.toNat] } }) ∧
      Completes .getbcr s (fun t => t = { s with i3c := { s.i3c with out := s.i3c.out ++ [[Config.i3cBcr]] } }) ∧
      Completes .getdcr s (fun t => t = { s with i3c := { s.i3c with out := s.i3c.out ++ [[Config.i3cDcr]] } }) ∧
      Completes .getstatus s (fun t => t = { s with i3c := { s.i3c with
        out := s.i3c.out ++ [toBytes 2 Config.i3cStatus.toNat] } }))

/-- The link layer of the weft links (R372 to R377, R391): frames are decoded and counted, a good DATA flit in order
is accepted and one that is bad or out of order is refused with one NAK, ACKs free the replay buffer and NULL flits
return credits; the timers send an ACK, resend every unacknowledged flit, and mark a stalled channel. Completion:
WEFT_FRAME, WEFT_DATA_FLIT, WEFT_ACK_TIMER, WEFT_RESEND_TIMEOUT and VC_STALL_TIMEOUT answer a next state with their
effects, from every state and operands that meet the conditions named. Where it rests on the model's choices: log 62,
63. -/
def Obligations.WeftLinkLayer : Prop :=
  ∀ (s : State) (l : Nat) (k : WeftLink), k = getLink s l →
    (∀ (b : Bytes) (h vc : Nat), h = fieldAt b 0 6 → vc = bitsOf h 5 4 →
      (GoodFlit s l 1 b → bitsOf h 17 6 = k.expected → Completes (.weftDataFlit l b) s (fun t =>
        (getLink t l).expected = (k.expected + 1) % 4096 ∧ (getLink t l).got = true ∧ (getLink t l).nakSent = false
        ∧ (getLink t l).crcFail = k.crcFail
        ∧ (∀ part, part = (if bitOf h 18 then [] else tget k.rxPart vc) ++ (b.drop 6).take 242 →
            (bitOf h 19 = true → (getLink t l).rxMsgs = k.rxMsgs ++ [msgOf vc part])
            ∧ (bitOf h 19 = false → (getLink t l).rxMsgs = k.rxMsgs ∧ tget (getLink t l).rxPart vc = part))
        ∧ LinkOnly s t l)) ∧
      (linkRuns s l = true → b.length = 256 →
        (crc32 (b.take 248) ≠ fieldAt b 248 4 ∨ (bitsOf h 3 0 = 1 ∧ bitsOf h 17 6 ≠ k.expected)) →
        Completes (.weftDataFlit l b) s (fun t =>
          (getLink t l).expected = k.expected ∧ (getLink t l).rxMsgs = k.rxMsgs ∧ (getLink t l).rxPart = k.rxPart
          ∧ (getLink t l).crcFail.toNat = Nat.min (k.crcFail.toNat + 1) 4294967295 ∧ (getLink t l).nakSent = true
          ∧ (k.nakSent = false → k.sent.length < (getLink t l).sent.length) ∧ LinkOnly s t l)) ∧
      (∀ cw pre f post, cw = b.drop 252 → GoodFlit s l 0 b → k.queued = [] → crc8 (cw.take 3) = fieldAt cw 3 1 →
        bitOf (leNat (cw.take 3)) 12 = true → bitOf (leNat (cw.take 3)) 13 = false →
        k.replay = pre ++ (bitsOf (leNat (cw.take 3)) 11 0, f) :: post → (∀ e ∈ pre, e.1 ≠ bitsOf (leNat (cw.take 3)) 11 0) →
        k.credits.length = 4 → Completes (.weftDataFlit l b) s (fun t =>
          (getLink t l).replay = post ∧ (getLink t l).expected = k.expected
          ∧ (∀ v, v < 4 → (getLink t l).credits.getD v 0
              = k.credits.getD v 0 + if v = bitsOf h 21 20 then bitsOf h 29 22 else 0) ∧ LinkOnly s t l))) ∧
    (∀ ws : List (List (BitVec 10)), linkRuns s l = true → ws.length = 4 → (∀ w ∈ ws, w.length = 272) →
      ((∃ w ∈ ws, rsDecode (w.map (·.toNat)) = none) → Completes (.weftFrame l ws) s (fun t =>
        (getLink t l).fecUncorr.toNat = Nat.min (k.fecUncorr.toNat + 1) 4294967295 ∧ (getLink t l).expected = k.expected
        ∧ (getLink t l).rxMsgs = k.rxMsgs ∧ (getLink t l).replay = k.replay ∧ LinkOnly s t l)) ∧
      (∀ ns : List Nat, (ws.map (fun w => (rsDecode (w.map (·.toNat))).map (·.2))) = ns.map some →
        Completes (.weftFrame l ws) s (fun t =>
          (getLink t l).fecCorr.toNat = Nat.min (k.fecCorr.toNat + ns.foldr (· + ·) 0) 4294967295
          ∧ (getLink t l).fecUncorr = k.fecUncorr ∧ LinkOnly s t l))) ∧
    (linkRuns s l = true →
      (k.got = true → Completes (.weftAckTimer l) s (fun t =>
        getLink t l = { k with sent := k.sent ++ [nullFlit k 0 0 false], sinceAck := 0 } ∧ LinkOnly s t l)) ∧
      (k.got = false → Completes (.weftAckTimer l) s (fun t => t = s)) ∧
      (k.replay = [] → Completes (.weftResendTimeout l) s (fun t => getLink t l = k ∧ LinkOnly s t l)) ∧
      (k.replay ≠ [] → Completes (.weftResendTimeout l) s (fun t =>
        (getLink t l).sent = k.sent ++ k.replay.map (fun e => e.2.take 252 ++ linkControl k false)
        ∧ (getLink t l).replays.toNat = Nat.min (k.replays.toNat + 1) 4294967295 ∧ (getLink t l).replay = k.replay
        ∧ (getLink t l).expected = k.expected ∧ LinkOnly s t l)) ∧
      (∀ vc, (∃ m ∈ k.rxMsgs, m.vc = vc) ∨ tget k.rxPart vc ≠ [] → Completes (.vcStallTimeout l vc) s (fun t =>
        (getLink t l).stall = true ∧ ∀ n, n ≠ l → getLink t n = getLink s n)) ∧
      (∀ vc, (∀ m ∈ k.rxMsgs, m.vc ≠ vc) → tget k.rxPart vc = [] → Completes (.vcStallTimeout l vc) s (fun t => t = s)))

/-- Training in service and identities (R378 to R381, R484; Table 13-5): retraining keeps the widest width that the
lanes give and the link may have, counts it, and takes the link out without one or at the third within a second; an
identity enters and is judged; a far end that trains brings the link up at the width of its lanes, or leaves it out.
Completion: LINK_RETRAIN, IDENTITY_FLIT and FAR_END_LINK_TRAINING answer a next state with their effects, from every
state and operands that meet the conditions named. Where it rests on the model's choices: log 65, 66. -/
def Obligations.WeftTraining : Prop :=
  ∀ (s : State) (l : Nat) (k : WeftLink), k = getLink s l →
    (linkRuns s l = true →
      (∀ lanes w m, narrowerWidth k.width lanes = some (w, m) → (k.retrainAt.filter (fun x =>
          decide (since (counterOf s (l / 4)) x < countsPerSecond))).length < 2 →
        Completes (.linkRetrain l lanes) s (fun t => (getLink t l).state = 2 ∧ (getLink t l).width = w ∧ (getLink t l).lanes = m
          ∧ w.toNat ≤ k.width.toNat ∧ (getLink t l).retrains.toNat = Nat.min (k.retrains.toNat + 1) 255
          ∧ (getLink t l).expected = k.expected ∧ (w = k.width → LinkOnly s t l))) ∧
      (k.width = 3 → k.retrainAt = [] → Completes (.linkRetrain l 0x0F) s (fun t =>
        (getLink t l).width = 2 ∧ (getLink t l).lanes = 0x0F ∧ (getLink t l).state = 2)) ∧
      (∀ lanes : BitVec 8, narrowerWidth k.width lanes = none ∨ 2 ≤ (k.retrainAt.filter (fun x =>
          decide (since (counterOf s (l / 4)) x < countsPerSecond))).length →
        Completes (.linkRetrain l lanes) s (fun t => (getLink t l).state = 3 ∧ (getLink t l).width = 0))) ∧
    (∀ i, linkRuns s l = true →
      Completes (.identityFlit l i) s (fun t => (getLink t l).remote = some i ∧ (s.weft.table = none → LinkOnly s t l)) ∧
      (∀ tb, s.weft.table = some tb → s.pcie.ready = true →
        (judge (modLink s l (fun x => { x with remote := some i })) tb l = 0 → Completes (.identityFlit l i) s (fun t =>
          getLink t l = { k with remote := some i } ∧ LinkOnly s t l)) ∧
        (judge (modLink s l (fun x => { x with remote := some i })) tb l ≠ 0 → Completes (.identityFlit l i) s (fun t =>
          (getLink t l).state = 3 ∧ t.pcie.ready = true)))) ∧
    (∀ tr, mayTrain s l = true → s.weft.table = none → k.state ≠ 2 →
      (∀ w m, widthFor tr.lanes = some (w, m) → Completes (.farEndLinkTraining l tr) s (fun t => (getLink t l).state = 2
        ∧ (getLink t l).width = w ∧ (getLink t l).lanes = m ∧ (getLink t l).remote = some tr.identity
        ∧ (getLink t l).expected = 0 ∧ (getLink t l).got = false)) ∧
      (widthFor tr.lanes = none → Completes (.farEndLinkTraining l tr) s (fun t =>
        (getLink t l).state = 3 ∧ (getLink t l).width = 0 ∧ (getLink t l).lanes = 0)))

/-- Messages at their destination (R382 to R390, R393 to R395, R398): a packet of the device's manager joins the
packets in flight, one without authority is answered ST_TOPOLOGY, an ordered one begins in turn or waits; a reply
completes its remote operation; a WRITE stores its blocks and is acknowledged; a WACK ends its WRITE; a READY or LIVE
notice makes its source a tracked worker; a REPLY_ACK releases replies; what is for another device goes on with one
more hop, over the side link or through H to the outgoing link's C-die (R19, R388), and waits while a port on that way
carries nothing. Completion: PACKET, REPLY, WRITE, WACK, NOTICE, REPLY_ACK and TRANSIT_FORWARD answer a next state
with their effects, from every state and operands that meet the conditions named. Where it rests on the model's
choices: log 30, 67, 68, 70, 71, 73. -/
def Obligations.WeftMessages : Prop :=
  ∀ (s u : State) (l : Nat) (m : Msg),
    (Arrives s l 1 m u → bitOf m.spec.toNat 17 = false → bitOf m.spec.toNat 48 = false → m.linkLocal = false →
      s.weft.ownManager = some m.src →
      (bitOf m.spec.toNat 16 = false → ∀ src, src = .manager m.src (bitsOf m.spec.toNat 15 0) false → packetStatus src m.body = 0 →
        deviceStatus s (fieldAt m.body 0 2) = 0 → (∀ k ∈ s.packets, k.id ≠ s.nextPacket) → Completes (.packet l) s (fun t =>
          t.packets = s.packets ++ [{ packetOf s.nextPacket src m.body 0 0 with lag := bitOf m.spec.toNat 49 }]
          ∧ t = { u with packets := t.packets, nextPacket := s.nextPacket + 1 })) ∧
      (bitOf m.spec.toNat 16 = true → ∀ ahead, ahead = (bitsOf m.spec.toNat 15 0 + 65536 - s.weft.expectNum) % 65536 →
        (ahead = 0 → s.weft.early = [] → Completes (.packet l) s (fun t => t.packets.length = s.packets.length + 1
          ∧ t.weft = { u.weft with expectNum := (s.weft.expectNum + 1) % 65536 } ∧ t.nextPacket = s.nextPacket + 1)) ∧
        (0 < ahead → ahead ≤ 255 → (∀ e ∈ s.weft.early, e.1 ≠ bitsOf m.spec.toNat 15 0) → Completes (.packet l) s (fun t =>
          t = { u with weft := { u.weft with early := s.weft.early ++ [(bitsOf m.spec.toNat 15 0, m)] } })) ∧
        (255 < ahead → Completes (.packet l) s (fun t => t = u)))) ∧
    (Arrives s l 1 m u → bitOf m.spec.toNat 17 = false → m.linkLocal = false → s.weft.ownManager ≠ some m.src →
      s.weft.table ≠ none → fieldAt m.body 0 2 / 256 ≠ 5 →
      packetStatus (.manager m.src (bitsOf m.spec.toNat 15 0) false) m.body ≠ 0x0030 → Completes (.packet l) s (fun t =>
        ∃ k, t.packets = s.packets ++ [k] ∧ k.id = s.nextPacket ∧ k.answer = some { status := 0x0041, result := padTo 16 [] }
          ∧ t = { u with packets := t.packets, nextPacket := s.nextPacket + 1 })) ∧
    (∀ o p k, Arrives s l 2 m u → bitOf m.spec.toNat 16 = false → bitOf m.spec.toNat 17 = false → s.weft.remoteOps = [o] →
      o.sent = true → o.num = bitsOf m.spec.toNat 15 0 → o.device = m.src → o.issuer = .command p → getPacket s p = some k →
      k.answer = none → Completes (.reply l) s (fun t =>
        Answers t p (fieldAt m.body 4 2) ((m.body.drop 0xC).take 16) ∧ t.weft = { u.weft with remoteOps := [] }
        ∧ t = { u with weft := t.weft, packets := t.packets })) ∧
    (∀ a n tok w x y, Arrives s l 3 m u → a = bitsOf m.spec.toNat 39 0 → n = bitsOf m.spec.toNat 43 40 + 1 →
      tok = bitsOf m.spec.toNat 79 64 →
      w = (fun st => { dest := m.src, src := (ownDevice s).getD 0, kind := 4, vc := 1
                       spec := BitVec.ofNat 128 (tok + st * 65536) : Msg }) →
      (a % 256 = 0 → n ≤ 15 → 256 * n ≤ m.body.length → 0xE008000000 ≤ a → a + 256 * n ≤ 0xE018000000 →
        routeOf u (w 0) = .link x y → Completes (.write l) s (fun t =>
          Stores s t a (m.body.take (256 * n))
          ∧ (∀ i, i < n → tagOf t.mem (a / 256 + i) = { stored := storedValue ((m.body.drop (256 * i)).take 256) false
                                                        restarted := false, poison := bitOf m.spec.toNat (44 + i) })
          ∧ t = { queueMsg u x y with mem := t.mem })) ∧
      (a % 256 ≠ 0 ∨ n = 16 ∨ m.body.length < 256 * n ∨ a < 0xE008000000 ∨ 0xE018000000 < a + 256 * n →
        routeOf u (w 0x0021) = .link x y → Completes (.write l) s (fun t => t = queueMsg u x y))) ∧
    (∀ w p, Arrives s l 4 m u → s.weft.writes = [w] → w.token = bitsOf m.spec.toNat 15 0 → w.device = m.src →
      w.issuer = .command p → s.weft.remoteOps = [] → Completes (.wack l) s (fun t =>
        t = { u with weft := { u.weft with writes := [] } })) ∧
    (∀ code, Arrives s l 5 m u → code = bitsOf m.spec.toNat 7 0 →
      (s.weft.manager = true → (code = 1 ∨ code = 2) → trackedCount s < 4096 → Completes (.notice l) s (fun t =>
        (workerOf t m.src).tracked = true ∧ (workerOf t m.src).live = true
        ∧ ∀ d, d ≠ m.src → workerOf t d = workerOf s d)) ∧
      (s.weft.manager = false ∨ code = 0 ∨ 8 < code → Completes (.notice l) s (fun t => t = u))) ∧
    (∀ ack, Arrives s l 6 m u → ack = bitsOf m.spec.toNat 15 0 →
      (s.weft.ownManager = some m.src → Completes (.replyAck l) s (fun t => t = { u with weft := { u.weft with
        kept := s.weft.kept.filter (fun e => decide (32768 ≤ (ack + 65536 - e.1) % 65536)) } })) ∧
      (s.weft.ownManager ≠ some m.src → Completes (.replyAck l) s (fun t => t = u))) ∧
    (∀ x y, l < 16 → inputRuns s l = true → takeMsg s l (fun z => !forHere s l z) = some (m, u) → routeOf u m ≠ .here →
      (∀ z, m.hops < 31 → routeOf u m = .link x z → routeOf u { m with hops := m.hops + 1 } = .link x y →
        (transitOpen u (l / 4) (x / 4) = true → Completes (.transitForward l) s (fun t =>
          t = queueMsg (crossPackage u (l / 4) (x / 4) z) x y)) ∧
        (transitOpen u (l / 4) (x / 4) = false → exec (.transitForward l) s = .next s)) ∧
      (31 ≤ m.hops → m.kind = 5 → Completes (.transitForward l) s (fun t => t.weft = u.weft ∧ t.packets = s.packets)))

/-- The timers of messages (R383, R386, R392, R394 to R397): an unacknowledged WRITE and an unanswered bounded knot
operation end with ST_TOPOLOGY, a broadcast child that does not answer counts as one failure, a gap of the ordered
packets is passed and answered, a kept reply is sent again up to 8 times, LIVE is sent while ready, and a worker whose
LIVE stops is marked. Completion: BCAST_TIMEOUT, WACK_TIMEOUT, REMOTE_REPLY_TIMEOUT, ORDERED_GAP_TIMEOUT,
REPLY_RESEND_TIMER, LIVE_NOTICE_TIMER and LIVE_MISSING_TIMEOUT answer a next state with their effects, from every
state and operands that meet the conditions named. Where it rests on the model's choices: log 69, 71, 72. -/
def Obligations.WeftTimers : Prop :=
  ∀ (s : State), hubRuns s = true →
    (∀ w p, s.weft.writes = [w] → w.issuer = .command p → s.weft.remoteOps = [] → Completes (.wackTimeout w.token) s (fun t =>
      t = { s with weft := { s.weft with writes := [] } })) ∧
    (∀ o p k, s.weft.remoteOps = [o] → o.sent = true → (∀ n, o.op ≠ .wait n) → o.issuer = .command p → getPacket s p = some k →
      k.answer = none → Completes (.remoteReplyTimeout o.num) s (fun t => Answers t p 0x0041 []
        ∧ t = { s with weft := { s.weft with remoteOps := [] }, packets := t.packets })) ∧
    (∀ o n, s.weft.remoteOps = [o] → o.op = .wait n → Completes (.remoteReplyTimeout o.num) s (fun t => t = s)) ∧
    (∀ w c d, s.weft.bcasts = [w] → w.children = [c, d] → c ≠ d → Completes (.bcastTimeout w.index c) s (fun t =>
      (∃ x, t.weft.bcasts = [x] ∧ x.fail = w.fail + 1 ∧ x.ok = w.ok ∧ x.children = [d]
        ∧ (w.fail = 0 → x.firstStatus = 0x0041 ∧ x.firstFail = (s.weft.table.map (leDevice · c)).getD 0))
      ∧ t = { s with weft := { s.weft with bcasts := t.weft.bcasts } })) ∧
    (∀ g, s.weft.ownManager = some g →
      (s.weft.early = [] → Completes .orderedGapTimeout s (fun t => t = s)) ∧
      (s.weft.early ≠ [] → (∀ e ∈ s.weft.early, e.1 ≠ (s.weft.expectNum + 1) % 65536) →
        Completes .orderedGapTimeout s (fun t => t.weft.expectNum = (s.weft.expectNum + 1) % 65536
          ∧ t.weft.early = s.weft.early ∧ t.packets = s.packets
          ∧ ∃ m, t.weft.kept = s.weft.kept ++ [(s.weft.expectNum, m, 0)] ∧ m.dest = g ∧ m.kind = 2
              ∧ fieldAt m.body 4 2 = 0x0041)) ∧
      (s.pcie.ready = true → Completes .liveNoticeTimer s (fun t => t.weft.noticeNum = s.weft.noticeNum + 1
        ∧ t.packets = s.packets))) ∧
    (s.pcie.ready = false ∨ s.weft.ownManager = none → Completes .liveNoticeTimer s (fun t => t = s)) ∧
    (∀ n m c, s.weft.kept = [(n, m, c)] →
      (c < 8 → Completes (.replyResendTimer n) s (fun t => t.weft.kept = [(n, m, c + 1)] ∧ t.packets = s.packets)) ∧
      (8 ≤ c → Completes (.replyResendTimer n) s (fun t => t.weft.kept = [] ∧ t.weft.links = s.weft.links))) ∧
    (∀ d, s.weft.manager = true → (workerOf s d).tracked = true → (workerOf s d).live = true →
      Completes (.liveMissingTimeout d) s (fun t => workerOf t d = { workerOf s d with live := false }
        ∧ ∀ e, e ≠ d → workerOf t e = workerOf s e))

/-- The link layer of Eweum's modules (R406, R407): a good DATA flit in order is accepted, a bad or unexpected one is
refused with one NAK, and a bad one is counted at a C-die's end; a CTRL flit returns credits; the timers send an ACK
and resend every unacknowledged flit. Completion: EW_DATA_FLIT, EW_CTRL_FLIT, EW_ACK_TIMER and EW_RESEND_TIMEOUT
answer a next state with their effects, from every state and operands that meet the conditions named. Where it rests
on the model's choices: log 74, 75. -/
def Obligations.EweumLinkLayer : Prop :=
  ∀ (s : State) (port m : Nat) (atHub : Bool) (e : Nat) (k : EwModule) (b : Bytes) (h : Nat) (lane : Option Nat),
    e = b2n atHub → k = ewEnd s port m e → h = fieldAt b 0 4 → ewRuns s port m e = true →
    (GoodEwFlit s port m e 1 b → bitsOf h 14 6 = k.expected → Completes (.ewDataFlit port m atHub b lane) s (fun t =>
      (ewEnd t port m e).expected = (k.expected + 1) % 512 ∧ (ewEnd t port m e).got = true ∧ (ewEnd t port m e).nakSent = false
      ∧ k.sent.length < (ewEnd t port m e).sent.length ∧ (getPort t port).crcFail = (getPort s port).crcFail
      ∧ PortOnly s t port)) ∧
    (GoodEwFlit s port m e 1 b → bitsOf h 14 6 ≠ k.expected → Completes (.ewDataFlit port m atHub b lane) s (fun t =>
      (ewEnd t port m e).expected = k.expected ∧ (ewEnd t port m e).nakSent = true ∧ (ewEnd t port m e).got = k.got
      ∧ PortOnly s t port)) ∧
    (b.length = 256 → crc32c (b.take 252) ≠ fieldAt b 252 4 → Completes (.ewDataFlit port m atHub b lane) s (fun t =>
      (ewEnd t port m e).expected = k.expected ∧ (ewEnd t port m e).nakSent = true ∧ (ewEnd t port m e).replay = k.replay
      ∧ (getPort t port).crcFail.toNat
          = (if e = 0 then Nat.min ((getPort s port).crcFail.toNat + 1) 4294967295 else (getPort s port).crcFail.toNat)
      ∧ PortOnly s t port)) ∧
    (GoodEwFlit s port m e 2 b → k.queued = [] → bitOf h 25 = false → Completes (.ewCtrlFlit port m atHub b) s (fun t =>
      (∀ v, v < 4 → (ewEnd t port m e).credits.getD v 0 = k.credits.getD v 0 + Config.ewCredits ((b.drop 4).take 248) v)
      ∧ (∀ pre x post, bitOf h 24 = true → k.replay = pre ++ (bitsOf h 23 15, x) :: post →
          (∀ y ∈ pre, y.1 ≠ bitsOf h 23 15) → (ewEnd t port m e).replay = post)
      ∧ (bitOf h 24 = false → (ewEnd t port m e).replay = k.replay)
      ∧ (ewEnd t port m e).expected = k.expected ∧ PortOnly s t port)) ∧
    (k.got = true → Completes (.ewAckTimer port m atHub) s (fun t =>
      ewEnd t port m e = { k with sent := k.sent ++ [ewFlit k 0 0 0 false []], sinceAck := 0 } ∧ PortOnly s t port)) ∧
    (k.got = false → Completes (.ewAckTimer port m atHub) s (fun t => t = s)) ∧
    (k.replay = [] → Completes (.ewResendTimeout port m atHub) s (fun t => t = s)) ∧
    (k.replay ≠ [] → Completes (.ewResendTimeout port m atHub) s (fun t =>
      (ewEnd t port m e).sent.length = k.sent.length + k.replay.length ∧ (ewEnd t port m e).replay = k.replay
      ∧ (getPort t port).replays.toNat
          = (if e = 0 then Nat.min ((getPort s port).replays.toNat + 1) 4294967295 else (getPort s port).replays.toNat)
      ∧ PortOnly s t port))

/-- The messages of Eweum (R402, R408, R422, R423): a message between this device's dies leaves whole on the module
that its key chooses; the partner's READ is answered with its blocks, its WRITE stores them, its knot operations act
on knots 8,192 to 65,535, and what its agreed set or the rules refuse is answered or discarded; a wake for the partner
leaves H. Completion: EW_READ, EW_WRITE, EW_COMPLETION, EW_KNOT_OP, EW_KNOT_WAKE and EW_TRANSIT answer a next state
with their effects, from every state and operands that meet the conditions named. Where it rests on the model's
choices: log 73, 74, 76. -/
def Obligations.EweumMessages : Prop :=
  ∀ (s : State) (port : Nat) (m : EwMessage) (e : Nat), e = b2n m.fromHub →
    (port < 4 → (getPort s port).state = 2 → (tget s.dies (ewDie port e)).clocksStopped = false → s.pins.refclkLost = false →
      Completes (.ewRead port m []) s (fun t =>
        EwSent s t port e 0 (m.addr / 2048) (ewHeader 1 m.tag m.addr m.blocks m.status)) ∧
      Completes (.ewWrite port m []) s (fun t =>
        EwSent s t port e 0 (m.addr / 2048) (ewHeader 2 m.tag m.addr m.blocks m.status ++ ewBlocks m.data m.poison m.restarted)) ∧
      Completes (.ewCompletion port m) s (fun t =>
        EwSent s t port e 1 (m.addr / 2048) (ewHeader 3 m.tag m.addr m.blocks m.status ++ ewBlocks m.data m.poison m.restarted)) ∧
      (∀ op, Completes (.ewKnotOp port m op) s (fun t =>
        EwSent s t port e 0 (m.addr / 2048) (ewHeader 4 m.tag m.addr 0 m.status))) ∧
      Completes (.ewKnotWake port m) s (fun t =>
        EwSent s t port e 1 (m.addr / 2048) (ewHeader 5 m.tag m.addr 0 m.status))) ∧
    (∀ (b : Bool) (f : Bytes), port < 6 → (getPort s port).state = 2 → (tget s.dies (ewDie port (b2n b))).clocksStopped = false →
      s.pins.refclkLost = false → Completes (.ewTransit port b f) s (fun t =>
        EwSent s t port (b2n b) 3 (bitsOf (fieldAt f 6 4) 17 0) (ewHeader 7 0 0 0 0 ++ padTo 256 f))) ∧
    (partnerIn s = true → m.fromHub = false →
      (partnerMay s 128 = true → partnerStatus s false m ≠ 0 → Completes (.ewRead 6 m []) s (fun t =>
        EwSent s t 6 1 1 (m.addr / 2048) (ewHeader 3 m.tag m.addr 0 (partnerStatus s false m)))) ∧
      (∀ rs : List Bool, rs = (List.range m.blocks).map (fun i =>
          (checkStored (readBytes s.mem (m.addr + 256 * i) 256) (tagOf s.mem (m.addr / 256 + i)).stored).getD false) →
        partnerMay s 128 = true → partnerStatus s false m = 0 → accessWaits s m.addr (256 * m.blocks) = false →
        RangeVerifies s m.addr (256 * m.blocks) → Completes (.ewRead 6 m []) s (fun t =>
          EwSent { s with throttled := t.throttled } t 6 1 1 (m.addr / 2048) (ewHeader 3 m.tag m.addr m.blocks 0
            ++ ewBlocks (readBytes s.mem m.addr (256 * m.blocks)) (List.replicate m.blocks false) rs))) ∧
      (partnerMay s 128 = true → partnerStatus s true m = 0 → accessWaits s m.addr (256 * m.blocks) = false →
        m.data.length = 256 * m.blocks → Completes (.ewWrite 6 m []) s (fun t =>
          Stores s t m.addr m.data
          ∧ (∀ i, i < m.blocks → (tagOf t.mem (m.addr / 256 + i)).poison = m.poison.getD i false)
          ∧ EwSent { s with mem := t.mem } t 6 1 1 (m.addr / 2048) (ewHeader 3 m.tag m.addr 0 0))) ∧
      (partnerMay s 130 = true → Completes (.ewCompletion 6 m) s (fun t => t = s)) ∧
      (∀ n v, 8192 ≤ n → n < 65536 → m.addr = 0xE200000000 + 16 * n → partnerMay s 129 = true →
        Completes (.ewKnotOp 6 m (.set v)) s (fun t => tget t.knots n = applyKnotOp (tget s.knots n) (.set v)
          ∧ WakesMet s t n false
          ∧ EwSent { s with knots := t.knots, waiters := t.waiters, wakes := t.wakes, cores := t.cores, packets := t.packets } t
              6 1 1 (m.addr / 2048) (ewHeader 3 m.tag m.addr 0 0))) ∧
      (∀ n v, 8192 ≤ n → n < 65536 → m.addr = 0xE200000000 + 16 * n → partnerMay s 129 = true →
        (tget s.knots n).value.toNat < v → s.waiters.length < 131072 → Completes (.ewKnotOp 6 m (.wait v)) s (fun t =>
          t = { s with waiters := s.waiters ++ [{ issuer := .chiplet, knot := n, target := v, tag := m.tag }] })) ∧
      (∀ op, m.addr < 0xE200020000 → partnerMay s 129 = true → Completes (.ewKnotOp 6 m op) s (fun t =>
        EwSent s t 6 1 1 (m.addr / 2048) (ewHeader 3 m.tag m.addr 0 0x0021))) ∧
      (partnerMay s 128 = false → s.errors.ringUp = false → Completes (.ewRead 6 m []) s (fun t =>
        t.mem = s.mem ∧ t.ports = s.ports ∧ t.throttled = s.throttled))) ∧
    (∀ w, partnerIn s = true → m.fromHub = true → s.wakes = [w] → w.issuer = .chiplet → w.tag = m.tag →
      Completes (.ewKnotWake 6 m) s (fun t => EwSent { s with wakes := [] } t 6 1 1 (w.knot * 16 / 2048)
        (ewHeader 5 w.tag (0xE200000000 + 16 * w.knot) 0 0 ++ toBytes 8 w.value)))

/-- Eweum's control, sideband and repair (R403, R414, R416 to R421, R424, R507): a setting of H's power manager goes
to the die as a control message and takes effect there; straps are read again; the sideband carries messages while a
module is in service; a layer whose reset has done its last step is out of reset; the partner's reset and silence
discard its requests; a scope that a die lacks changes no unit; a lane repair quiesces the port, over which no setting
then goes, and, once flits are acknowledged, takes a spare, or maps the module out. Completion: M_LAYER_RESET,
C_DIE_RESET, EW_CONTROL, STRAPS_READ, RESET_REQ, RESET_DONE, REPAIR_REQ, REPAIR_DONE, HOLD_OUT and
PARTNER_SILENT_TIMEOUT answer a next state with their effects, from every state and operands that meet the conditions
named. Where it rests on the model's choices: log 75, 77, 78, 79, 105, 121. -/
def Obligations.EweumService : Prop :=
  ∀ (s : State) (d : Nat), hubRuns s = true →
    (d < 4 → (getPort s d).state = 2 → (getPort s d).quiesced = true → ∀ c, exec (.ewControl d c) s = .next s) ∧
    (d < 4 → (getPort s d).state = 2 → (getPort s d).quiesced = false → (tget s.dies d).clocksStopped = false →
      (∀ n, n < 4 → Completes (.ewControl d (.clockStep n)) s (fun t => tget t.dies d = { tget s.dies d with clockStep := n }
        ∧ (∀ x, x ≠ d → tget t.dies x = tget s.dies x) ∧ t = { sendControl s d (.clockStep n) with dies := t.dies })) ∧
      (∀ n st, n < 4 → st / 2 = d → Completes (.ewControl d (.throttle st n)) s (fun t =>
        tget t.hbmStacks st = { tget s.hbmStacks st with step := n } ∧ (∀ x, x ≠ st → tget t.hbmStacks x = tget s.hbmStacks x)
        ∧ t = { sendControl s d (.throttle st n) with hbmStacks := t.hbmStacks })) ∧
      (∀ r n, n < 12 → r / 4 = d → Completes (.ewControl d (.rung r n)) s (fun t =>
        getRegion t r = { getRegion s r with rung := n, admitLevel := BitVec.ofNat 3 (rungAdmit n) }
        ∧ (∀ x, x ≠ r → getRegion t x = getRegion s x) ∧ t = { sendControl s d (.rung r n) with regions := t.regions })) ∧
      (∀ y v, y < 8 → v < 4 → Completes (.ewControl d (.band y v)) s (fun t => tget t.thermal.bands (d * 8 + y) = v
        ∧ (∀ c, 2048 * d ≤ c → c < 2048 * (d + 1) → (getChan t (chanOf c y)).band = BitVec.ofNat 2 v)
        ∧ t = { sendControl s d (.band y v) with thermal := t.thermal, chans := t.chans })) ∧
      (s.thermal.clockOrdered = false → Completes (.ewControl d .clockStop) s (fun t => t = sendControl s d .clockStop))) ∧
    (sidebandOpen s d = false → (∀ a, exec (.strapsRead d a) s = .next s) ∧ ∀ c, exec (.resetReq d c) s = .next s) ∧
    (∀ n o, d < 4 → n < 8 → layerOrder s (8 * d + n) = some o → Completes (.resetDone d (.mLayer n) 5) s (fun t =>
      (tget t.layers (8 * d + n)).inReset = false ∧ (tget t.layers (8 * d + n)).selfRefresh = decide (2 ≤ s.thermal.stop)
      ∧ ∀ x, x ≠ 8 * d + n → tget t.layers x = tget s.layers x)) ∧
    (∀ a : DieAnswer, sidebandOpen s d = true → a.responds = true → 2 ≤ s.pcie.phase.toNat → Completes (.strapsRead d a) s (fun t =>
      (tget t.dies d).dieType = a.dieType ∧ (tget t.dies d).stepMajor = a.stepMajor ∧ (tget t.dies d).stepMinor = a.stepMinor
      ∧ (tget t.dies d).posMatch = (a.dieType == 0 && a.pos.toNat == d)
      ∧ (∀ x, x ≠ d → tget t.dies x = tget s.dies x) ∧ t = { s with dies := t.dies })) ∧
    (∀ x, sidebandOpen s 5 = true → Completes (.resetReq 5 .partner) s (fun t => (tget t.dies 5).inReset = true ∧ (getPort t 6).links = []
      ∧ t.waiters = s.waiters.filter (fun w => w.issuer != .chiplet) ∧ t.wakes = s.wakes.filter (fun w => w.issuer != .chiplet)
      ∧ t.mem = s.mem ∧ t.packets = s.packets ∧ (x ≠ 5 → tget t.dies x = tget s.dies x))) ∧
    (∀ c, sidebandOpen s d = true → Completes (.resetReq d (.other c)) s (fun t => t.cores = s.cores ∧ t.dies = s.dies
      ∧ t.chans = s.chans ∧ t.resets = s.resets ∧ t.packets = s.packets)) ∧
    (d < 4 → sidebandOpen s d = true → exec (.resetReq d .cDie) s = exec (.cDieReset d) s
      ∧ ∀ n, n < 8 → exec (.resetReq d (.mLayer n)) s = exec (.mLayerReset d n) s) ∧
    (∀ step, 0 < step → Completes (.resetDone 5 .partner step) s (fun t =>
      tget t.dies 5 = { tget s.dies 5 with inReset := false } ∧ t = { s with dies := t.dies })) ∧
    ((tget s.dies 5).heldOut = true → Completes (.holdOut 5) s (fun t => (getPort t 6).links = [] ∧ (getPort t 6).quiesced = false
      ∧ t.waiters = s.waiters.filter (fun w => w.issuer != .chiplet))) ∧
    (d < 4 → (tget s.dies d).heldOut = true → Completes (.holdOut d) s (fun t => getPort t d = { getPort s d with
      links := [], quiesced := false, repairing := [] } ∧ PortOnly s t d)) ∧
    (partnerIn s = true → Completes .partnerSilentTimeout s (fun t => (tget t.dies 5).heldOut = true
      ∧ (tget t.dies 5).holdCause = 6 ∧ (getPort t 6).state = 3 ∧ (getPort t 6).links = []
      ∧ t.waiters = s.waiters.filter (fun w => w.issuer != .chiplet))) ∧
    (partnerIn s = false → Completes .partnerSilentTimeout s (fun t => t = s)) ∧
    (∀ port m (to_ : Bool) lane re, ewRuns s port m (rxEnd port to_) = true → repairDue s port m (rxEnd port to_) lane = true →
      (getPort s port).repairing = [] → Completes (.repairReq port m to_ lane re) s (fun t =>
        getPort t port = { getPort s port with
          quiesced := true
          repairing := [⟨m, to_, lane, re && decide ((ewEnd s port m (rxEnd port to_)).spares < 3)⟩] } ∧ PortOnly s t port)) ∧
    (∀ port r, (getPort s port).repairing = [r] → (∀ x ∈ (getPort s port).links, x.2.replay = []) → r.moved = true →
      Completes (.repairDone port r.module false) s (fun t => (getPort t port).repairing = [] ∧ (getPort t port).quiesced = false
        ∧ (ewEnd t port r.module (rxEnd port r.towardHub)).spares = (ewEnd s port r.module (rxEnd port r.towardHub)).spares + 1
        ∧ (getPort t port).modulesOut = (getPort s port).modulesOut)) ∧
    (∀ port r, (getPort s port).repairing = [r] → (∀ x ∈ (getPort s port).links, x.2.replay = []) → r.module < 16 → port < 4 →
      8 < (getPort s port).modules → Completes (.repairDone port r.module true) s (fun t =>
        (getPort t port).repairing = [] ∧ (getPort t port).quiesced = false
        ∧ (getPort t port).modules = (getPort s port).modules - 1 ∧ bitOf (getPort t port).modulesOut.toNat r.module = true
        ∧ (tget t.dies port).heldOut = (tget s.dies port).heldOut
        ∧ ∃ x ∈ t.boot.appendQueue, x = darnEntry 9 2 (port + r.module * 8)))

/-- The order of weave cores (R166): weave core w is block ordinal w / 64, core w mod 64. -/
def Obligations.WeaveCoreOrder : Prop :=
  ∀ (sl : ModelSlot), (weaveCores sl).length = 64 * sl.weave.length ∧
    ∀ w b, sl.weave[w / 64]? = some b → (weaveCores sl)[w]? = some (64 * b + w % 64)

/-- ABORT of a RESET, an ABORT or an FW_ACTIVATE (R338): however far its target has come, it always returns
ST_ALREADY_DONE, and the target is not stopped. Completion: ABORT answers a next state with its effect, from every
state and operands that meet the conditions named. -/
def Obligations.AbortComesTooLate : Prop :=
  ∀ (s : State) (p : Nat) (k j : Packet), MayBegin s p 0x0A02 k →
    firstThat (fun i => abortSource k i && i.tag == argAt k 0x10 4 && i.id != p) s.packets = some j →
    (j.opcode = 0x0A01 ∨ j.opcode = 0x0A02 ∨ j.opcode = 0x0903) →
    Completes (.abort p) s (fun t => (answerOf t p).map (·.status) = some 0x0001
      ∧ (∀ i, i ≠ p → getPacket t i = getPacket s i) ∧ t = { s with packets := t.packets })
end

