-- ==== Sys2Proof/Laws/State.lean ====
section
/-!
SUPPORT. One lemma for each field of the state and each update of it: the field that an update names changes, every other
field stays.
-/
namespace Sys2Proof.Machine

variable (s : State)

/-! ### modCore -/

@[simp] theorem modCore_pending (c : Nat) (f : Core → Core) : (modCore s c f).pending = s.pending := rfl
@[simp] theorem modCore_free (c : Nat) (f : Core → Core) : (modCore s c f).free = s.free := rfl
@[simp] theorem modCore_pins (c : Nat) (f : Core → Core) : (modCore s c f).pins = s.pins := rfl
@[simp] theorem modCore_pcie (c : Nat) (f : Core → Core) : (modCore s c f).pcie = s.pcie := rfl
@[simp] theorem modCore_sqs (c : Nat) (f : Core → Core) : (modCore s c f).sqs = s.sqs := rfl
@[simp] theorem modCore_cqs (c : Nat) (f : Core → Core) : (modCore s c f).cqs = s.cqs := rfl
@[simp] theorem modCore_packets (c : Nat) (f : Core → Core) : (modCore s c f).packets = s.packets := rfl
@[simp] theorem modCore_nextPacket (c : Nat) (f : Core → Core) : (modCore s c f).nextPacket = s.nextPacket := rfl
@[simp] theorem modCore_mem (c : Nat) (f : Core → Core) : (modCore s c f).mem = s.mem := rfl
@[simp] theorem modCore_delivered (c : Nat) (f : Core → Core) : (modCore s c f).delivered = s.delivered := rfl
@[simp] theorem modCore_knots (c : Nat) (f : Core → Core) : (modCore s c f).knots = s.knots := rfl
@[simp] theorem modCore_waiters (c : Nat) (f : Core → Core) : (modCore s c f).waiters = s.waiters := rfl
@[simp] theorem modCore_refusedWaits (c : Nat) (f : Core → Core) : (modCore s c f).refusedWaits = s.refusedWaits := rfl
@[simp] theorem modCore_wakes (c : Nat) (f : Core → Core) : (modCore s c f).wakes = s.wakes := rfl
@[simp] theorem modCore_throttled (c : Nat) (f : Core → Core) : (modCore s c f).throttled = s.throttled := rfl
@[simp] theorem modCore_colls (c : Nat) (f : Core → Core) : (modCore s c f).colls = s.colls := rfl
@[simp] theorem modCore_chk (c : Nat) (f : Core → Core) : (modCore s c f).chk = s.chk := rfl
@[simp] theorem modCore_wbPoisonReads (c : Nat) (f : Core → Core) : (modCore s c f).wbPoisonReads = s.wbPoisonReads := rfl
@[simp] theorem modCore_wbWeights (c : Nat) (f : Core → Core) : (modCore s c f).wbWeights = s.wbWeights := rfl
@[simp] theorem modCore_staging (c : Nat) (f : Core → Core) : (modCore s c f).staging = s.staging := rfl
@[simp] theorem modCore_chans (c : Nat) (f : Core → Core) : (modCore s c f).chans = s.chans := rfl
@[simp] theorem modCore_layers (c : Nat) (f : Core → Core) : (modCore s c f).layers = s.layers := rfl
@[simp] theorem modCore_regions (c : Nat) (f : Core → Core) : (modCore s c f).regions = s.regions := rfl
@[simp] theorem modCore_pcs (c : Nat) (f : Core → Core) : (modCore s c f).pcs = s.pcs := rfl
@[simp] theorem modCore_hbmStacks (c : Nat) (f : Core → Core) : (modCore s c f).hbmStacks = s.hbmStacks := rfl
@[simp] theorem modCore_dies (c : Nat) (f : Core → Core) : (modCore s c f).dies = s.dies := rfl
@[simp] theorem modCore_ports (c : Nat) (f : Core → Core) : (modCore s c f).ports = s.ports := rfl
@[simp] theorem modCore_slots (c : Nat) (f : Core → Core) : (modCore s c f).slots = s.slots := rfl
@[simp] theorem modCore_seqs (c : Nat) (f : Core → Core) : (modCore s c f).seqs = s.seqs := rfl
@[simp] theorem modCore_ptes (c : Nat) (f : Core → Core) : (modCore s c f).ptes = s.ptes := rfl
@[simp] theorem modCore_dirs (c : Nat) (f : Core → Core) : (modCore s c f).dirs = s.dirs := rfl
@[simp] theorem modCore_leaves (c : Nat) (f : Core → Core) : (modCore s c f).leaves = s.leaves := rfl
@[simp] theorem modCore_frames (c : Nat) (f : Core → Core) : (modCore s c f).frames = s.frames := rfl
@[simp] theorem modCore_batches (c : Nat) (f : Core → Core) : (modCore s c f).batches = s.batches := rfl
@[simp] theorem modCore_nextSerial (c : Nat) (f : Core → Core) : (modCore s c f).nextSerial = s.nextSerial := rfl
@[simp] theorem modCore_nextOrder (c : Nat) (f : Core → Core) : (modCore s c f).nextOrder = s.nextOrder := rfl
@[simp] theorem modCore_sensors (c : Nat) (f : Core → Core) : (modCore s c f).sensors = s.sensors := rfl
@[simp] theorem modCore_power (c : Nat) (f : Core → Core) : (modCore s c f).power = s.power := rfl
@[simp] theorem modCore_thermal (c : Nat) (f : Core → Core) : (modCore s c f).thermal = s.thermal := rfl
@[simp] theorem modCore_errors (c : Nat) (f : Core → Core) : (modCore s c f).errors = s.errors := rfl
@[simp] theorem modCore_capacity (c : Nat) (f : Core → Core) : (modCore s c f).capacity = s.capacity := rfl
@[simp] theorem modCore_counters (c : Nat) (f : Core → Core) : (modCore s c f).counters = s.counters := rfl
@[simp] theorem modCore_mailboxes (c : Nat) (f : Core → Core) : (modCore s c f).mailboxes = s.mailboxes := rfl
@[simp] theorem modCore_rescueOrder (c : Nat) (f : Core → Core) : (modCore s c f).rescueOrder = s.rescueOrder := rfl
@[simp] theorem modCore_i3c (c : Nat) (f : Core → Core) : (modCore s c f).i3c = s.i3c := rfl
@[simp] theorem modCore_flash (c : Nat) (f : Core → Core) : (modCore s c f).flash = s.flash := rfl
@[simp] theorem modCore_boot (c : Nat) (f : Core → Core) : (modCore s c f).boot = s.boot := rfl
@[simp] theorem modCore_resets (c : Nat) (f : Core → Core) : (modCore s c f).resets = s.resets := rfl
@[simp] theorem modCore_weft (c : Nat) (f : Core → Core) : (modCore s c f).weft = s.weft := rfl

/-! ### modChan -/

@[simp] theorem modChan_pending (c : Nat) (f : Chan → Chan) : (modChan s c f).pending = s.pending := rfl
@[simp] theorem modChan_free (c : Nat) (f : Chan → Chan) : (modChan s c f).free = s.free := rfl
@[simp] theorem modChan_pins (c : Nat) (f : Chan → Chan) : (modChan s c f).pins = s.pins := rfl
@[simp] theorem modChan_pcie (c : Nat) (f : Chan → Chan) : (modChan s c f).pcie = s.pcie := rfl
@[simp] theorem modChan_sqs (c : Nat) (f : Chan → Chan) : (modChan s c f).sqs = s.sqs := rfl
@[simp] theorem modChan_cqs (c : Nat) (f : Chan → Chan) : (modChan s c f).cqs = s.cqs := rfl
@[simp] theorem modChan_packets (c : Nat) (f : Chan → Chan) : (modChan s c f).packets = s.packets := rfl
@[simp] theorem modChan_nextPacket (c : Nat) (f : Chan → Chan) : (modChan s c f).nextPacket = s.nextPacket := rfl
@[simp] theorem modChan_mem (c : Nat) (f : Chan → Chan) : (modChan s c f).mem = s.mem := rfl
@[simp] theorem modChan_delivered (c : Nat) (f : Chan → Chan) : (modChan s c f).delivered = s.delivered := rfl
@[simp] theorem modChan_knots (c : Nat) (f : Chan → Chan) : (modChan s c f).knots = s.knots := rfl
@[simp] theorem modChan_waiters (c : Nat) (f : Chan → Chan) : (modChan s c f).waiters = s.waiters := rfl
@[simp] theorem modChan_refusedWaits (c : Nat) (f : Chan → Chan) : (modChan s c f).refusedWaits = s.refusedWaits := rfl
@[simp] theorem modChan_wakes (c : Nat) (f : Chan → Chan) : (modChan s c f).wakes = s.wakes := rfl
@[simp] theorem modChan_throttled (c : Nat) (f : Chan → Chan) : (modChan s c f).throttled = s.throttled := rfl
@[simp] theorem modChan_colls (c : Nat) (f : Chan → Chan) : (modChan s c f).colls = s.colls := rfl
@[simp] theorem modChan_chk (c : Nat) (f : Chan → Chan) : (modChan s c f).chk = s.chk := rfl
@[simp] theorem modChan_wbPoisonReads (c : Nat) (f : Chan → Chan) : (modChan s c f).wbPoisonReads = s.wbPoisonReads := rfl
@[simp] theorem modChan_wbWeights (c : Nat) (f : Chan → Chan) : (modChan s c f).wbWeights = s.wbWeights := rfl
@[simp] theorem modChan_staging (c : Nat) (f : Chan → Chan) : (modChan s c f).staging = s.staging := rfl
@[simp] theorem modChan_cores (c : Nat) (f : Chan → Chan) : (modChan s c f).cores = s.cores := rfl
@[simp] theorem modChan_layers (c : Nat) (f : Chan → Chan) : (modChan s c f).layers = s.layers := rfl
@[simp] theorem modChan_regions (c : Nat) (f : Chan → Chan) : (modChan s c f).regions = s.regions := rfl
@[simp] theorem modChan_pcs (c : Nat) (f : Chan → Chan) : (modChan s c f).pcs = s.pcs := rfl
@[simp] theorem modChan_hbmStacks (c : Nat) (f : Chan → Chan) : (modChan s c f).hbmStacks = s.hbmStacks := rfl
@[simp] theorem modChan_dies (c : Nat) (f : Chan → Chan) : (modChan s c f).dies = s.dies := rfl
@[simp] theorem modChan_ports (c : Nat) (f : Chan → Chan) : (modChan s c f).ports = s.ports := rfl
@[simp] theorem modChan_slots (c : Nat) (f : Chan → Chan) : (modChan s c f).slots = s.slots := rfl
@[simp] theorem modChan_seqs (c : Nat) (f : Chan → Chan) : (modChan s c f).seqs = s.seqs := rfl
@[simp] theorem modChan_ptes (c : Nat) (f : Chan → Chan) : (modChan s c f).ptes = s.ptes := rfl
@[simp] theorem modChan_dirs (c : Nat) (f : Chan → Chan) : (modChan s c f).dirs = s.dirs := rfl
@[simp] theorem modChan_leaves (c : Nat) (f : Chan → Chan) : (modChan s c f).leaves = s.leaves := rfl
@[simp] theorem modChan_frames (c : Nat) (f : Chan → Chan) : (modChan s c f).frames = s.frames := rfl
@[simp] theorem modChan_batches (c : Nat) (f : Chan → Chan) : (modChan s c f).batches = s.batches := rfl
@[simp] theorem modChan_nextSerial (c : Nat) (f : Chan → Chan) : (modChan s c f).nextSerial = s.nextSerial := rfl
@[simp] theorem modChan_nextOrder (c : Nat) (f : Chan → Chan) : (modChan s c f).nextOrder = s.nextOrder := rfl
@[simp] theorem modChan_sensors (c : Nat) (f : Chan → Chan) : (modChan s c f).sensors = s.sensors := rfl
@[simp] theorem modChan_power (c : Nat) (f : Chan → Chan) : (modChan s c f).power = s.power := rfl
@[simp] theorem modChan_thermal (c : Nat) (f : Chan → Chan) : (modChan s c f).thermal = s.thermal := rfl
@[simp] theorem modChan_errors (c : Nat) (f : Chan → Chan) : (modChan s c f).errors = s.errors := rfl
@[simp] theorem modChan_capacity (c : Nat) (f : Chan → Chan) : (modChan s c f).capacity = s.capacity := rfl
@[simp] theorem modChan_counters (c : Nat) (f : Chan → Chan) : (modChan s c f).counters = s.counters := rfl
@[simp] theorem modChan_mailboxes (c : Nat) (f : Chan → Chan) : (modChan s c f).mailboxes = s.mailboxes := rfl
@[simp] theorem modChan_rescueOrder (c : Nat) (f : Chan → Chan) : (modChan s c f).rescueOrder = s.rescueOrder := rfl
@[simp] theorem modChan_i3c (c : Nat) (f : Chan → Chan) : (modChan s c f).i3c = s.i3c := rfl
@[simp] theorem modChan_flash (c : Nat) (f : Chan → Chan) : (modChan s c f).flash = s.flash := rfl
@[simp] theorem modChan_boot (c : Nat) (f : Chan → Chan) : (modChan s c f).boot = s.boot := rfl
@[simp] theorem modChan_resets (c : Nat) (f : Chan → Chan) : (modChan s c f).resets = s.resets := rfl
@[simp] theorem modChan_weft (c : Nat) (f : Chan → Chan) : (modChan s c f).weft = s.weft := rfl

/-! ### modRegion -/

@[simp] theorem modRegion_pending (r : Nat) (f : Region → Region) : (modRegion s r f).pending = s.pending := rfl
@[simp] theorem modRegion_free (r : Nat) (f : Region → Region) : (modRegion s r f).free = s.free := rfl
@[simp] theorem modRegion_pins (r : Nat) (f : Region → Region) : (modRegion s r f).pins = s.pins := rfl
@[simp] theorem modRegion_pcie (r : Nat) (f : Region → Region) : (modRegion s r f).pcie = s.pcie := rfl
@[simp] theorem modRegion_sqs (r : Nat) (f : Region → Region) : (modRegion s r f).sqs = s.sqs := rfl
@[simp] theorem modRegion_cqs (r : Nat) (f : Region → Region) : (modRegion s r f).cqs = s.cqs := rfl
@[simp] theorem modRegion_packets (r : Nat) (f : Region → Region) : (modRegion s r f).packets = s.packets := rfl
@[simp] theorem modRegion_nextPacket (r : Nat) (f : Region → Region) : (modRegion s r f).nextPacket = s.nextPacket := rfl
@[simp] theorem modRegion_mem (r : Nat) (f : Region → Region) : (modRegion s r f).mem = s.mem := rfl
@[simp] theorem modRegion_delivered (r : Nat) (f : Region → Region) : (modRegion s r f).delivered = s.delivered := rfl
@[simp] theorem modRegion_knots (r : Nat) (f : Region → Region) : (modRegion s r f).knots = s.knots := rfl
@[simp] theorem modRegion_waiters (r : Nat) (f : Region → Region) : (modRegion s r f).waiters = s.waiters := rfl
@[simp] theorem modRegion_refusedWaits (r : Nat) (f : Region → Region) : (modRegion s r f).refusedWaits = s.refusedWaits := rfl
@[simp] theorem modRegion_wakes (r : Nat) (f : Region → Region) : (modRegion s r f).wakes = s.wakes := rfl
@[simp] theorem modRegion_throttled (r : Nat) (f : Region → Region) : (modRegion s r f).throttled = s.throttled := rfl
@[simp] theorem modRegion_colls (r : Nat) (f : Region → Region) : (modRegion s r f).colls = s.colls := rfl
@[simp] theorem modRegion_chk (r : Nat) (f : Region → Region) : (modRegion s r f).chk = s.chk := rfl
@[simp] theorem modRegion_wbPoisonReads (r : Nat) (f : Region → Region) : (modRegion s r f).wbPoisonReads = s.wbPoisonReads := rfl
@[simp] theorem modRegion_wbWeights (r : Nat) (f : Region → Region) : (modRegion s r f).wbWeights = s.wbWeights := rfl
@[simp] theorem modRegion_staging (r : Nat) (f : Region → Region) : (modRegion s r f).staging = s.staging := rfl
@[simp] theorem modRegion_cores (r : Nat) (f : Region → Region) : (modRegion s r f).cores = s.cores := rfl
@[simp] theorem modRegion_chans (r : Nat) (f : Region → Region) : (modRegion s r f).chans = s.chans := rfl
@[simp] theorem modRegion_layers (r : Nat) (f : Region → Region) : (modRegion s r f).layers = s.layers := rfl
@[simp] theorem modRegion_pcs (r : Nat) (f : Region → Region) : (modRegion s r f).pcs = s.pcs := rfl
@[simp] theorem modRegion_hbmStacks (r : Nat) (f : Region → Region) : (modRegion s r f).hbmStacks = s.hbmStacks := rfl
@[simp] theorem modRegion_dies (r : Nat) (f : Region → Region) : (modRegion s r f).dies = s.dies := rfl
@[simp] theorem modRegion_ports (r : Nat) (f : Region → Region) : (modRegion s r f).ports = s.ports := rfl
@[simp] theorem modRegion_slots (r : Nat) (f : Region → Region) : (modRegion s r f).slots = s.slots := rfl
@[simp] theorem modRegion_seqs (r : Nat) (f : Region → Region) : (modRegion s r f).seqs = s.seqs := rfl
@[simp] theorem modRegion_ptes (r : Nat) (f : Region → Region) : (modRegion s r f).ptes = s.ptes := rfl
@[simp] theorem modRegion_dirs (r : Nat) (f : Region → Region) : (modRegion s r f).dirs = s.dirs := rfl
@[simp] theorem modRegion_leaves (r : Nat) (f : Region → Region) : (modRegion s r f).leaves = s.leaves := rfl
@[simp] theorem modRegion_frames (r : Nat) (f : Region → Region) : (modRegion s r f).frames = s.frames := rfl
@[simp] theorem modRegion_batches (r : Nat) (f : Region → Region) : (modRegion s r f).batches = s.batches := rfl
@[simp] theorem modRegion_nextSerial (r : Nat) (f : Region → Region) : (modRegion s r f).nextSerial = s.nextSerial := rfl
@[simp] theorem modRegion_nextOrder (r : Nat) (f : Region → Region) : (modRegion s r f).nextOrder = s.nextOrder := rfl
@[simp] theorem modRegion_sensors (r : Nat) (f : Region → Region) : (modRegion s r f).sensors = s.sensors := rfl
@[simp] theorem modRegion_power (r : Nat) (f : Region → Region) : (modRegion s r f).power = s.power := rfl
@[simp] theorem modRegion_thermal (r : Nat) (f : Region → Region) : (modRegion s r f).thermal = s.thermal := rfl
@[simp] theorem modRegion_errors (r : Nat) (f : Region → Region) : (modRegion s r f).errors = s.errors := rfl
@[simp] theorem modRegion_capacity (r : Nat) (f : Region → Region) : (modRegion s r f).capacity = s.capacity := rfl
@[simp] theorem modRegion_counters (r : Nat) (f : Region → Region) : (modRegion s r f).counters = s.counters := rfl
@[simp] theorem modRegion_mailboxes (r : Nat) (f : Region → Region) : (modRegion s r f).mailboxes = s.mailboxes := rfl
@[simp] theorem modRegion_rescueOrder (r : Nat) (f : Region → Region) : (modRegion s r f).rescueOrder = s.rescueOrder := rfl
@[simp] theorem modRegion_i3c (r : Nat) (f : Region → Region) : (modRegion s r f).i3c = s.i3c := rfl
@[simp] theorem modRegion_flash (r : Nat) (f : Region → Region) : (modRegion s r f).flash = s.flash := rfl
@[simp] theorem modRegion_boot (r : Nat) (f : Region → Region) : (modRegion s r f).boot = s.boot := rfl
@[simp] theorem modRegion_resets (r : Nat) (f : Region → Region) : (modRegion s r f).resets = s.resets := rfl
@[simp] theorem modRegion_weft (r : Nat) (f : Region → Region) : (modRegion s r f).weft = s.weft := rfl

/-! ### modPc -/

@[simp] theorem modPc_pending (n : Nat) (f : FarPc → FarPc) : (modPc s n f).pending = s.pending := rfl
@[simp] theorem modPc_free (n : Nat) (f : FarPc → FarPc) : (modPc s n f).free = s.free := rfl
@[simp] theorem modPc_pins (n : Nat) (f : FarPc → FarPc) : (modPc s n f).pins = s.pins := rfl
@[simp] theorem modPc_pcie (n : Nat) (f : FarPc → FarPc) : (modPc s n f).pcie = s.pcie := rfl
@[simp] theorem modPc_sqs (n : Nat) (f : FarPc → FarPc) : (modPc s n f).sqs = s.sqs := rfl
@[simp] theorem modPc_cqs (n : Nat) (f : FarPc → FarPc) : (modPc s n f).cqs = s.cqs := rfl
@[simp] theorem modPc_packets (n : Nat) (f : FarPc → FarPc) : (modPc s n f).packets = s.packets := rfl
@[simp] theorem modPc_nextPacket (n : Nat) (f : FarPc → FarPc) : (modPc s n f).nextPacket = s.nextPacket := rfl
@[simp] theorem modPc_mem (n : Nat) (f : FarPc → FarPc) : (modPc s n f).mem = s.mem := rfl
@[simp] theorem modPc_delivered (n : Nat) (f : FarPc → FarPc) : (modPc s n f).delivered = s.delivered := rfl
@[simp] theorem modPc_knots (n : Nat) (f : FarPc → FarPc) : (modPc s n f).knots = s.knots := rfl
@[simp] theorem modPc_waiters (n : Nat) (f : FarPc → FarPc) : (modPc s n f).waiters = s.waiters := rfl
@[simp] theorem modPc_refusedWaits (n : Nat) (f : FarPc → FarPc) : (modPc s n f).refusedWaits = s.refusedWaits := rfl
@[simp] theorem modPc_wakes (n : Nat) (f : FarPc → FarPc) : (modPc s n f).wakes = s.wakes := rfl
@[simp] theorem modPc_throttled (n : Nat) (f : FarPc → FarPc) : (modPc s n f).throttled = s.throttled := rfl
@[simp] theorem modPc_colls (n : Nat) (f : FarPc → FarPc) : (modPc s n f).colls = s.colls := rfl
@[simp] theorem modPc_chk (n : Nat) (f : FarPc → FarPc) : (modPc s n f).chk = s.chk := rfl
@[simp] theorem modPc_wbPoisonReads (n : Nat) (f : FarPc → FarPc) : (modPc s n f).wbPoisonReads = s.wbPoisonReads := rfl
@[simp] theorem modPc_wbWeights (n : Nat) (f : FarPc → FarPc) : (modPc s n f).wbWeights = s.wbWeights := rfl
@[simp] theorem modPc_staging (n : Nat) (f : FarPc → FarPc) : (modPc s n f).staging = s.staging := rfl
@[simp] theorem modPc_cores (n : Nat) (f : FarPc → FarPc) : (modPc s n f).cores = s.cores := rfl
@[simp] theorem modPc_chans (n : Nat) (f : FarPc → FarPc) : (modPc s n f).chans = s.chans := rfl
@[simp] theorem modPc_layers (n : Nat) (f : FarPc → FarPc) : (modPc s n f).layers = s.layers := rfl
@[simp] theorem modPc_regions (n : Nat) (f : FarPc → FarPc) : (modPc s n f).regions = s.regions := rfl
@[simp] theorem modPc_hbmStacks (n : Nat) (f : FarPc → FarPc) : (modPc s n f).hbmStacks = s.hbmStacks := rfl
@[simp] theorem modPc_dies (n : Nat) (f : FarPc → FarPc) : (modPc s n f).dies = s.dies := rfl
@[simp] theorem modPc_ports (n : Nat) (f : FarPc → FarPc) : (modPc s n f).ports = s.ports := rfl
@[simp] theorem modPc_slots (n : Nat) (f : FarPc → FarPc) : (modPc s n f).slots = s.slots := rfl
@[simp] theorem modPc_seqs (n : Nat) (f : FarPc → FarPc) : (modPc s n f).seqs = s.seqs := rfl
@[simp] theorem modPc_ptes (n : Nat) (f : FarPc → FarPc) : (modPc s n f).ptes = s.ptes := rfl
@[simp] theorem modPc_dirs (n : Nat) (f : FarPc → FarPc) : (modPc s n f).dirs = s.dirs := rfl
@[simp] theorem modPc_leaves (n : Nat) (f : FarPc → FarPc) : (modPc s n f).leaves = s.leaves := rfl
@[simp] theorem modPc_frames (n : Nat) (f : FarPc → FarPc) : (modPc s n f).frames = s.frames := rfl
@[simp] theorem modPc_batches (n : Nat) (f : FarPc → FarPc) : (modPc s n f).batches = s.batches := rfl
@[simp] theorem modPc_nextSerial (n : Nat) (f : FarPc → FarPc) : (modPc s n f).nextSerial = s.nextSerial := rfl
@[simp] theorem modPc_nextOrder (n : Nat) (f : FarPc → FarPc) : (modPc s n f).nextOrder = s.nextOrder := rfl
@[simp] theorem modPc_sensors (n : Nat) (f : FarPc → FarPc) : (modPc s n f).sensors = s.sensors := rfl
@[simp] theorem modPc_power (n : Nat) (f : FarPc → FarPc) : (modPc s n f).power = s.power := rfl
@[simp] theorem modPc_thermal (n : Nat) (f : FarPc → FarPc) : (modPc s n f).thermal = s.thermal := rfl
@[simp] theorem modPc_errors (n : Nat) (f : FarPc → FarPc) : (modPc s n f).errors = s.errors := rfl
@[simp] theorem modPc_capacity (n : Nat) (f : FarPc → FarPc) : (modPc s n f).capacity = s.capacity := rfl
@[simp] theorem modPc_counters (n : Nat) (f : FarPc → FarPc) : (modPc s n f).counters = s.counters := rfl
@[simp] theorem modPc_mailboxes (n : Nat) (f : FarPc → FarPc) : (modPc s n f).mailboxes = s.mailboxes := rfl
@[simp] theorem modPc_rescueOrder (n : Nat) (f : FarPc → FarPc) : (modPc s n f).rescueOrder = s.rescueOrder := rfl
@[simp] theorem modPc_i3c (n : Nat) (f : FarPc → FarPc) : (modPc s n f).i3c = s.i3c := rfl
@[simp] theorem modPc_flash (n : Nat) (f : FarPc → FarPc) : (modPc s n f).flash = s.flash := rfl
@[simp] theorem modPc_boot (n : Nat) (f : FarPc → FarPc) : (modPc s n f).boot = s.boot := rfl
@[simp] theorem modPc_resets (n : Nat) (f : FarPc → FarPc) : (modPc s n f).resets = s.resets := rfl
@[simp] theorem modPc_weft (n : Nat) (f : FarPc → FarPc) : (modPc s n f).weft = s.weft := rfl

/-! ### modStack -/

@[simp] theorem modStack_pending (n : Nat) (f : Stack → Stack) : (modStack s n f).pending = s.pending := rfl
@[simp] theorem modStack_free (n : Nat) (f : Stack → Stack) : (modStack s n f).free = s.free := rfl
@[simp] theorem modStack_pins (n : Nat) (f : Stack → Stack) : (modStack s n f).pins = s.pins := rfl
@[simp] theorem modStack_pcie (n : Nat) (f : Stack → Stack) : (modStack s n f).pcie = s.pcie := rfl
@[simp] theorem modStack_sqs (n : Nat) (f : Stack → Stack) : (modStack s n f).sqs = s.sqs := rfl
@[simp] theorem modStack_cqs (n : Nat) (f : Stack → Stack) : (modStack s n f).cqs = s.cqs := rfl
@[simp] theorem modStack_packets (n : Nat) (f : Stack → Stack) : (modStack s n f).packets = s.packets := rfl
@[simp] theorem modStack_nextPacket (n : Nat) (f : Stack → Stack) : (modStack s n f).nextPacket = s.nextPacket := rfl
@[simp] theorem modStack_mem (n : Nat) (f : Stack → Stack) : (modStack s n f).mem = s.mem := rfl
@[simp] theorem modStack_delivered (n : Nat) (f : Stack → Stack) : (modStack s n f).delivered = s.delivered := rfl
@[simp] theorem modStack_knots (n : Nat) (f : Stack → Stack) : (modStack s n f).knots = s.knots := rfl
@[simp] theorem modStack_waiters (n : Nat) (f : Stack → Stack) : (modStack s n f).waiters = s.waiters := rfl
@[simp] theorem modStack_refusedWaits (n : Nat) (f : Stack → Stack) : (modStack s n f).refusedWaits = s.refusedWaits := rfl
@[simp] theorem modStack_wakes (n : Nat) (f : Stack → Stack) : (modStack s n f).wakes = s.wakes := rfl
@[simp] theorem modStack_throttled (n : Nat) (f : Stack → Stack) : (modStack s n f).throttled = s.throttled := rfl
@[simp] theorem modStack_colls (n : Nat) (f : Stack → Stack) : (modStack s n f).colls = s.colls := rfl
@[simp] theorem modStack_chk (n : Nat) (f : Stack → Stack) : (modStack s n f).chk = s.chk := rfl
@[simp] theorem modStack_wbPoisonReads (n : Nat) (f : Stack → Stack) : (modStack s n f).wbPoisonReads = s.wbPoisonReads := rfl
@[simp] theorem modStack_wbWeights (n : Nat) (f : Stack → Stack) : (modStack s n f).wbWeights = s.wbWeights := rfl
@[simp] theorem modStack_staging (n : Nat) (f : Stack → Stack) : (modStack s n f).staging = s.staging := rfl
@[simp] theorem modStack_cores (n : Nat) (f : Stack → Stack) : (modStack s n f).cores = s.cores := rfl
@[simp] theorem modStack_chans (n : Nat) (f : Stack → Stack) : (modStack s n f).chans = s.chans := rfl
@[simp] theorem modStack_layers (n : Nat) (f : Stack → Stack) : (modStack s n f).layers = s.layers := rfl
@[simp] theorem modStack_regions (n : Nat) (f : Stack → Stack) : (modStack s n f).regions = s.regions := rfl
@[simp] theorem modStack_pcs (n : Nat) (f : Stack → Stack) : (modStack s n f).pcs = s.pcs := rfl
@[simp] theorem modStack_dies (n : Nat) (f : Stack → Stack) : (modStack s n f).dies = s.dies := rfl
@[simp] theorem modStack_ports (n : Nat) (f : Stack → Stack) : (modStack s n f).ports = s.ports := rfl
@[simp] theorem modStack_slots (n : Nat) (f : Stack → Stack) : (modStack s n f).slots = s.slots := rfl
@[simp] theorem modStack_seqs (n : Nat) (f : Stack → Stack) : (modStack s n f).seqs = s.seqs := rfl
@[simp] theorem modStack_ptes (n : Nat) (f : Stack → Stack) : (modStack s n f).ptes = s.ptes := rfl
@[simp] theorem modStack_dirs (n : Nat) (f : Stack → Stack) : (modStack s n f).dirs = s.dirs := rfl
@[simp] theorem modStack_leaves (n : Nat) (f : Stack → Stack) : (modStack s n f).leaves = s.leaves := rfl
@[simp] theorem modStack_frames (n : Nat) (f : Stack → Stack) : (modStack s n f).frames = s.frames := rfl
@[simp] theorem modStack_batches (n : Nat) (f : Stack → Stack) : (modStack s n f).batches = s.batches := rfl
@[simp] theorem modStack_nextSerial (n : Nat) (f : Stack → Stack) : (modStack s n f).nextSerial = s.nextSerial := rfl
@[simp] theorem modStack_nextOrder (n : Nat) (f : Stack → Stack) : (modStack s n f).nextOrder = s.nextOrder := rfl
@[simp] theorem modStack_sensors (n : Nat) (f : Stack → Stack) : (modStack s n f).sensors = s.sensors := rfl
@[simp] theorem modStack_power (n : Nat) (f : Stack → Stack) : (modStack s n f).power = s.power := rfl
@[simp] theorem modStack_thermal (n : Nat) (f : Stack → Stack) : (modStack s n f).thermal = s.thermal := rfl
@[simp] theorem modStack_errors (n : Nat) (f : Stack → Stack) : (modStack s n f).errors = s.errors := rfl
@[simp] theorem modStack_capacity (n : Nat) (f : Stack → Stack) : (modStack s n f).capacity = s.capacity := rfl
@[simp] theorem modStack_counters (n : Nat) (f : Stack → Stack) : (modStack s n f).counters = s.counters := rfl
@[simp] theorem modStack_mailboxes (n : Nat) (f : Stack → Stack) : (modStack s n f).mailboxes = s.mailboxes := rfl
@[simp] theorem modStack_rescueOrder (n : Nat) (f : Stack → Stack) : (modStack s n f).rescueOrder = s.rescueOrder := rfl
@[simp] theorem modStack_i3c (n : Nat) (f : Stack → Stack) : (modStack s n f).i3c = s.i3c := rfl
@[simp] theorem modStack_flash (n : Nat) (f : Stack → Stack) : (modStack s n f).flash = s.flash := rfl
@[simp] theorem modStack_boot (n : Nat) (f : Stack → Stack) : (modStack s n f).boot = s.boot := rfl
@[simp] theorem modStack_resets (n : Nat) (f : Stack → Stack) : (modStack s n f).resets = s.resets := rfl
@[simp] theorem modStack_weft (n : Nat) (f : Stack → Stack) : (modStack s n f).weft = s.weft := rfl

/-! ### modDie -/

@[simp] theorem modDie_pending (d : Nat) (f : Die → Die) : (modDie s d f).pending = s.pending := rfl
@[simp] theorem modDie_free (d : Nat) (f : Die → Die) : (modDie s d f).free = s.free := rfl
@[simp] theorem modDie_pins (d : Nat) (f : Die → Die) : (modDie s d f).pins = s.pins := rfl
@[simp] theorem modDie_pcie (d : Nat) (f : Die → Die) : (modDie s d f).pcie = s.pcie := rfl
@[simp] theorem modDie_sqs (d : Nat) (f : Die → Die) : (modDie s d f).sqs = s.sqs := rfl
@[simp] theorem modDie_cqs (d : Nat) (f : Die → Die) : (modDie s d f).cqs = s.cqs := rfl
@[simp] theorem modDie_packets (d : Nat) (f : Die → Die) : (modDie s d f).packets = s.packets := rfl
@[simp] theorem modDie_nextPacket (d : Nat) (f : Die → Die) : (modDie s d f).nextPacket = s.nextPacket := rfl
@[simp] theorem modDie_mem (d : Nat) (f : Die → Die) : (modDie s d f).mem = s.mem := rfl
@[simp] theorem modDie_delivered (d : Nat) (f : Die → Die) : (modDie s d f).delivered = s.delivered := rfl
@[simp] theorem modDie_knots (d : Nat) (f : Die → Die) : (modDie s d f).knots = s.knots := rfl
@[simp] theorem modDie_waiters (d : Nat) (f : Die → Die) : (modDie s d f).waiters = s.waiters := rfl
@[simp] theorem modDie_refusedWaits (d : Nat) (f : Die → Die) : (modDie s d f).refusedWaits = s.refusedWaits := rfl
@[simp] theorem modDie_wakes (d : Nat) (f : Die → Die) : (modDie s d f).wakes = s.wakes := rfl
@[simp] theorem modDie_throttled (d : Nat) (f : Die → Die) : (modDie s d f).throttled = s.throttled := rfl
@[simp] theorem modDie_colls (d : Nat) (f : Die → Die) : (modDie s d f).colls = s.colls := rfl
@[simp] theorem modDie_chk (d : Nat) (f : Die → Die) : (modDie s d f).chk = s.chk := rfl
@[simp] theorem modDie_wbPoisonReads (d : Nat) (f : Die → Die) : (modDie s d f).wbPoisonReads = s.wbPoisonReads := rfl
@[simp] theorem modDie_wbWeights (d : Nat) (f : Die → Die) : (modDie s d f).wbWeights = s.wbWeights := rfl
@[simp] theorem modDie_staging (d : Nat) (f : Die → Die) : (modDie s d f).staging = s.staging := rfl
@[simp] theorem modDie_cores (d : Nat) (f : Die → Die) : (modDie s d f).cores = s.cores := rfl
@[simp] theorem modDie_chans (d : Nat) (f : Die → Die) : (modDie s d f).chans = s.chans := rfl
@[simp] theorem modDie_layers (d : Nat) (f : Die → Die) : (modDie s d f).layers = s.layers := rfl
@[simp] theorem modDie_regions (d : Nat) (f : Die → Die) : (modDie s d f).regions = s.regions := rfl
@[simp] theorem modDie_pcs (d : Nat) (f : Die → Die) : (modDie s d f).pcs = s.pcs := rfl
@[simp] theorem modDie_hbmStacks (d : Nat) (f : Die → Die) : (modDie s d f).hbmStacks = s.hbmStacks := rfl
@[simp] theorem modDie_ports (d : Nat) (f : Die → Die) : (modDie s d f).ports = s.ports := rfl
@[simp] theorem modDie_slots (d : Nat) (f : Die → Die) : (modDie s d f).slots = s.slots := rfl
@[simp] theorem modDie_seqs (d : Nat) (f : Die → Die) : (modDie s d f).seqs = s.seqs := rfl
@[simp] theorem modDie_ptes (d : Nat) (f : Die → Die) : (modDie s d f).ptes = s.ptes := rfl
@[simp] theorem modDie_dirs (d : Nat) (f : Die → Die) : (modDie s d f).dirs = s.dirs := rfl
@[simp] theorem modDie_leaves (d : Nat) (f : Die → Die) : (modDie s d f).leaves = s.leaves := rfl
@[simp] theorem modDie_frames (d : Nat) (f : Die → Die) : (modDie s d f).frames = s.frames := rfl
@[simp] theorem modDie_batches (d : Nat) (f : Die → Die) : (modDie s d f).batches = s.batches := rfl
@[simp] theorem modDie_nextSerial (d : Nat) (f : Die → Die) : (modDie s d f).nextSerial = s.nextSerial := rfl
@[simp] theorem modDie_nextOrder (d : Nat) (f : Die → Die) : (modDie s d f).nextOrder = s.nextOrder := rfl
@[simp] theorem modDie_sensors (d : Nat) (f : Die → Die) : (modDie s d f).sensors = s.sensors := rfl
@[simp] theorem modDie_power (d : Nat) (f : Die → Die) : (modDie s d f).power = s.power := rfl
@[simp] theorem modDie_thermal (d : Nat) (f : Die → Die) : (modDie s d f).thermal = s.thermal := rfl
@[simp] theorem modDie_errors (d : Nat) (f : Die → Die) : (modDie s d f).errors = s.errors := rfl
@[simp] theorem modDie_capacity (d : Nat) (f : Die → Die) : (modDie s d f).capacity = s.capacity := rfl
@[simp] theorem modDie_counters (d : Nat) (f : Die → Die) : (modDie s d f).counters = s.counters := rfl
@[simp] theorem modDie_mailboxes (d : Nat) (f : Die → Die) : (modDie s d f).mailboxes = s.mailboxes := rfl
@[simp] theorem modDie_rescueOrder (d : Nat) (f : Die → Die) : (modDie s d f).rescueOrder = s.rescueOrder := rfl
@[simp] theorem modDie_i3c (d : Nat) (f : Die → Die) : (modDie s d f).i3c = s.i3c := rfl
@[simp] theorem modDie_flash (d : Nat) (f : Die → Die) : (modDie s d f).flash = s.flash := rfl
@[simp] theorem modDie_boot (d : Nat) (f : Die → Die) : (modDie s d f).boot = s.boot := rfl
@[simp] theorem modDie_resets (d : Nat) (f : Die → Die) : (modDie s d f).resets = s.resets := rfl
@[simp] theorem modDie_weft (d : Nat) (f : Die → Die) : (modDie s d f).weft = s.weft := rfl

/-! ### modPort -/

@[simp] theorem modPort_pending (p : Nat) (f : EwPort → EwPort) : (modPort s p f).pending = s.pending := rfl
@[simp] theorem modPort_free (p : Nat) (f : EwPort → EwPort) : (modPort s p f).free = s.free := rfl
@[simp] theorem modPort_pins (p : Nat) (f : EwPort → EwPort) : (modPort s p f).pins = s.pins := rfl
@[simp] theorem modPort_pcie (p : Nat) (f : EwPort → EwPort) : (modPort s p f).pcie = s.pcie := rfl
@[simp] theorem modPort_sqs (p : Nat) (f : EwPort → EwPort) : (modPort s p f).sqs = s.sqs := rfl
@[simp] theorem modPort_cqs (p : Nat) (f : EwPort → EwPort) : (modPort s p f).cqs = s.cqs := rfl
@[simp] theorem modPort_packets (p : Nat) (f : EwPort → EwPort) : (modPort s p f).packets = s.packets := rfl
@[simp] theorem modPort_nextPacket (p : Nat) (f : EwPort → EwPort) : (modPort s p f).nextPacket = s.nextPacket := rfl
@[simp] theorem modPort_mem (p : Nat) (f : EwPort → EwPort) : (modPort s p f).mem = s.mem := rfl
@[simp] theorem modPort_delivered (p : Nat) (f : EwPort → EwPort) : (modPort s p f).delivered = s.delivered := rfl
@[simp] theorem modPort_knots (p : Nat) (f : EwPort → EwPort) : (modPort s p f).knots = s.knots := rfl
@[simp] theorem modPort_waiters (p : Nat) (f : EwPort → EwPort) : (modPort s p f).waiters = s.waiters := rfl
@[simp] theorem modPort_refusedWaits (p : Nat) (f : EwPort → EwPort) : (modPort s p f).refusedWaits = s.refusedWaits := rfl
@[simp] theorem modPort_wakes (p : Nat) (f : EwPort → EwPort) : (modPort s p f).wakes = s.wakes := rfl
@[simp] theorem modPort_throttled (p : Nat) (f : EwPort → EwPort) : (modPort s p f).throttled = s.throttled := rfl
@[simp] theorem modPort_colls (p : Nat) (f : EwPort → EwPort) : (modPort s p f).colls = s.colls := rfl
@[simp] theorem modPort_chk (p : Nat) (f : EwPort → EwPort) : (modPort s p f).chk = s.chk := rfl
@[simp] theorem modPort_wbPoisonReads (p : Nat) (f : EwPort → EwPort) : (modPort s p f).wbPoisonReads = s.wbPoisonReads := rfl
@[simp] theorem modPort_wbWeights (p : Nat) (f : EwPort → EwPort) : (modPort s p f).wbWeights = s.wbWeights := rfl
@[simp] theorem modPort_staging (p : Nat) (f : EwPort → EwPort) : (modPort s p f).staging = s.staging := rfl
@[simp] theorem modPort_cores (p : Nat) (f : EwPort → EwPort) : (modPort s p f).cores = s.cores := rfl
@[simp] theorem modPort_chans (p : Nat) (f : EwPort → EwPort) : (modPort s p f).chans = s.chans := rfl
@[simp] theorem modPort_layers (p : Nat) (f : EwPort → EwPort) : (modPort s p f).layers = s.layers := rfl
@[simp] theorem modPort_regions (p : Nat) (f : EwPort → EwPort) : (modPort s p f).regions = s.regions := rfl
@[simp] theorem modPort_pcs (p : Nat) (f : EwPort → EwPort) : (modPort s p f).pcs = s.pcs := rfl
@[simp] theorem modPort_hbmStacks (p : Nat) (f : EwPort → EwPort) : (modPort s p f).hbmStacks = s.hbmStacks := rfl
@[simp] theorem modPort_dies (p : Nat) (f : EwPort → EwPort) : (modPort s p f).dies = s.dies := rfl
@[simp] theorem modPort_slots (p : Nat) (f : EwPort → EwPort) : (modPort s p f).slots = s.slots := rfl
@[simp] theorem modPort_seqs (p : Nat) (f : EwPort → EwPort) : (modPort s p f).seqs = s.seqs := rfl
@[simp] theorem modPort_ptes (p : Nat) (f : EwPort → EwPort) : (modPort s p f).ptes = s.ptes := rfl
@[simp] theorem modPort_dirs (p : Nat) (f : EwPort → EwPort) : (modPort s p f).dirs = s.dirs := rfl
@[simp] theorem modPort_leaves (p : Nat) (f : EwPort → EwPort) : (modPort s p f).leaves = s.leaves := rfl
@[simp] theorem modPort_frames (p : Nat) (f : EwPort → EwPort) : (modPort s p f).frames = s.frames := rfl
@[simp] theorem modPort_batches (p : Nat) (f : EwPort → EwPort) : (modPort s p f).batches = s.batches := rfl
@[simp] theorem modPort_nextSerial (p : Nat) (f : EwPort → EwPort) : (modPort s p f).nextSerial = s.nextSerial := rfl
@[simp] theorem modPort_nextOrder (p : Nat) (f : EwPort → EwPort) : (modPort s p f).nextOrder = s.nextOrder := rfl
@[simp] theorem modPort_sensors (p : Nat) (f : EwPort → EwPort) : (modPort s p f).sensors = s.sensors := rfl
@[simp] theorem modPort_power (p : Nat) (f : EwPort → EwPort) : (modPort s p f).power = s.power := rfl
@[simp] theorem modPort_thermal (p : Nat) (f : EwPort → EwPort) : (modPort s p f).thermal = s.thermal := rfl
@[simp] theorem modPort_errors (p : Nat) (f : EwPort → EwPort) : (modPort s p f).errors = s.errors := rfl
@[simp] theorem modPort_capacity (p : Nat) (f : EwPort → EwPort) : (modPort s p f).capacity = s.capacity := rfl
@[simp] theorem modPort_counters (p : Nat) (f : EwPort → EwPort) : (modPort s p f).counters = s.counters := rfl
@[simp] theorem modPort_mailboxes (p : Nat) (f : EwPort → EwPort) : (modPort s p f).mailboxes = s.mailboxes := rfl
@[simp] theorem modPort_rescueOrder (p : Nat) (f : EwPort → EwPort) : (modPort s p f).rescueOrder = s.rescueOrder := rfl
@[simp] theorem modPort_i3c (p : Nat) (f : EwPort → EwPort) : (modPort s p f).i3c = s.i3c := rfl
@[simp] theorem modPort_flash (p : Nat) (f : EwPort → EwPort) : (modPort s p f).flash = s.flash := rfl
@[simp] theorem modPort_boot (p : Nat) (f : EwPort → EwPort) : (modPort s p f).boot = s.boot := rfl
@[simp] theorem modPort_resets (p : Nat) (f : EwPort → EwPort) : (modPort s p f).resets = s.resets := rfl
@[simp] theorem modPort_weft (p : Nat) (f : EwPort → EwPort) : (modPort s p f).weft = s.weft := rfl

/-! ### modSlot -/

@[simp] theorem modSlot_pending (n : Nat) (f : ModelSlot → ModelSlot) : (modSlot s n f).pending = s.pending := rfl
@[simp] theorem modSlot_free (n : Nat) (f : ModelSlot → ModelSlot) : (modSlot s n f).free = s.free := rfl
@[simp] theorem modSlot_pins (n : Nat) (f : ModelSlot → ModelSlot) : (modSlot s n f).pins = s.pins := rfl
@[simp] theorem modSlot_pcie (n : Nat) (f : ModelSlot → ModelSlot) : (modSlot s n f).pcie = s.pcie := rfl
@[simp] theorem modSlot_sqs (n : Nat) (f : ModelSlot → ModelSlot) : (modSlot s n f).sqs = s.sqs := rfl
@[simp] theorem modSlot_cqs (n : Nat) (f : ModelSlot → ModelSlot) : (modSlot s n f).cqs = s.cqs := rfl
@[simp] theorem modSlot_packets (n : Nat) (f : ModelSlot → ModelSlot) : (modSlot s n f).packets = s.packets := rfl
@[simp] theorem modSlot_nextPacket (n : Nat) (f : ModelSlot → ModelSlot) : (modSlot s n f).nextPacket = s.nextPacket := rfl
@[simp] theorem modSlot_mem (n : Nat) (f : ModelSlot → ModelSlot) : (modSlot s n f).mem = s.mem := rfl
@[simp] theorem modSlot_delivered (n : Nat) (f : ModelSlot → ModelSlot) : (modSlot s n f).delivered = s.delivered := rfl
@[simp] theorem modSlot_knots (n : Nat) (f : ModelSlot → ModelSlot) : (modSlot s n f).knots = s.knots := rfl
@[simp] theorem modSlot_waiters (n : Nat) (f : ModelSlot → ModelSlot) : (modSlot s n f).waiters = s.waiters := rfl
@[simp] theorem modSlot_refusedWaits (n : Nat) (f : ModelSlot → ModelSlot) : (modSlot s n f).refusedWaits = s.refusedWaits := rfl
@[simp] theorem modSlot_wakes (n : Nat) (f : ModelSlot → ModelSlot) : (modSlot s n f).wakes = s.wakes := rfl
@[simp] theorem modSlot_throttled (n : Nat) (f : ModelSlot → ModelSlot) : (modSlot s n f).throttled = s.throttled := rfl
@[simp] theorem modSlot_colls (n : Nat) (f : ModelSlot → ModelSlot) : (modSlot s n f).colls = s.colls := rfl
@[simp] theorem modSlot_chk (n : Nat) (f : ModelSlot → ModelSlot) : (modSlot s n f).chk = s.chk := rfl
@[simp] theorem modSlot_wbPoisonReads (n : Nat) (f : ModelSlot → ModelSlot) : (modSlot s n f).wbPoisonReads = s.wbPoisonReads := rfl
@[simp] theorem modSlot_wbWeights (n : Nat) (f : ModelSlot → ModelSlot) : (modSlot s n f).wbWeights = s.wbWeights := rfl
@[simp] theorem modSlot_staging (n : Nat) (f : ModelSlot → ModelSlot) : (modSlot s n f).staging = s.staging := rfl
@[simp] theorem modSlot_cores (n : Nat) (f : ModelSlot → ModelSlot) : (modSlot s n f).cores = s.cores := rfl
@[simp] theorem modSlot_chans (n : Nat) (f : ModelSlot → ModelSlot) : (modSlot s n f).chans = s.chans := rfl
@[simp] theorem modSlot_layers (n : Nat) (f : ModelSlot → ModelSlot) : (modSlot s n f).layers = s.layers := rfl
@[simp] theorem modSlot_regions (n : Nat) (f : ModelSlot → ModelSlot) : (modSlot s n f).regions = s.regions := rfl
@[simp] theorem modSlot_pcs (n : Nat) (f : ModelSlot → ModelSlot) : (modSlot s n f).pcs = s.pcs := rfl
@[simp] theorem modSlot_hbmStacks (n : Nat) (f : ModelSlot → ModelSlot) : (modSlot s n f).hbmStacks = s.hbmStacks := rfl
@[simp] theorem modSlot_dies (n : Nat) (f : ModelSlot → ModelSlot) : (modSlot s n f).dies = s.dies := rfl
@[simp] theorem modSlot_ports (n : Nat) (f : ModelSlot → ModelSlot) : (modSlot s n f).ports = s.ports := rfl
@[simp] theorem modSlot_seqs (n : Nat) (f : ModelSlot → ModelSlot) : (modSlot s n f).seqs = s.seqs := rfl
@[simp] theorem modSlot_ptes (n : Nat) (f : ModelSlot → ModelSlot) : (modSlot s n f).ptes = s.ptes := rfl
@[simp] theorem modSlot_dirs (n : Nat) (f : ModelSlot → ModelSlot) : (modSlot s n f).dirs = s.dirs := rfl
@[simp] theorem modSlot_leaves (n : Nat) (f : ModelSlot → ModelSlot) : (modSlot s n f).leaves = s.leaves := rfl
@[simp] theorem modSlot_frames (n : Nat) (f : ModelSlot → ModelSlot) : (modSlot s n f).frames = s.frames := rfl
@[simp] theorem modSlot_batches (n : Nat) (f : ModelSlot → ModelSlot) : (modSlot s n f).batches = s.batches := rfl
@[simp] theorem modSlot_nextSerial (n : Nat) (f : ModelSlot → ModelSlot) : (modSlot s n f).nextSerial = s.nextSerial := rfl
@[simp] theorem modSlot_nextOrder (n : Nat) (f : ModelSlot → ModelSlot) : (modSlot s n f).nextOrder = s.nextOrder := rfl
@[simp] theorem modSlot_sensors (n : Nat) (f : ModelSlot → ModelSlot) : (modSlot s n f).sensors = s.sensors := rfl
@[simp] theorem modSlot_power (n : Nat) (f : ModelSlot → ModelSlot) : (modSlot s n f).power = s.power := rfl
@[simp] theorem modSlot_thermal (n : Nat) (f : ModelSlot → ModelSlot) : (modSlot s n f).thermal = s.thermal := rfl
@[simp] theorem modSlot_errors (n : Nat) (f : ModelSlot → ModelSlot) : (modSlot s n f).errors = s.errors := rfl
@[simp] theorem modSlot_capacity (n : Nat) (f : ModelSlot → ModelSlot) : (modSlot s n f).capacity = s.capacity := rfl
@[simp] theorem modSlot_counters (n : Nat) (f : ModelSlot → ModelSlot) : (modSlot s n f).counters = s.counters := rfl
@[simp] theorem modSlot_mailboxes (n : Nat) (f : ModelSlot → ModelSlot) : (modSlot s n f).mailboxes = s.mailboxes := rfl
@[simp] theorem modSlot_rescueOrder (n : Nat) (f : ModelSlot → ModelSlot) : (modSlot s n f).rescueOrder = s.rescueOrder := rfl
@[simp] theorem modSlot_i3c (n : Nat) (f : ModelSlot → ModelSlot) : (modSlot s n f).i3c = s.i3c := rfl
@[simp] theorem modSlot_flash (n : Nat) (f : ModelSlot → ModelSlot) : (modSlot s n f).flash = s.flash := rfl
@[simp] theorem modSlot_boot (n : Nat) (f : ModelSlot → ModelSlot) : (modSlot s n f).boot = s.boot := rfl
@[simp] theorem modSlot_resets (n : Nat) (f : ModelSlot → ModelSlot) : (modSlot s n f).resets = s.resets := rfl
@[simp] theorem modSlot_weft (n : Nat) (f : ModelSlot → ModelSlot) : (modSlot s n f).weft = s.weft := rfl

/-! ### modSeq -/

@[simp] theorem modSeq_pending (n : Nat) (f : Seq → Seq) : (modSeq s n f).pending = s.pending := rfl
@[simp] theorem modSeq_free (n : Nat) (f : Seq → Seq) : (modSeq s n f).free = s.free := rfl
@[simp] theorem modSeq_pins (n : Nat) (f : Seq → Seq) : (modSeq s n f).pins = s.pins := rfl
@[simp] theorem modSeq_pcie (n : Nat) (f : Seq → Seq) : (modSeq s n f).pcie = s.pcie := rfl
@[simp] theorem modSeq_sqs (n : Nat) (f : Seq → Seq) : (modSeq s n f).sqs = s.sqs := rfl
@[simp] theorem modSeq_cqs (n : Nat) (f : Seq → Seq) : (modSeq s n f).cqs = s.cqs := rfl
@[simp] theorem modSeq_packets (n : Nat) (f : Seq → Seq) : (modSeq s n f).packets = s.packets := rfl
@[simp] theorem modSeq_nextPacket (n : Nat) (f : Seq → Seq) : (modSeq s n f).nextPacket = s.nextPacket := rfl
@[simp] theorem modSeq_mem (n : Nat) (f : Seq → Seq) : (modSeq s n f).mem = s.mem := rfl
@[simp] theorem modSeq_delivered (n : Nat) (f : Seq → Seq) : (modSeq s n f).delivered = s.delivered := rfl
@[simp] theorem modSeq_knots (n : Nat) (f : Seq → Seq) : (modSeq s n f).knots = s.knots := rfl
@[simp] theorem modSeq_waiters (n : Nat) (f : Seq → Seq) : (modSeq s n f).waiters = s.waiters := rfl
@[simp] theorem modSeq_refusedWaits (n : Nat) (f : Seq → Seq) : (modSeq s n f).refusedWaits = s.refusedWaits := rfl
@[simp] theorem modSeq_wakes (n : Nat) (f : Seq → Seq) : (modSeq s n f).wakes = s.wakes := rfl
@[simp] theorem modSeq_throttled (n : Nat) (f : Seq → Seq) : (modSeq s n f).throttled = s.throttled := rfl
@[simp] theorem modSeq_colls (n : Nat) (f : Seq → Seq) : (modSeq s n f).colls = s.colls := rfl
@[simp] theorem modSeq_chk (n : Nat) (f : Seq → Seq) : (modSeq s n f).chk = s.chk := rfl
@[simp] theorem modSeq_wbPoisonReads (n : Nat) (f : Seq → Seq) : (modSeq s n f).wbPoisonReads = s.wbPoisonReads := rfl
@[simp] theorem modSeq_wbWeights (n : Nat) (f : Seq → Seq) : (modSeq s n f).wbWeights = s.wbWeights := rfl
@[simp] theorem modSeq_staging (n : Nat) (f : Seq → Seq) : (modSeq s n f).staging = s.staging := rfl
@[simp] theorem modSeq_cores (n : Nat) (f : Seq → Seq) : (modSeq s n f).cores = s.cores := rfl
@[simp] theorem modSeq_chans (n : Nat) (f : Seq → Seq) : (modSeq s n f).chans = s.chans := rfl
@[simp] theorem modSeq_layers (n : Nat) (f : Seq → Seq) : (modSeq s n f).layers = s.layers := rfl
@[simp] theorem modSeq_regions (n : Nat) (f : Seq → Seq) : (modSeq s n f).regions = s.regions := rfl
@[simp] theorem modSeq_pcs (n : Nat) (f : Seq → Seq) : (modSeq s n f).pcs = s.pcs := rfl
@[simp] theorem modSeq_hbmStacks (n : Nat) (f : Seq → Seq) : (modSeq s n f).hbmStacks = s.hbmStacks := rfl
@[simp] theorem modSeq_dies (n : Nat) (f : Seq → Seq) : (modSeq s n f).dies = s.dies := rfl
@[simp] theorem modSeq_ports (n : Nat) (f : Seq → Seq) : (modSeq s n f).ports = s.ports := rfl
@[simp] theorem modSeq_slots (n : Nat) (f : Seq → Seq) : (modSeq s n f).slots = s.slots := rfl
@[simp] theorem modSeq_ptes (n : Nat) (f : Seq → Seq) : (modSeq s n f).ptes = s.ptes := rfl
@[simp] theorem modSeq_dirs (n : Nat) (f : Seq → Seq) : (modSeq s n f).dirs = s.dirs := rfl
@[simp] theorem modSeq_leaves (n : Nat) (f : Seq → Seq) : (modSeq s n f).leaves = s.leaves := rfl
@[simp] theorem modSeq_frames (n : Nat) (f : Seq → Seq) : (modSeq s n f).frames = s.frames := rfl
@[simp] theorem modSeq_batches (n : Nat) (f : Seq → Seq) : (modSeq s n f).batches = s.batches := rfl
@[simp] theorem modSeq_nextSerial (n : Nat) (f : Seq → Seq) : (modSeq s n f).nextSerial = s.nextSerial := rfl
@[simp] theorem modSeq_nextOrder (n : Nat) (f : Seq → Seq) : (modSeq s n f).nextOrder = s.nextOrder := rfl
@[simp] theorem modSeq_sensors (n : Nat) (f : Seq → Seq) : (modSeq s n f).sensors = s.sensors := rfl
@[simp] theorem modSeq_power (n : Nat) (f : Seq → Seq) : (modSeq s n f).power = s.power := rfl
@[simp] theorem modSeq_thermal (n : Nat) (f : Seq → Seq) : (modSeq s n f).thermal = s.thermal := rfl
@[simp] theorem modSeq_errors (n : Nat) (f : Seq → Seq) : (modSeq s n f).errors = s.errors := rfl
@[simp] theorem modSeq_capacity (n : Nat) (f : Seq → Seq) : (modSeq s n f).capacity = s.capacity := rfl
@[simp] theorem modSeq_counters (n : Nat) (f : Seq → Seq) : (modSeq s n f).counters = s.counters := rfl
@[simp] theorem modSeq_mailboxes (n : Nat) (f : Seq → Seq) : (modSeq s n f).mailboxes = s.mailboxes := rfl
@[simp] theorem modSeq_rescueOrder (n : Nat) (f : Seq → Seq) : (modSeq s n f).rescueOrder = s.rescueOrder := rfl
@[simp] theorem modSeq_i3c (n : Nat) (f : Seq → Seq) : (modSeq s n f).i3c = s.i3c := rfl
@[simp] theorem modSeq_flash (n : Nat) (f : Seq → Seq) : (modSeq s n f).flash = s.flash := rfl
@[simp] theorem modSeq_boot (n : Nat) (f : Seq → Seq) : (modSeq s n f).boot = s.boot := rfl
@[simp] theorem modSeq_resets (n : Nat) (f : Seq → Seq) : (modSeq s n f).resets = s.resets := rfl
@[simp] theorem modSeq_weft (n : Nat) (f : Seq → Seq) : (modSeq s n f).weft = s.weft := rfl

/-! ### modSq -/

@[simp] theorem modSq_pending (q : Nat) (f : Sq → Sq) : (modSq s q f).pending = s.pending := rfl
@[simp] theorem modSq_free (q : Nat) (f : Sq → Sq) : (modSq s q f).free = s.free := rfl
@[simp] theorem modSq_pins (q : Nat) (f : Sq → Sq) : (modSq s q f).pins = s.pins := rfl
@[simp] theorem modSq_pcie (q : Nat) (f : Sq → Sq) : (modSq s q f).pcie = s.pcie := rfl
@[simp] theorem modSq_cqs (q : Nat) (f : Sq → Sq) : (modSq s q f).cqs = s.cqs := rfl
@[simp] theorem modSq_packets (q : Nat) (f : Sq → Sq) : (modSq s q f).packets = s.packets := rfl
@[simp] theorem modSq_nextPacket (q : Nat) (f : Sq → Sq) : (modSq s q f).nextPacket = s.nextPacket := rfl
@[simp] theorem modSq_mem (q : Nat) (f : Sq → Sq) : (modSq s q f).mem = s.mem := rfl
@[simp] theorem modSq_delivered (q : Nat) (f : Sq → Sq) : (modSq s q f).delivered = s.delivered := rfl
@[simp] theorem modSq_knots (q : Nat) (f : Sq → Sq) : (modSq s q f).knots = s.knots := rfl
@[simp] theorem modSq_waiters (q : Nat) (f : Sq → Sq) : (modSq s q f).waiters = s.waiters := rfl
@[simp] theorem modSq_refusedWaits (q : Nat) (f : Sq → Sq) : (modSq s q f).refusedWaits = s.refusedWaits := rfl
@[simp] theorem modSq_wakes (q : Nat) (f : Sq → Sq) : (modSq s q f).wakes = s.wakes := rfl
@[simp] theorem modSq_throttled (q : Nat) (f : Sq → Sq) : (modSq s q f).throttled = s.throttled := rfl
@[simp] theorem modSq_colls (q : Nat) (f : Sq → Sq) : (modSq s q f).colls = s.colls := rfl
@[simp] theorem modSq_chk (q : Nat) (f : Sq → Sq) : (modSq s q f).chk = s.chk := rfl
@[simp] theorem modSq_wbPoisonReads (q : Nat) (f : Sq → Sq) : (modSq s q f).wbPoisonReads = s.wbPoisonReads := rfl
@[simp] theorem modSq_wbWeights (q : Nat) (f : Sq → Sq) : (modSq s q f).wbWeights = s.wbWeights := rfl
@[simp] theorem modSq_staging (q : Nat) (f : Sq → Sq) : (modSq s q f).staging = s.staging := rfl
@[simp] theorem modSq_cores (q : Nat) (f : Sq → Sq) : (modSq s q f).cores = s.cores := rfl
@[simp] theorem modSq_chans (q : Nat) (f : Sq → Sq) : (modSq s q f).chans = s.chans := rfl
@[simp] theorem modSq_layers (q : Nat) (f : Sq → Sq) : (modSq s q f).layers = s.layers := rfl
@[simp] theorem modSq_regions (q : Nat) (f : Sq → Sq) : (modSq s q f).regions = s.regions := rfl
@[simp] theorem modSq_pcs (q : Nat) (f : Sq → Sq) : (modSq s q f).pcs = s.pcs := rfl
@[simp] theorem modSq_hbmStacks (q : Nat) (f : Sq → Sq) : (modSq s q f).hbmStacks = s.hbmStacks := rfl
@[simp] theorem modSq_dies (q : Nat) (f : Sq → Sq) : (modSq s q f).dies = s.dies := rfl
@[simp] theorem modSq_ports (q : Nat) (f : Sq → Sq) : (modSq s q f).ports = s.ports := rfl
@[simp] theorem modSq_slots (q : Nat) (f : Sq → Sq) : (modSq s q f).slots = s.slots := rfl
@[simp] theorem modSq_seqs (q : Nat) (f : Sq → Sq) : (modSq s q f).seqs = s.seqs := rfl
@[simp] theorem modSq_ptes (q : Nat) (f : Sq → Sq) : (modSq s q f).ptes = s.ptes := rfl
@[simp] theorem modSq_dirs (q : Nat) (f : Sq → Sq) : (modSq s q f).dirs = s.dirs := rfl
@[simp] theorem modSq_leaves (q : Nat) (f : Sq → Sq) : (modSq s q f).leaves = s.leaves := rfl
@[simp] theorem modSq_frames (q : Nat) (f : Sq → Sq) : (modSq s q f).frames = s.frames := rfl
@[simp] theorem modSq_batches (q : Nat) (f : Sq → Sq) : (modSq s q f).batches = s.batches := rfl
@[simp] theorem modSq_nextSerial (q : Nat) (f : Sq → Sq) : (modSq s q f).nextSerial = s.nextSerial := rfl
@[simp] theorem modSq_nextOrder (q : Nat) (f : Sq → Sq) : (modSq s q f).nextOrder = s.nextOrder := rfl
@[simp] theorem modSq_sensors (q : Nat) (f : Sq → Sq) : (modSq s q f).sensors = s.sensors := rfl
@[simp] theorem modSq_power (q : Nat) (f : Sq → Sq) : (modSq s q f).power = s.power := rfl
@[simp] theorem modSq_thermal (q : Nat) (f : Sq → Sq) : (modSq s q f).thermal = s.thermal := rfl
@[simp] theorem modSq_errors (q : Nat) (f : Sq → Sq) : (modSq s q f).errors = s.errors := rfl
@[simp] theorem modSq_capacity (q : Nat) (f : Sq → Sq) : (modSq s q f).capacity = s.capacity := rfl
@[simp] theorem modSq_counters (q : Nat) (f : Sq → Sq) : (modSq s q f).counters = s.counters := rfl
@[simp] theorem modSq_mailboxes (q : Nat) (f : Sq → Sq) : (modSq s q f).mailboxes = s.mailboxes := rfl
@[simp] theorem modSq_rescueOrder (q : Nat) (f : Sq → Sq) : (modSq s q f).rescueOrder = s.rescueOrder := rfl
@[simp] theorem modSq_i3c (q : Nat) (f : Sq → Sq) : (modSq s q f).i3c = s.i3c := rfl
@[simp] theorem modSq_flash (q : Nat) (f : Sq → Sq) : (modSq s q f).flash = s.flash := rfl
@[simp] theorem modSq_boot (q : Nat) (f : Sq → Sq) : (modSq s q f).boot = s.boot := rfl
@[simp] theorem modSq_resets (q : Nat) (f : Sq → Sq) : (modSq s q f).resets = s.resets := rfl
@[simp] theorem modSq_weft (q : Nat) (f : Sq → Sq) : (modSq s q f).weft = s.weft := rfl

/-! ### modCq -/

@[simp] theorem modCq_pending (q : Nat) (f : Cq → Cq) : (modCq s q f).pending = s.pending := rfl
@[simp] theorem modCq_free (q : Nat) (f : Cq → Cq) : (modCq s q f).free = s.free := rfl
@[simp] theorem modCq_pins (q : Nat) (f : Cq → Cq) : (modCq s q f).pins = s.pins := rfl
@[simp] theorem modCq_pcie (q : Nat) (f : Cq → Cq) : (modCq s q f).pcie = s.pcie := rfl
@[simp] theorem modCq_sqs (q : Nat) (f : Cq → Cq) : (modCq s q f).sqs = s.sqs := rfl
@[simp] theorem modCq_packets (q : Nat) (f : Cq → Cq) : (modCq s q f).packets = s.packets := rfl
@[simp] theorem modCq_nextPacket (q : Nat) (f : Cq → Cq) : (modCq s q f).nextPacket = s.nextPacket := rfl
@[simp] theorem modCq_mem (q : Nat) (f : Cq → Cq) : (modCq s q f).mem = s.mem := rfl
@[simp] theorem modCq_delivered (q : Nat) (f : Cq → Cq) : (modCq s q f).delivered = s.delivered := rfl
@[simp] theorem modCq_knots (q : Nat) (f : Cq → Cq) : (modCq s q f).knots = s.knots := rfl
@[simp] theorem modCq_waiters (q : Nat) (f : Cq → Cq) : (modCq s q f).waiters = s.waiters := rfl
@[simp] theorem modCq_refusedWaits (q : Nat) (f : Cq → Cq) : (modCq s q f).refusedWaits = s.refusedWaits := rfl
@[simp] theorem modCq_wakes (q : Nat) (f : Cq → Cq) : (modCq s q f).wakes = s.wakes := rfl
@[simp] theorem modCq_throttled (q : Nat) (f : Cq → Cq) : (modCq s q f).throttled = s.throttled := rfl
@[simp] theorem modCq_colls (q : Nat) (f : Cq → Cq) : (modCq s q f).colls = s.colls := rfl
@[simp] theorem modCq_chk (q : Nat) (f : Cq → Cq) : (modCq s q f).chk = s.chk := rfl
@[simp] theorem modCq_wbPoisonReads (q : Nat) (f : Cq → Cq) : (modCq s q f).wbPoisonReads = s.wbPoisonReads := rfl
@[simp] theorem modCq_wbWeights (q : Nat) (f : Cq → Cq) : (modCq s q f).wbWeights = s.wbWeights := rfl
@[simp] theorem modCq_staging (q : Nat) (f : Cq → Cq) : (modCq s q f).staging = s.staging := rfl
@[simp] theorem modCq_cores (q : Nat) (f : Cq → Cq) : (modCq s q f).cores = s.cores := rfl
@[simp] theorem modCq_chans (q : Nat) (f : Cq → Cq) : (modCq s q f).chans = s.chans := rfl
@[simp] theorem modCq_layers (q : Nat) (f : Cq → Cq) : (modCq s q f).layers = s.layers := rfl
@[simp] theorem modCq_regions (q : Nat) (f : Cq → Cq) : (modCq s q f).regions = s.regions := rfl
@[simp] theorem modCq_pcs (q : Nat) (f : Cq → Cq) : (modCq s q f).pcs = s.pcs := rfl
@[simp] theorem modCq_hbmStacks (q : Nat) (f : Cq → Cq) : (modCq s q f).hbmStacks = s.hbmStacks := rfl
@[simp] theorem modCq_dies (q : Nat) (f : Cq → Cq) : (modCq s q f).dies = s.dies := rfl
@[simp] theorem modCq_ports (q : Nat) (f : Cq → Cq) : (modCq s q f).ports = s.ports := rfl
@[simp] theorem modCq_slots (q : Nat) (f : Cq → Cq) : (modCq s q f).slots = s.slots := rfl
@[simp] theorem modCq_seqs (q : Nat) (f : Cq → Cq) : (modCq s q f).seqs = s.seqs := rfl
@[simp] theorem modCq_ptes (q : Nat) (f : Cq → Cq) : (modCq s q f).ptes = s.ptes := rfl
@[simp] theorem modCq_dirs (q : Nat) (f : Cq → Cq) : (modCq s q f).dirs = s.dirs := rfl
@[simp] theorem modCq_leaves (q : Nat) (f : Cq → Cq) : (modCq s q f).leaves = s.leaves := rfl
@[simp] theorem modCq_frames (q : Nat) (f : Cq → Cq) : (modCq s q f).frames = s.frames := rfl
@[simp] theorem modCq_batches (q : Nat) (f : Cq → Cq) : (modCq s q f).batches = s.batches := rfl
@[simp] theorem modCq_nextSerial (q : Nat) (f : Cq → Cq) : (modCq s q f).nextSerial = s.nextSerial := rfl
@[simp] theorem modCq_nextOrder (q : Nat) (f : Cq → Cq) : (modCq s q f).nextOrder = s.nextOrder := rfl
@[simp] theorem modCq_sensors (q : Nat) (f : Cq → Cq) : (modCq s q f).sensors = s.sensors := rfl
@[simp] theorem modCq_power (q : Nat) (f : Cq → Cq) : (modCq s q f).power = s.power := rfl
@[simp] theorem modCq_thermal (q : Nat) (f : Cq → Cq) : (modCq s q f).thermal = s.thermal := rfl
@[simp] theorem modCq_errors (q : Nat) (f : Cq → Cq) : (modCq s q f).errors = s.errors := rfl
@[simp] theorem modCq_capacity (q : Nat) (f : Cq → Cq) : (modCq s q f).capacity = s.capacity := rfl
@[simp] theorem modCq_counters (q : Nat) (f : Cq → Cq) : (modCq s q f).counters = s.counters := rfl
@[simp] theorem modCq_mailboxes (q : Nat) (f : Cq → Cq) : (modCq s q f).mailboxes = s.mailboxes := rfl
@[simp] theorem modCq_rescueOrder (q : Nat) (f : Cq → Cq) : (modCq s q f).rescueOrder = s.rescueOrder := rfl
@[simp] theorem modCq_i3c (q : Nat) (f : Cq → Cq) : (modCq s q f).i3c = s.i3c := rfl
@[simp] theorem modCq_flash (q : Nat) (f : Cq → Cq) : (modCq s q f).flash = s.flash := rfl
@[simp] theorem modCq_boot (q : Nat) (f : Cq → Cq) : (modCq s q f).boot = s.boot := rfl
@[simp] theorem modCq_resets (q : Nat) (f : Cq → Cq) : (modCq s q f).resets = s.resets := rfl
@[simp] theorem modCq_weft (q : Nat) (f : Cq → Cq) : (modCq s q f).weft = s.weft := rfl

/-! ### modLink -/

@[simp] theorem modLink_pending (l : Nat) (f : WeftLink → WeftLink) : (modLink s l f).pending = s.pending := rfl
@[simp] theorem modLink_free (l : Nat) (f : WeftLink → WeftLink) : (modLink s l f).free = s.free := rfl
@[simp] theorem modLink_pins (l : Nat) (f : WeftLink → WeftLink) : (modLink s l f).pins = s.pins := rfl
@[simp] theorem modLink_pcie (l : Nat) (f : WeftLink → WeftLink) : (modLink s l f).pcie = s.pcie := rfl
@[simp] theorem modLink_sqs (l : Nat) (f : WeftLink → WeftLink) : (modLink s l f).sqs = s.sqs := rfl
@[simp] theorem modLink_cqs (l : Nat) (f : WeftLink → WeftLink) : (modLink s l f).cqs = s.cqs := rfl
@[simp] theorem modLink_packets (l : Nat) (f : WeftLink → WeftLink) : (modLink s l f).packets = s.packets := rfl
@[simp] theorem modLink_nextPacket (l : Nat) (f : WeftLink → WeftLink) : (modLink s l f).nextPacket = s.nextPacket := rfl
@[simp] theorem modLink_mem (l : Nat) (f : WeftLink → WeftLink) : (modLink s l f).mem = s.mem := rfl
@[simp] theorem modLink_delivered (l : Nat) (f : WeftLink → WeftLink) : (modLink s l f).delivered = s.delivered := rfl
@[simp] theorem modLink_knots (l : Nat) (f : WeftLink → WeftLink) : (modLink s l f).knots = s.knots := rfl
@[simp] theorem modLink_waiters (l : Nat) (f : WeftLink → WeftLink) : (modLink s l f).waiters = s.waiters := rfl
@[simp] theorem modLink_refusedWaits (l : Nat) (f : WeftLink → WeftLink) : (modLink s l f).refusedWaits = s.refusedWaits := rfl
@[simp] theorem modLink_wakes (l : Nat) (f : WeftLink → WeftLink) : (modLink s l f).wakes = s.wakes := rfl
@[simp] theorem modLink_throttled (l : Nat) (f : WeftLink → WeftLink) : (modLink s l f).throttled = s.throttled := rfl
@[simp] theorem modLink_colls (l : Nat) (f : WeftLink → WeftLink) : (modLink s l f).colls = s.colls := rfl
@[simp] theorem modLink_chk (l : Nat) (f : WeftLink → WeftLink) : (modLink s l f).chk = s.chk := rfl
@[simp] theorem modLink_wbPoisonReads (l : Nat) (f : WeftLink → WeftLink) : (modLink s l f).wbPoisonReads = s.wbPoisonReads := rfl
@[simp] theorem modLink_wbWeights (l : Nat) (f : WeftLink → WeftLink) : (modLink s l f).wbWeights = s.wbWeights := rfl
@[simp] theorem modLink_staging (l : Nat) (f : WeftLink → WeftLink) : (modLink s l f).staging = s.staging := rfl
@[simp] theorem modLink_cores (l : Nat) (f : WeftLink → WeftLink) : (modLink s l f).cores = s.cores := rfl
@[simp] theorem modLink_chans (l : Nat) (f : WeftLink → WeftLink) : (modLink s l f).chans = s.chans := rfl
@[simp] theorem modLink_layers (l : Nat) (f : WeftLink → WeftLink) : (modLink s l f).layers = s.layers := rfl
@[simp] theorem modLink_regions (l : Nat) (f : WeftLink → WeftLink) : (modLink s l f).regions = s.regions := rfl
@[simp] theorem modLink_pcs (l : Nat) (f : WeftLink → WeftLink) : (modLink s l f).pcs = s.pcs := rfl
@[simp] theorem modLink_hbmStacks (l : Nat) (f : WeftLink → WeftLink) : (modLink s l f).hbmStacks = s.hbmStacks := rfl
@[simp] theorem modLink_dies (l : Nat) (f : WeftLink → WeftLink) : (modLink s l f).dies = s.dies := rfl
@[simp] theorem modLink_ports (l : Nat) (f : WeftLink → WeftLink) : (modLink s l f).ports = s.ports := rfl
@[simp] theorem modLink_slots (l : Nat) (f : WeftLink → WeftLink) : (modLink s l f).slots = s.slots := rfl
@[simp] theorem modLink_seqs (l : Nat) (f : WeftLink → WeftLink) : (modLink s l f).seqs = s.seqs := rfl
@[simp] theorem modLink_ptes (l : Nat) (f : WeftLink → WeftLink) : (modLink s l f).ptes = s.ptes := rfl
@[simp] theorem modLink_dirs (l : Nat) (f : WeftLink → WeftLink) : (modLink s l f).dirs = s.dirs := rfl
@[simp] theorem modLink_leaves (l : Nat) (f : WeftLink → WeftLink) : (modLink s l f).leaves = s.leaves := rfl
@[simp] theorem modLink_frames (l : Nat) (f : WeftLink → WeftLink) : (modLink s l f).frames = s.frames := rfl
@[simp] theorem modLink_batches (l : Nat) (f : WeftLink → WeftLink) : (modLink s l f).batches = s.batches := rfl
@[simp] theorem modLink_nextSerial (l : Nat) (f : WeftLink → WeftLink) : (modLink s l f).nextSerial = s.nextSerial := rfl
@[simp] theorem modLink_nextOrder (l : Nat) (f : WeftLink → WeftLink) : (modLink s l f).nextOrder = s.nextOrder := rfl
@[simp] theorem modLink_sensors (l : Nat) (f : WeftLink → WeftLink) : (modLink s l f).sensors = s.sensors := rfl
@[simp] theorem modLink_power (l : Nat) (f : WeftLink → WeftLink) : (modLink s l f).power = s.power := rfl
@[simp] theorem modLink_thermal (l : Nat) (f : WeftLink → WeftLink) : (modLink s l f).thermal = s.thermal := rfl
@[simp] theorem modLink_errors (l : Nat) (f : WeftLink → WeftLink) : (modLink s l f).errors = s.errors := rfl
@[simp] theorem modLink_capacity (l : Nat) (f : WeftLink → WeftLink) : (modLink s l f).capacity = s.capacity := rfl
@[simp] theorem modLink_counters (l : Nat) (f : WeftLink → WeftLink) : (modLink s l f).counters = s.counters := rfl
@[simp] theorem modLink_mailboxes (l : Nat) (f : WeftLink → WeftLink) : (modLink s l f).mailboxes = s.mailboxes := rfl
@[simp] theorem modLink_rescueOrder (l : Nat) (f : WeftLink → WeftLink) : (modLink s l f).rescueOrder = s.rescueOrder := rfl
@[simp] theorem modLink_i3c (l : Nat) (f : WeftLink → WeftLink) : (modLink s l f).i3c = s.i3c := rfl
@[simp] theorem modLink_flash (l : Nat) (f : WeftLink → WeftLink) : (modLink s l f).flash = s.flash := rfl
@[simp] theorem modLink_boot (l : Nat) (f : WeftLink → WeftLink) : (modLink s l f).boot = s.boot := rfl
@[simp] theorem modLink_resets (l : Nat) (f : WeftLink → WeftLink) : (modLink s l f).resets = s.resets := rfl

/-! ### modPacket -/

@[simp] theorem modPacket_pending (p : Nat) (f : Packet → Packet) : (modPacket s p f).pending = s.pending := rfl
@[simp] theorem modPacket_free (p : Nat) (f : Packet → Packet) : (modPacket s p f).free = s.free := rfl
@[simp] theorem modPacket_pins (p : Nat) (f : Packet → Packet) : (modPacket s p f).pins = s.pins := rfl
@[simp] theorem modPacket_pcie (p : Nat) (f : Packet → Packet) : (modPacket s p f).pcie = s.pcie := rfl
@[simp] theorem modPacket_sqs (p : Nat) (f : Packet → Packet) : (modPacket s p f).sqs = s.sqs := rfl
@[simp] theorem modPacket_cqs (p : Nat) (f : Packet → Packet) : (modPacket s p f).cqs = s.cqs := rfl
@[simp] theorem modPacket_nextPacket (p : Nat) (f : Packet → Packet) : (modPacket s p f).nextPacket = s.nextPacket := rfl
@[simp] theorem modPacket_mem (p : Nat) (f : Packet → Packet) : (modPacket s p f).mem = s.mem := rfl
@[simp] theorem modPacket_delivered (p : Nat) (f : Packet → Packet) : (modPacket s p f).delivered = s.delivered := rfl
@[simp] theorem modPacket_knots (p : Nat) (f : Packet → Packet) : (modPacket s p f).knots = s.knots := rfl
@[simp] theorem modPacket_waiters (p : Nat) (f : Packet → Packet) : (modPacket s p f).waiters = s.waiters := rfl
@[simp] theorem modPacket_refusedWaits (p : Nat) (f : Packet → Packet) : (modPacket s p f).refusedWaits = s.refusedWaits := rfl
@[simp] theorem modPacket_wakes (p : Nat) (f : Packet → Packet) : (modPacket s p f).wakes = s.wakes := rfl
@[simp] theorem modPacket_throttled (p : Nat) (f : Packet → Packet) : (modPacket s p f).throttled = s.throttled := rfl
@[simp] theorem modPacket_colls (p : Nat) (f : Packet → Packet) : (modPacket s p f).colls = s.colls := rfl
@[simp] theorem modPacket_chk (p : Nat) (f : Packet → Packet) : (modPacket s p f).chk = s.chk := rfl
@[simp] theorem modPacket_wbPoisonReads (p : Nat) (f : Packet → Packet) : (modPacket s p f).wbPoisonReads = s.wbPoisonReads := rfl
@[simp] theorem modPacket_wbWeights (p : Nat) (f : Packet → Packet) : (modPacket s p f).wbWeights = s.wbWeights := rfl
@[simp] theorem modPacket_staging (p : Nat) (f : Packet → Packet) : (modPacket s p f).staging = s.staging := rfl
@[simp] theorem modPacket_cores (p : Nat) (f : Packet → Packet) : (modPacket s p f).cores = s.cores := rfl
@[simp] theorem modPacket_chans (p : Nat) (f : Packet → Packet) : (modPacket s p f).chans = s.chans := rfl
@[simp] theorem modPacket_layers (p : Nat) (f : Packet → Packet) : (modPacket s p f).layers = s.layers := rfl
@[simp] theorem modPacket_regions (p : Nat) (f : Packet → Packet) : (modPacket s p f).regions = s.regions := rfl
@[simp] theorem modPacket_pcs (p : Nat) (f : Packet → Packet) : (modPacket s p f).pcs = s.pcs := rfl
@[simp] theorem modPacket_hbmStacks (p : Nat) (f : Packet → Packet) : (modPacket s p f).hbmStacks = s.hbmStacks := rfl
@[simp] theorem modPacket_dies (p : Nat) (f : Packet → Packet) : (modPacket s p f).dies = s.dies := rfl
@[simp] theorem modPacket_ports (p : Nat) (f : Packet → Packet) : (modPacket s p f).ports = s.ports := rfl
@[simp] theorem modPacket_slots (p : Nat) (f : Packet → Packet) : (modPacket s p f).slots = s.slots := rfl
@[simp] theorem modPacket_seqs (p : Nat) (f : Packet → Packet) : (modPacket s p f).seqs = s.seqs := rfl
@[simp] theorem modPacket_ptes (p : Nat) (f : Packet → Packet) : (modPacket s p f).ptes = s.ptes := rfl
@[simp] theorem modPacket_dirs (p : Nat) (f : Packet → Packet) : (modPacket s p f).dirs = s.dirs := rfl
@[simp] theorem modPacket_leaves (p : Nat) (f : Packet → Packet) : (modPacket s p f).leaves = s.leaves := rfl
@[simp] theorem modPacket_frames (p : Nat) (f : Packet → Packet) : (modPacket s p f).frames = s.frames := rfl
@[simp] theorem modPacket_batches (p : Nat) (f : Packet → Packet) : (modPacket s p f).batches = s.batches := rfl
@[simp] theorem modPacket_nextSerial (p : Nat) (f : Packet → Packet) : (modPacket s p f).nextSerial = s.nextSerial := rfl
@[simp] theorem modPacket_nextOrder (p : Nat) (f : Packet → Packet) : (modPacket s p f).nextOrder = s.nextOrder := rfl
@[simp] theorem modPacket_sensors (p : Nat) (f : Packet → Packet) : (modPacket s p f).sensors = s.sensors := rfl
@[simp] theorem modPacket_power (p : Nat) (f : Packet → Packet) : (modPacket s p f).power = s.power := rfl
@[simp] theorem modPacket_thermal (p : Nat) (f : Packet → Packet) : (modPacket s p f).thermal = s.thermal := rfl
@[simp] theorem modPacket_errors (p : Nat) (f : Packet → Packet) : (modPacket s p f).errors = s.errors := rfl
@[simp] theorem modPacket_capacity (p : Nat) (f : Packet → Packet) : (modPacket s p f).capacity = s.capacity := rfl
@[simp] theorem modPacket_counters (p : Nat) (f : Packet → Packet) : (modPacket s p f).counters = s.counters := rfl
@[simp] theorem modPacket_mailboxes (p : Nat) (f : Packet → Packet) : (modPacket s p f).mailboxes = s.mailboxes := rfl
@[simp] theorem modPacket_rescueOrder (p : Nat) (f : Packet → Packet) : (modPacket s p f).rescueOrder = s.rescueOrder := rfl
@[simp] theorem modPacket_i3c (p : Nat) (f : Packet → Packet) : (modPacket s p f).i3c = s.i3c := rfl
@[simp] theorem modPacket_flash (p : Nat) (f : Packet → Packet) : (modPacket s p f).flash = s.flash := rfl
@[simp] theorem modPacket_boot (p : Nat) (f : Packet → Packet) : (modPacket s p f).boot = s.boot := rfl
@[simp] theorem modPacket_resets (p : Nat) (f : Packet → Packet) : (modPacket s p f).resets = s.resets := rfl
@[simp] theorem modPacket_weft (p : Nat) (f : Packet → Packet) : (modPacket s p f).weft = s.weft := rfl

/-! ### modFrame -/

@[simp] theorem modFrame_pending (n : Nat) (f : Frame → Frame) : (modFrame s n f).pending = s.pending := rfl
@[simp] theorem modFrame_free (n : Nat) (f : Frame → Frame) : (modFrame s n f).free = s.free := rfl
@[simp] theorem modFrame_pins (n : Nat) (f : Frame → Frame) : (modFrame s n f).pins = s.pins := rfl
@[simp] theorem modFrame_pcie (n : Nat) (f : Frame → Frame) : (modFrame s n f).pcie = s.pcie := rfl
@[simp] theorem modFrame_sqs (n : Nat) (f : Frame → Frame) : (modFrame s n f).sqs = s.sqs := rfl
@[simp] theorem modFrame_cqs (n : Nat) (f : Frame → Frame) : (modFrame s n f).cqs = s.cqs := rfl
@[simp] theorem modFrame_packets (n : Nat) (f : Frame → Frame) : (modFrame s n f).packets = s.packets := rfl
@[simp] theorem modFrame_nextPacket (n : Nat) (f : Frame → Frame) : (modFrame s n f).nextPacket = s.nextPacket := rfl
@[simp] theorem modFrame_mem (n : Nat) (f : Frame → Frame) : (modFrame s n f).mem = s.mem := rfl
@[simp] theorem modFrame_delivered (n : Nat) (f : Frame → Frame) : (modFrame s n f).delivered = s.delivered := rfl
@[simp] theorem modFrame_knots (n : Nat) (f : Frame → Frame) : (modFrame s n f).knots = s.knots := rfl
@[simp] theorem modFrame_waiters (n : Nat) (f : Frame → Frame) : (modFrame s n f).waiters = s.waiters := rfl
@[simp] theorem modFrame_refusedWaits (n : Nat) (f : Frame → Frame) : (modFrame s n f).refusedWaits = s.refusedWaits := rfl
@[simp] theorem modFrame_wakes (n : Nat) (f : Frame → Frame) : (modFrame s n f).wakes = s.wakes := rfl
@[simp] theorem modFrame_throttled (n : Nat) (f : Frame → Frame) : (modFrame s n f).throttled = s.throttled := rfl
@[simp] theorem modFrame_colls (n : Nat) (f : Frame → Frame) : (modFrame s n f).colls = s.colls := rfl
@[simp] theorem modFrame_chk (n : Nat) (f : Frame → Frame) : (modFrame s n f).chk = s.chk := rfl
@[simp] theorem modFrame_wbPoisonReads (n : Nat) (f : Frame → Frame) : (modFrame s n f).wbPoisonReads = s.wbPoisonReads := rfl
@[simp] theorem modFrame_wbWeights (n : Nat) (f : Frame → Frame) : (modFrame s n f).wbWeights = s.wbWeights := rfl
@[simp] theorem modFrame_staging (n : Nat) (f : Frame → Frame) : (modFrame s n f).staging = s.staging := rfl
@[simp] theorem modFrame_cores (n : Nat) (f : Frame → Frame) : (modFrame s n f).cores = s.cores := rfl
@[simp] theorem modFrame_chans (n : Nat) (f : Frame → Frame) : (modFrame s n f).chans = s.chans := rfl
@[simp] theorem modFrame_layers (n : Nat) (f : Frame → Frame) : (modFrame s n f).layers = s.layers := rfl
@[simp] theorem modFrame_regions (n : Nat) (f : Frame → Frame) : (modFrame s n f).regions = s.regions := rfl
@[simp] theorem modFrame_pcs (n : Nat) (f : Frame → Frame) : (modFrame s n f).pcs = s.pcs := rfl
@[simp] theorem modFrame_hbmStacks (n : Nat) (f : Frame → Frame) : (modFrame s n f).hbmStacks = s.hbmStacks := rfl
@[simp] theorem modFrame_dies (n : Nat) (f : Frame → Frame) : (modFrame s n f).dies = s.dies := rfl
@[simp] theorem modFrame_ports (n : Nat) (f : Frame → Frame) : (modFrame s n f).ports = s.ports := rfl
@[simp] theorem modFrame_slots (n : Nat) (f : Frame → Frame) : (modFrame s n f).slots = s.slots := rfl
@[simp] theorem modFrame_seqs (n : Nat) (f : Frame → Frame) : (modFrame s n f).seqs = s.seqs := rfl
@[simp] theorem modFrame_ptes (n : Nat) (f : Frame → Frame) : (modFrame s n f).ptes = s.ptes := rfl
@[simp] theorem modFrame_dirs (n : Nat) (f : Frame → Frame) : (modFrame s n f).dirs = s.dirs := rfl
@[simp] theorem modFrame_leaves (n : Nat) (f : Frame → Frame) : (modFrame s n f).leaves = s.leaves := rfl
@[simp] theorem modFrame_batches (n : Nat) (f : Frame → Frame) : (modFrame s n f).batches = s.batches := rfl
@[simp] theorem modFrame_nextSerial (n : Nat) (f : Frame → Frame) : (modFrame s n f).nextSerial = s.nextSerial := rfl
@[simp] theorem modFrame_nextOrder (n : Nat) (f : Frame → Frame) : (modFrame s n f).nextOrder = s.nextOrder := rfl
@[simp] theorem modFrame_sensors (n : Nat) (f : Frame → Frame) : (modFrame s n f).sensors = s.sensors := rfl
@[simp] theorem modFrame_power (n : Nat) (f : Frame → Frame) : (modFrame s n f).power = s.power := rfl
@[simp] theorem modFrame_thermal (n : Nat) (f : Frame → Frame) : (modFrame s n f).thermal = s.thermal := rfl
@[simp] theorem modFrame_errors (n : Nat) (f : Frame → Frame) : (modFrame s n f).errors = s.errors := rfl
@[simp] theorem modFrame_capacity (n : Nat) (f : Frame → Frame) : (modFrame s n f).capacity = s.capacity := rfl
@[simp] theorem modFrame_counters (n : Nat) (f : Frame → Frame) : (modFrame s n f).counters = s.counters := rfl
@[simp] theorem modFrame_mailboxes (n : Nat) (f : Frame → Frame) : (modFrame s n f).mailboxes = s.mailboxes := rfl
@[simp] theorem modFrame_rescueOrder (n : Nat) (f : Frame → Frame) : (modFrame s n f).rescueOrder = s.rescueOrder := rfl
@[simp] theorem modFrame_i3c (n : Nat) (f : Frame → Frame) : (modFrame s n f).i3c = s.i3c := rfl
@[simp] theorem modFrame_flash (n : Nat) (f : Frame → Frame) : (modFrame s n f).flash = s.flash := rfl
@[simp] theorem modFrame_boot (n : Nat) (f : Frame → Frame) : (modFrame s n f).boot = s.boot := rfl
@[simp] theorem modFrame_resets (n : Nat) (f : Frame → Frame) : (modFrame s n f).resets = s.resets := rfl
@[simp] theorem modFrame_weft (n : Nat) (f : Frame → Frame) : (modFrame s n f).weft = s.weft := rfl

/-! ### drawFree -/

@[simp] theorem drawFree_pending : (drawFree s).pending = s.pending := rfl
@[simp] theorem drawFree_pins : (drawFree s).pins = s.pins := rfl
@[simp] theorem drawFree_pcie : (drawFree s).pcie = s.pcie := rfl
@[simp] theorem drawFree_sqs : (drawFree s).sqs = s.sqs := rfl
@[simp] theorem drawFree_cqs : (drawFree s).cqs = s.cqs := rfl
@[simp] theorem drawFree_packets : (drawFree s).packets = s.packets := rfl
@[simp] theorem drawFree_nextPacket : (drawFree s).nextPacket = s.nextPacket := rfl
@[simp] theorem drawFree_mem : (drawFree s).mem = s.mem := rfl
@[simp] theorem drawFree_delivered : (drawFree s).delivered = s.delivered := rfl
@[simp] theorem drawFree_knots : (drawFree s).knots = s.knots := rfl
@[simp] theorem drawFree_waiters : (drawFree s).waiters = s.waiters := rfl
@[simp] theorem drawFree_refusedWaits : (drawFree s).refusedWaits = s.refusedWaits := rfl
@[simp] theorem drawFree_wakes : (drawFree s).wakes = s.wakes := rfl
@[simp] theorem drawFree_throttled : (drawFree s).throttled = s.throttled := rfl
@[simp] theorem drawFree_colls : (drawFree s).colls = s.colls := rfl
@[simp] theorem drawFree_chk : (drawFree s).chk = s.chk := rfl
@[simp] theorem drawFree_wbPoisonReads : (drawFree s).wbPoisonReads = s.wbPoisonReads := rfl
@[simp] theorem drawFree_wbWeights : (drawFree s).wbWeights = s.wbWeights := rfl
@[simp] theorem drawFree_staging : (drawFree s).staging = s.staging := rfl
@[simp] theorem drawFree_cores : (drawFree s).cores = s.cores := rfl
@[simp] theorem drawFree_chans : (drawFree s).chans = s.chans := rfl
@[simp] theorem drawFree_layers : (drawFree s).layers = s.layers := rfl
@[simp] theorem drawFree_regions : (drawFree s).regions = s.regions := rfl
@[simp] theorem drawFree_pcs : (drawFree s).pcs = s.pcs := rfl
@[simp] theorem drawFree_hbmStacks : (drawFree s).hbmStacks = s.hbmStacks := rfl
@[simp] theorem drawFree_dies : (drawFree s).dies = s.dies := rfl
@[simp] theorem drawFree_ports : (drawFree s).ports = s.ports := rfl
@[simp] theorem drawFree_slots : (drawFree s).slots = s.slots := rfl
@[simp] theorem drawFree_seqs : (drawFree s).seqs = s.seqs := rfl
@[simp] theorem drawFree_ptes : (drawFree s).ptes = s.ptes := rfl
@[simp] theorem drawFree_dirs : (drawFree s).dirs = s.dirs := rfl
@[simp] theorem drawFree_leaves : (drawFree s).leaves = s.leaves := rfl
@[simp] theorem drawFree_frames : (drawFree s).frames = s.frames := rfl
@[simp] theorem drawFree_batches : (drawFree s).batches = s.batches := rfl
@[simp] theorem drawFree_nextSerial : (drawFree s).nextSerial = s.nextSerial := rfl
@[simp] theorem drawFree_nextOrder : (drawFree s).nextOrder = s.nextOrder := rfl
@[simp] theorem drawFree_sensors : (drawFree s).sensors = s.sensors := rfl
@[simp] theorem drawFree_power : (drawFree s).power = s.power := rfl
@[simp] theorem drawFree_thermal : (drawFree s).thermal = s.thermal := rfl
@[simp] theorem drawFree_errors : (drawFree s).errors = s.errors := rfl
@[simp] theorem drawFree_capacity : (drawFree s).capacity = s.capacity := rfl
@[simp] theorem drawFree_counters : (drawFree s).counters = s.counters := rfl
@[simp] theorem drawFree_mailboxes : (drawFree s).mailboxes = s.mailboxes := rfl
@[simp] theorem drawFree_rescueOrder : (drawFree s).rescueOrder = s.rescueOrder := rfl
@[simp] theorem drawFree_i3c : (drawFree s).i3c = s.i3c := rfl
@[simp] theorem drawFree_flash : (drawFree s).flash = s.flash := rfl
@[simp] theorem drawFree_boot : (drawFree s).boot = s.boot := rfl
@[simp] theorem drawFree_resets : (drawFree s).resets = s.resets := rfl
@[simp] theorem drawFree_weft : (drawFree s).weft = s.weft := rfl

/-! ### degrade -/

@[simp] theorem degrade_pending (b : Nat) (e : Option Word64) : (degrade s b e).pending = s.pending := rfl
@[simp] theorem degrade_free (b : Nat) (e : Option Word64) : (degrade s b e).free = s.free := rfl
@[simp] theorem degrade_pins (b : Nat) (e : Option Word64) : (degrade s b e).pins = s.pins := rfl
@[simp] theorem degrade_pcie (b : Nat) (e : Option Word64) : (degrade s b e).pcie = s.pcie := rfl
@[simp] theorem degrade_sqs (b : Nat) (e : Option Word64) : (degrade s b e).sqs = s.sqs := rfl
@[simp] theorem degrade_cqs (b : Nat) (e : Option Word64) : (degrade s b e).cqs = s.cqs := rfl
@[simp] theorem degrade_packets (b : Nat) (e : Option Word64) : (degrade s b e).packets = s.packets := rfl
@[simp] theorem degrade_nextPacket (b : Nat) (e : Option Word64) : (degrade s b e).nextPacket = s.nextPacket := rfl
@[simp] theorem degrade_mem (b : Nat) (e : Option Word64) : (degrade s b e).mem = s.mem := rfl
@[simp] theorem degrade_delivered (b : Nat) (e : Option Word64) : (degrade s b e).delivered = s.delivered := rfl
@[simp] theorem degrade_knots (b : Nat) (e : Option Word64) : (degrade s b e).knots = s.knots := rfl
@[simp] theorem degrade_waiters (b : Nat) (e : Option Word64) : (degrade s b e).waiters = s.waiters := rfl
@[simp] theorem degrade_refusedWaits (b : Nat) (e : Option Word64) : (degrade s b e).refusedWaits = s.refusedWaits := rfl
@[simp] theorem degrade_wakes (b : Nat) (e : Option Word64) : (degrade s b e).wakes = s.wakes := rfl
@[simp] theorem degrade_throttled (b : Nat) (e : Option Word64) : (degrade s b e).throttled = s.throttled := rfl
@[simp] theorem degrade_colls (b : Nat) (e : Option Word64) : (degrade s b e).colls = s.colls := rfl
@[simp] theorem degrade_chk (b : Nat) (e : Option Word64) : (degrade s b e).chk = s.chk := rfl
@[simp] theorem degrade_wbPoisonReads (b : Nat) (e : Option Word64) : (degrade s b e).wbPoisonReads = s.wbPoisonReads := rfl
@[simp] theorem degrade_wbWeights (b : Nat) (e : Option Word64) : (degrade s b e).wbWeights = s.wbWeights := rfl
@[simp] theorem degrade_staging (b : Nat) (e : Option Word64) : (degrade s b e).staging = s.staging := rfl
@[simp] theorem degrade_cores (b : Nat) (e : Option Word64) : (degrade s b e).cores = s.cores := rfl
@[simp] theorem degrade_chans (b : Nat) (e : Option Word64) : (degrade s b e).chans = s.chans := rfl
@[simp] theorem degrade_layers (b : Nat) (e : Option Word64) : (degrade s b e).layers = s.layers := rfl
@[simp] theorem degrade_regions (b : Nat) (e : Option Word64) : (degrade s b e).regions = s.regions := rfl
@[simp] theorem degrade_pcs (b : Nat) (e : Option Word64) : (degrade s b e).pcs = s.pcs := rfl
@[simp] theorem degrade_hbmStacks (b : Nat) (e : Option Word64) : (degrade s b e).hbmStacks = s.hbmStacks := rfl
@[simp] theorem degrade_dies (b : Nat) (e : Option Word64) : (degrade s b e).dies = s.dies := rfl
@[simp] theorem degrade_ports (b : Nat) (e : Option Word64) : (degrade s b e).ports = s.ports := rfl
@[simp] theorem degrade_slots (b : Nat) (e : Option Word64) : (degrade s b e).slots = s.slots := rfl
@[simp] theorem degrade_seqs (b : Nat) (e : Option Word64) : (degrade s b e).seqs = s.seqs := rfl
@[simp] theorem degrade_ptes (b : Nat) (e : Option Word64) : (degrade s b e).ptes = s.ptes := rfl
@[simp] theorem degrade_dirs (b : Nat) (e : Option Word64) : (degrade s b e).dirs = s.dirs := rfl
@[simp] theorem degrade_leaves (b : Nat) (e : Option Word64) : (degrade s b e).leaves = s.leaves := rfl
@[simp] theorem degrade_frames (b : Nat) (e : Option Word64) : (degrade s b e).frames = s.frames := rfl
@[simp] theorem degrade_batches (b : Nat) (e : Option Word64) : (degrade s b e).batches = s.batches := rfl
@[simp] theorem degrade_nextSerial (b : Nat) (e : Option Word64) : (degrade s b e).nextSerial = s.nextSerial := rfl
@[simp] theorem degrade_nextOrder (b : Nat) (e : Option Word64) : (degrade s b e).nextOrder = s.nextOrder := rfl
@[simp] theorem degrade_sensors (b : Nat) (e : Option Word64) : (degrade s b e).sensors = s.sensors := rfl
@[simp] theorem degrade_power (b : Nat) (e : Option Word64) : (degrade s b e).power = s.power := rfl
@[simp] theorem degrade_thermal (b : Nat) (e : Option Word64) : (degrade s b e).thermal = s.thermal := rfl
@[simp] theorem degrade_errors (b : Nat) (e : Option Word64) : (degrade s b e).errors = s.errors := rfl
@[simp] theorem degrade_counters (b : Nat) (e : Option Word64) : (degrade s b e).counters = s.counters := rfl
@[simp] theorem degrade_mailboxes (b : Nat) (e : Option Word64) : (degrade s b e).mailboxes = s.mailboxes := rfl
@[simp] theorem degrade_rescueOrder (b : Nat) (e : Option Word64) : (degrade s b e).rescueOrder = s.rescueOrder := rfl
@[simp] theorem degrade_i3c (b : Nat) (e : Option Word64) : (degrade s b e).i3c = s.i3c := rfl
@[simp] theorem degrade_flash (b : Nat) (e : Option Word64) : (degrade s b e).flash = s.flash := rfl
@[simp] theorem degrade_boot (b : Nat) (e : Option Word64) : (degrade s b e).boot = s.boot := rfl
@[simp] theorem degrade_resets (b : Nat) (e : Option Word64) : (degrade s b e).resets = s.resets := rfl
@[simp] theorem degrade_weft (b : Nat) (e : Option Word64) : (degrade s b e).weft = s.weft := rfl

/-! ### undegrade -/

@[simp] theorem undegrade_pending (b : Nat) (e : Option Word64) : (undegrade s b e).pending = s.pending := rfl
@[simp] theorem undegrade_free (b : Nat) (e : Option Word64) : (undegrade s b e).free = s.free := rfl
@[simp] theorem undegrade_pins (b : Nat) (e : Option Word64) : (undegrade s b e).pins = s.pins := rfl
@[simp] theorem undegrade_pcie (b : Nat) (e : Option Word64) : (undegrade s b e).pcie = s.pcie := rfl
@[simp] theorem undegrade_sqs (b : Nat) (e : Option Word64) : (undegrade s b e).sqs = s.sqs := rfl
@[simp] theorem undegrade_cqs (b : Nat) (e : Option Word64) : (undegrade s b e).cqs = s.cqs := rfl
@[simp] theorem undegrade_packets (b : Nat) (e : Option Word64) : (undegrade s b e).packets = s.packets := rfl
@[simp] theorem undegrade_nextPacket (b : Nat) (e : Option Word64) : (undegrade s b e).nextPacket = s.nextPacket := rfl
@[simp] theorem undegrade_mem (b : Nat) (e : Option Word64) : (undegrade s b e).mem = s.mem := rfl
@[simp] theorem undegrade_delivered (b : Nat) (e : Option Word64) : (undegrade s b e).delivered = s.delivered := rfl
@[simp] theorem undegrade_knots (b : Nat) (e : Option Word64) : (undegrade s b e).knots = s.knots := rfl
@[simp] theorem undegrade_waiters (b : Nat) (e : Option Word64) : (undegrade s b e).waiters = s.waiters := rfl
@[simp] theorem undegrade_refusedWaits (b : Nat) (e : Option Word64) : (undegrade s b e).refusedWaits = s.refusedWaits := rfl
@[simp] theorem undegrade_wakes (b : Nat) (e : Option Word64) : (undegrade s b e).wakes = s.wakes := rfl
@[simp] theorem undegrade_throttled (b : Nat) (e : Option Word64) : (undegrade s b e).throttled = s.throttled := rfl
@[simp] theorem undegrade_colls (b : Nat) (e : Option Word64) : (undegrade s b e).colls = s.colls := rfl
@[simp] theorem undegrade_chk (b : Nat) (e : Option Word64) : (undegrade s b e).chk = s.chk := rfl
@[simp] theorem undegrade_wbPoisonReads (b : Nat) (e : Option Word64) : (undegrade s b e).wbPoisonReads = s.wbPoisonReads := rfl
@[simp] theorem undegrade_wbWeights (b : Nat) (e : Option Word64) : (undegrade s b e).wbWeights = s.wbWeights := rfl
@[simp] theorem undegrade_staging (b : Nat) (e : Option Word64) : (undegrade s b e).staging = s.staging := rfl
@[simp] theorem undegrade_cores (b : Nat) (e : Option Word64) : (undegrade s b e).cores = s.cores := rfl
@[simp] theorem undegrade_chans (b : Nat) (e : Option Word64) : (undegrade s b e).chans = s.chans := rfl
@[simp] theorem undegrade_layers (b : Nat) (e : Option Word64) : (undegrade s b e).layers = s.layers := rfl
@[simp] theorem undegrade_regions (b : Nat) (e : Option Word64) : (undegrade s b e).regions = s.regions := rfl
@[simp] theorem undegrade_pcs (b : Nat) (e : Option Word64) : (undegrade s b e).pcs = s.pcs := rfl
@[simp] theorem undegrade_hbmStacks (b : Nat) (e : Option Word64) : (undegrade s b e).hbmStacks = s.hbmStacks := rfl
@[simp] theorem undegrade_dies (b : Nat) (e : Option Word64) : (undegrade s b e).dies = s.dies := rfl
@[simp] theorem undegrade_ports (b : Nat) (e : Option Word64) : (undegrade s b e).ports = s.ports := rfl
@[simp] theorem undegrade_slots (b : Nat) (e : Option Word64) : (undegrade s b e).slots = s.slots := rfl
@[simp] theorem undegrade_seqs (b : Nat) (e : Option Word64) : (undegrade s b e).seqs = s.seqs := rfl
@[simp] theorem undegrade_ptes (b : Nat) (e : Option Word64) : (undegrade s b e).ptes = s.ptes := rfl
@[simp] theorem undegrade_dirs (b : Nat) (e : Option Word64) : (undegrade s b e).dirs = s.dirs := rfl
@[simp] theorem undegrade_leaves (b : Nat) (e : Option Word64) : (undegrade s b e).leaves = s.leaves := rfl
@[simp] theorem undegrade_frames (b : Nat) (e : Option Word64) : (undegrade s b e).frames = s.frames := rfl
@[simp] theorem undegrade_batches (b : Nat) (e : Option Word64) : (undegrade s b e).batches = s.batches := rfl
@[simp] theorem undegrade_nextSerial (b : Nat) (e : Option Word64) : (undegrade s b e).nextSerial = s.nextSerial := rfl
@[simp] theorem undegrade_nextOrder (b : Nat) (e : Option Word64) : (undegrade s b e).nextOrder = s.nextOrder := rfl
@[simp] theorem undegrade_sensors (b : Nat) (e : Option Word64) : (undegrade s b e).sensors = s.sensors := rfl
@[simp] theorem undegrade_power (b : Nat) (e : Option Word64) : (undegrade s b e).power = s.power := rfl
@[simp] theorem undegrade_thermal (b : Nat) (e : Option Word64) : (undegrade s b e).thermal = s.thermal := rfl
@[simp] theorem undegrade_errors (b : Nat) (e : Option Word64) : (undegrade s b e).errors = s.errors := rfl
@[simp] theorem undegrade_counters (b : Nat) (e : Option Word64) : (undegrade s b e).counters = s.counters := rfl
@[simp] theorem undegrade_mailboxes (b : Nat) (e : Option Word64) : (undegrade s b e).mailboxes = s.mailboxes := rfl
@[simp] theorem undegrade_rescueOrder (b : Nat) (e : Option Word64) : (undegrade s b e).rescueOrder = s.rescueOrder := rfl
@[simp] theorem undegrade_i3c (b : Nat) (e : Option Word64) : (undegrade s b e).i3c = s.i3c := rfl
@[simp] theorem undegrade_flash (b : Nat) (e : Option Word64) : (undegrade s b e).flash = s.flash := rfl
@[simp] theorem undegrade_boot (b : Nat) (e : Option Word64) : (undegrade s b e).boot = s.boot := rfl
@[simp] theorem undegrade_resets (b : Nat) (e : Option Word64) : (undegrade s b e).resets = s.resets := rfl
@[simp] theorem undegrade_weft (b : Nat) (e : Option Word64) : (undegrade s b e).weft = s.weft := rfl

/-! ### finish -/

@[simp] theorem finish_pending (p st : Nat) (r : Bytes) : (finish s p st r).pending = s.pending := rfl
@[simp] theorem finish_free (p st : Nat) (r : Bytes) : (finish s p st r).free = s.free := rfl
@[simp] theorem finish_pins (p st : Nat) (r : Bytes) : (finish s p st r).pins = s.pins := rfl
@[simp] theorem finish_pcie (p st : Nat) (r : Bytes) : (finish s p st r).pcie = s.pcie := rfl
@[simp] theorem finish_sqs (p st : Nat) (r : Bytes) : (finish s p st r).sqs = s.sqs := rfl
@[simp] theorem finish_cqs (p st : Nat) (r : Bytes) : (finish s p st r).cqs = s.cqs := rfl
@[simp] theorem finish_nextPacket (p st : Nat) (r : Bytes) : (finish s p st r).nextPacket = s.nextPacket := rfl
@[simp] theorem finish_mem (p st : Nat) (r : Bytes) : (finish s p st r).mem = s.mem := rfl
@[simp] theorem finish_delivered (p st : Nat) (r : Bytes) : (finish s p st r).delivered = s.delivered := rfl
@[simp] theorem finish_knots (p st : Nat) (r : Bytes) : (finish s p st r).knots = s.knots := rfl
@[simp] theorem finish_waiters (p st : Nat) (r : Bytes) : (finish s p st r).waiters = s.waiters := rfl
@[simp] theorem finish_refusedWaits (p st : Nat) (r : Bytes) : (finish s p st r).refusedWaits = s.refusedWaits := rfl
@[simp] theorem finish_wakes (p st : Nat) (r : Bytes) : (finish s p st r).wakes = s.wakes := rfl
@[simp] theorem finish_throttled (p st : Nat) (r : Bytes) : (finish s p st r).throttled = s.throttled := rfl
@[simp] theorem finish_colls (p st : Nat) (r : Bytes) : (finish s p st r).colls = s.colls := rfl
@[simp] theorem finish_chk (p st : Nat) (r : Bytes) : (finish s p st r).chk = s.chk := rfl
@[simp] theorem finish_wbPoisonReads (p st : Nat) (r : Bytes) : (finish s p st r).wbPoisonReads = s.wbPoisonReads := rfl
@[simp] theorem finish_wbWeights (p st : Nat) (r : Bytes) : (finish s p st r).wbWeights = s.wbWeights := rfl
@[simp] theorem finish_staging (p st : Nat) (r : Bytes) : (finish s p st r).staging = s.staging := rfl
@[simp] theorem finish_cores (p st : Nat) (r : Bytes) : (finish s p st r).cores = s.cores := rfl
@[simp] theorem finish_chans (p st : Nat) (r : Bytes) : (finish s p st r).chans = s.chans := rfl
@[simp] theorem finish_layers (p st : Nat) (r : Bytes) : (finish s p st r).layers = s.layers := rfl
@[simp] theorem finish_regions (p st : Nat) (r : Bytes) : (finish s p st r).regions = s.regions := rfl
@[simp] theorem finish_pcs (p st : Nat) (r : Bytes) : (finish s p st r).pcs = s.pcs := rfl
@[simp] theorem finish_hbmStacks (p st : Nat) (r : Bytes) : (finish s p st r).hbmStacks = s.hbmStacks := rfl
@[simp] theorem finish_dies (p st : Nat) (r : Bytes) : (finish s p st r).dies = s.dies := rfl
@[simp] theorem finish_ports (p st : Nat) (r : Bytes) : (finish s p st r).ports = s.ports := rfl
@[simp] theorem finish_slots (p st : Nat) (r : Bytes) : (finish s p st r).slots = s.slots := rfl
@[simp] theorem finish_seqs (p st : Nat) (r : Bytes) : (finish s p st r).seqs = s.seqs := rfl
@[simp] theorem finish_ptes (p st : Nat) (r : Bytes) : (finish s p st r).ptes = s.ptes := rfl
@[simp] theorem finish_dirs (p st : Nat) (r : Bytes) : (finish s p st r).dirs = s.dirs := rfl
@[simp] theorem finish_leaves (p st : Nat) (r : Bytes) : (finish s p st r).leaves = s.leaves := rfl
@[simp] theorem finish_frames (p st : Nat) (r : Bytes) : (finish s p st r).frames = s.frames := rfl
@[simp] theorem finish_batches (p st : Nat) (r : Bytes) : (finish s p st r).batches = s.batches := rfl
@[simp] theorem finish_nextSerial (p st : Nat) (r : Bytes) : (finish s p st r).nextSerial = s.nextSerial := rfl
@[simp] theorem finish_nextOrder (p st : Nat) (r : Bytes) : (finish s p st r).nextOrder = s.nextOrder := rfl
@[simp] theorem finish_sensors (p st : Nat) (r : Bytes) : (finish s p st r).sensors = s.sensors := rfl
@[simp] theorem finish_power (p st : Nat) (r : Bytes) : (finish s p st r).power = s.power := rfl
@[simp] theorem finish_thermal (p st : Nat) (r : Bytes) : (finish s p st r).thermal = s.thermal := rfl
@[simp] theorem finish_errors (p st : Nat) (r : Bytes) : (finish s p st r).errors = s.errors := rfl
@[simp] theorem finish_capacity (p st : Nat) (r : Bytes) : (finish s p st r).capacity = s.capacity := rfl
@[simp] theorem finish_counters (p st : Nat) (r : Bytes) : (finish s p st r).counters = s.counters := rfl
@[simp] theorem finish_mailboxes (p st : Nat) (r : Bytes) : (finish s p st r).mailboxes = s.mailboxes := rfl
@[simp] theorem finish_rescueOrder (p st : Nat) (r : Bytes) : (finish s p st r).rescueOrder = s.rescueOrder := rfl
@[simp] theorem finish_i3c (p st : Nat) (r : Bytes) : (finish s p st r).i3c = s.i3c := rfl
@[simp] theorem finish_flash (p st : Nat) (r : Bytes) : (finish s p st r).flash = s.flash := rfl
@[simp] theorem finish_boot (p st : Nat) (r : Bytes) : (finish s p st r).boot = s.boot := rfl
@[simp] theorem finish_resets (p st : Nat) (r : Bytes) : (finish s p st r).resets = s.resets := rfl
@[simp] theorem finish_weft (p st : Nat) (r : Bytes) : (finish s p st r).weft = s.weft := rfl

/-! ### fail -/

@[simp] theorem fail_pending (p st d u g : Nat) : (fail s p st d u g).pending = s.pending := rfl
@[simp] theorem fail_free (p st d u g : Nat) : (fail s p st d u g).free = s.free := rfl
@[simp] theorem fail_pins (p st d u g : Nat) : (fail s p st d u g).pins = s.pins := rfl
@[simp] theorem fail_pcie (p st d u g : Nat) : (fail s p st d u g).pcie = s.pcie := rfl
@[simp] theorem fail_sqs (p st d u g : Nat) : (fail s p st d u g).sqs = s.sqs := rfl
@[simp] theorem fail_cqs (p st d u g : Nat) : (fail s p st d u g).cqs = s.cqs := rfl
@[simp] theorem fail_nextPacket (p st d u g : Nat) : (fail s p st d u g).nextPacket = s.nextPacket := rfl
@[simp] theorem fail_mem (p st d u g : Nat) : (fail s p st d u g).mem = s.mem := rfl
@[simp] theorem fail_delivered (p st d u g : Nat) : (fail s p st d u g).delivered = s.delivered := rfl
@[simp] theorem fail_knots (p st d u g : Nat) : (fail s p st d u g).knots = s.knots := rfl
@[simp] theorem fail_waiters (p st d u g : Nat) : (fail s p st d u g).waiters = s.waiters := rfl
@[simp] theorem fail_refusedWaits (p st d u g : Nat) : (fail s p st d u g).refusedWaits = s.refusedWaits := rfl
@[simp] theorem fail_wakes (p st d u g : Nat) : (fail s p st d u g).wakes = s.wakes := rfl
@[simp] theorem fail_throttled (p st d u g : Nat) : (fail s p st d u g).throttled = s.throttled := rfl
@[simp] theorem fail_colls (p st d u g : Nat) : (fail s p st d u g).colls = s.colls := rfl
@[simp] theorem fail_chk (p st d u g : Nat) : (fail s p st d u g).chk = s.chk := rfl
@[simp] theorem fail_wbPoisonReads (p st d u g : Nat) : (fail s p st d u g).wbPoisonReads = s.wbPoisonReads := rfl
@[simp] theorem fail_wbWeights (p st d u g : Nat) : (fail s p st d u g).wbWeights = s.wbWeights := rfl
@[simp] theorem fail_staging (p st d u g : Nat) : (fail s p st d u g).staging = s.staging := rfl
@[simp] theorem fail_cores (p st d u g : Nat) : (fail s p st d u g).cores = s.cores := rfl
@[simp] theorem fail_chans (p st d u g : Nat) : (fail s p st d u g).chans = s.chans := rfl
@[simp] theorem fail_layers (p st d u g : Nat) : (fail s p st d u g).layers = s.layers := rfl
@[simp] theorem fail_regions (p st d u g : Nat) : (fail s p st d u g).regions = s.regions := rfl
@[simp] theorem fail_pcs (p st d u g : Nat) : (fail s p st d u g).pcs = s.pcs := rfl
@[simp] theorem fail_hbmStacks (p st d u g : Nat) : (fail s p st d u g).hbmStacks = s.hbmStacks := rfl
@[simp] theorem fail_dies (p st d u g : Nat) : (fail s p st d u g).dies = s.dies := rfl
@[simp] theorem fail_ports (p st d u g : Nat) : (fail s p st d u g).ports = s.ports := rfl
@[simp] theorem fail_slots (p st d u g : Nat) : (fail s p st d u g).slots = s.slots := rfl
@[simp] theorem fail_seqs (p st d u g : Nat) : (fail s p st d u g).seqs = s.seqs := rfl
@[simp] theorem fail_ptes (p st d u g : Nat) : (fail s p st d u g).ptes = s.ptes := rfl
@[simp] theorem fail_dirs (p st d u g : Nat) : (fail s p st d u g).dirs = s.dirs := rfl
@[simp] theorem fail_leaves (p st d u g : Nat) : (fail s p st d u g).leaves = s.leaves := rfl
@[simp] theorem fail_frames (p st d u g : Nat) : (fail s p st d u g).frames = s.frames := rfl
@[simp] theorem fail_batches (p st d u g : Nat) : (fail s p st d u g).batches = s.batches := rfl
@[simp] theorem fail_nextSerial (p st d u g : Nat) : (fail s p st d u g).nextSerial = s.nextSerial := rfl
@[simp] theorem fail_nextOrder (p st d u g : Nat) : (fail s p st d u g).nextOrder = s.nextOrder := rfl
@[simp] theorem fail_sensors (p st d u g : Nat) : (fail s p st d u g).sensors = s.sensors := rfl
@[simp] theorem fail_power (p st d u g : Nat) : (fail s p st d u g).power = s.power := rfl
@[simp] theorem fail_thermal (p st d u g : Nat) : (fail s p st d u g).thermal = s.thermal := rfl
@[simp] theorem fail_errors (p st d u g : Nat) : (fail s p st d u g).errors = s.errors := rfl
@[simp] theorem fail_capacity (p st d u g : Nat) : (fail s p st d u g).capacity = s.capacity := rfl
@[simp] theorem fail_counters (p st d u g : Nat) : (fail s p st d u g).counters = s.counters := rfl
@[simp] theorem fail_mailboxes (p st d u g : Nat) : (fail s p st d u g).mailboxes = s.mailboxes := rfl
@[simp] theorem fail_rescueOrder (p st d u g : Nat) : (fail s p st d u g).rescueOrder = s.rescueOrder := rfl
@[simp] theorem fail_i3c (p st d u g : Nat) : (fail s p st d u g).i3c = s.i3c := rfl
@[simp] theorem fail_flash (p st d u g : Nat) : (fail s p st d u g).flash = s.flash := rfl
@[simp] theorem fail_boot (p st d u g : Nat) : (fail s p st d u g).boot = s.boot := rfl
@[simp] theorem fail_resets (p st d u g : Nat) : (fail s p st d u g).resets = s.resets := rfl
@[simp] theorem fail_weft (p st d u g : Nat) : (fail s p st d u g).weft = s.weft := rfl

/-! ### markStarted -/

@[simp] theorem markStarted_pending (p : Nat) : (markStarted s p).pending = s.pending := rfl
@[simp] theorem markStarted_free (p : Nat) : (markStarted s p).free = s.free := rfl
@[simp] theorem markStarted_pins (p : Nat) : (markStarted s p).pins = s.pins := rfl
@[simp] theorem markStarted_pcie (p : Nat) : (markStarted s p).pcie = s.pcie := rfl
@[simp] theorem markStarted_sqs (p : Nat) : (markStarted s p).sqs = s.sqs := rfl
@[simp] theorem markStarted_cqs (p : Nat) : (markStarted s p).cqs = s.cqs := rfl
@[simp] theorem markStarted_nextPacket (p : Nat) : (markStarted s p).nextPacket = s.nextPacket := rfl
@[simp] theorem markStarted_mem (p : Nat) : (markStarted s p).mem = s.mem := rfl
@[simp] theorem markStarted_delivered (p : Nat) : (markStarted s p).delivered = s.delivered := rfl
@[simp] theorem markStarted_knots (p : Nat) : (markStarted s p).knots = s.knots := rfl
@[simp] theorem markStarted_waiters (p : Nat) : (markStarted s p).waiters = s.waiters := rfl
@[simp] theorem markStarted_refusedWaits (p : Nat) : (markStarted s p).refusedWaits = s.refusedWaits := rfl
@[simp] theorem markStarted_wakes (p : Nat) : (markStarted s p).wakes = s.wakes := rfl
@[simp] theorem markStarted_throttled (p : Nat) : (markStarted s p).throttled = s.throttled := rfl
@[simp] theorem markStarted_colls (p : Nat) : (markStarted s p).colls = s.colls := rfl
@[simp] theorem markStarted_chk (p : Nat) : (markStarted s p).chk = s.chk := rfl
@[simp] theorem markStarted_wbPoisonReads (p : Nat) : (markStarted s p).wbPoisonReads = s.wbPoisonReads := rfl
@[simp] theorem markStarted_wbWeights (p : Nat) : (markStarted s p).wbWeights = s.wbWeights := rfl
@[simp] theorem markStarted_staging (p : Nat) : (markStarted s p).staging = s.staging := rfl
@[simp] theorem markStarted_cores (p : Nat) : (markStarted s p).cores = s.cores := rfl
@[simp] theorem markStarted_chans (p : Nat) : (markStarted s p).chans = s.chans := rfl
@[simp] theorem markStarted_layers (p : Nat) : (markStarted s p).layers = s.layers := rfl
@[simp] theorem markStarted_regions (p : Nat) : (markStarted s p).regions = s.regions := rfl
@[simp] theorem markStarted_pcs (p : Nat) : (markStarted s p).pcs = s.pcs := rfl
@[simp] theorem markStarted_hbmStacks (p : Nat) : (markStarted s p).hbmStacks = s.hbmStacks := rfl
@[simp] theorem markStarted_dies (p : Nat) : (markStarted s p).dies = s.dies := rfl
@[simp] theorem markStarted_ports (p : Nat) : (markStarted s p).ports = s.ports := rfl
@[simp] theorem markStarted_slots (p : Nat) : (markStarted s p).slots = s.slots := rfl
@[simp] theorem markStarted_seqs (p : Nat) : (markStarted s p).seqs = s.seqs := rfl
@[simp] theorem markStarted_ptes (p : Nat) : (markStarted s p).ptes = s.ptes := rfl
@[simp] theorem markStarted_dirs (p : Nat) : (markStarted s p).dirs = s.dirs := rfl
@[simp] theorem markStarted_leaves (p : Nat) : (markStarted s p).leaves = s.leaves := rfl
@[simp] theorem markStarted_frames (p : Nat) : (markStarted s p).frames = s.frames := rfl
@[simp] theorem markStarted_batches (p : Nat) : (markStarted s p).batches = s.batches := rfl
@[simp] theorem markStarted_nextSerial (p : Nat) : (markStarted s p).nextSerial = s.nextSerial := rfl
@[simp] theorem markStarted_nextOrder (p : Nat) : (markStarted s p).nextOrder = s.nextOrder := rfl
@[simp] theorem markStarted_sensors (p : Nat) : (markStarted s p).sensors = s.sensors := rfl
@[simp] theorem markStarted_power (p : Nat) : (markStarted s p).power = s.power := rfl
@[simp] theorem markStarted_thermal (p : Nat) : (markStarted s p).thermal = s.thermal := rfl
@[simp] theorem markStarted_errors (p : Nat) : (markStarted s p).errors = s.errors := rfl
@[simp] theorem markStarted_capacity (p : Nat) : (markStarted s p).capacity = s.capacity := rfl
@[simp] theorem markStarted_counters (p : Nat) : (markStarted s p).counters = s.counters := rfl
@[simp] theorem markStarted_mailboxes (p : Nat) : (markStarted s p).mailboxes = s.mailboxes := rfl
@[simp] theorem markStarted_rescueOrder (p : Nat) : (markStarted s p).rescueOrder = s.rescueOrder := rfl
@[simp] theorem markStarted_i3c (p : Nat) : (markStarted s p).i3c = s.i3c := rfl
@[simp] theorem markStarted_flash (p : Nat) : (markStarted s p).flash = s.flash := rfl
@[simp] theorem markStarted_boot (p : Nat) : (markStarted s p).boot = s.boot := rfl
@[simp] theorem markStarted_resets (p : Nat) : (markStarted s p).resets = s.resets := rfl
@[simp] theorem markStarted_weft (p : Nat) : (markStarted s p).weft = s.weft := rfl

/-! ### logRecord -/

@[simp] theorem logRecord_pending (b : Bytes) : (logRecord s b).pending = s.pending := rfl
@[simp] theorem logRecord_free (b : Bytes) : (logRecord s b).free = s.free := rfl
@[simp] theorem logRecord_pins (b : Bytes) : (logRecord s b).pins = s.pins := rfl
@[simp] theorem logRecord_pcie (b : Bytes) : (logRecord s b).pcie = s.pcie := rfl
@[simp] theorem logRecord_sqs (b : Bytes) : (logRecord s b).sqs = s.sqs := rfl
@[simp] theorem logRecord_cqs (b : Bytes) : (logRecord s b).cqs = s.cqs := rfl
@[simp] theorem logRecord_packets (b : Bytes) : (logRecord s b).packets = s.packets := rfl
@[simp] theorem logRecord_nextPacket (b : Bytes) : (logRecord s b).nextPacket = s.nextPacket := rfl
@[simp] theorem logRecord_mem (b : Bytes) : (logRecord s b).mem = s.mem := rfl
@[simp] theorem logRecord_delivered (b : Bytes) : (logRecord s b).delivered = s.delivered := rfl
@[simp] theorem logRecord_knots (b : Bytes) : (logRecord s b).knots = s.knots := rfl
@[simp] theorem logRecord_waiters (b : Bytes) : (logRecord s b).waiters = s.waiters := rfl
@[simp] theorem logRecord_refusedWaits (b : Bytes) : (logRecord s b).refusedWaits = s.refusedWaits := rfl
@[simp] theorem logRecord_wakes (b : Bytes) : (logRecord s b).wakes = s.wakes := rfl
@[simp] theorem logRecord_throttled (b : Bytes) : (logRecord s b).throttled = s.throttled := rfl
@[simp] theorem logRecord_colls (b : Bytes) : (logRecord s b).colls = s.colls := rfl
@[simp] theorem logRecord_chk (b : Bytes) : (logRecord s b).chk = s.chk := rfl
@[simp] theorem logRecord_wbPoisonReads (b : Bytes) : (logRecord s b).wbPoisonReads = s.wbPoisonReads := rfl
@[simp] theorem logRecord_wbWeights (b : Bytes) : (logRecord s b).wbWeights = s.wbWeights := rfl
@[simp] theorem logRecord_staging (b : Bytes) : (logRecord s b).staging = s.staging := rfl
@[simp] theorem logRecord_cores (b : Bytes) : (logRecord s b).cores = s.cores := rfl
@[simp] theorem logRecord_chans (b : Bytes) : (logRecord s b).chans = s.chans := rfl
@[simp] theorem logRecord_layers (b : Bytes) : (logRecord s b).layers = s.layers := rfl
@[simp] theorem logRecord_regions (b : Bytes) : (logRecord s b).regions = s.regions := rfl
@[simp] theorem logRecord_pcs (b : Bytes) : (logRecord s b).pcs = s.pcs := rfl
@[simp] theorem logRecord_hbmStacks (b : Bytes) : (logRecord s b).hbmStacks = s.hbmStacks := rfl
@[simp] theorem logRecord_dies (b : Bytes) : (logRecord s b).dies = s.dies := rfl
@[simp] theorem logRecord_ports (b : Bytes) : (logRecord s b).ports = s.ports := rfl
@[simp] theorem logRecord_slots (b : Bytes) : (logRecord s b).slots = s.slots := rfl
@[simp] theorem logRecord_seqs (b : Bytes) : (logRecord s b).seqs = s.seqs := rfl
@[simp] theorem logRecord_ptes (b : Bytes) : (logRecord s b).ptes = s.ptes := rfl
@[simp] theorem logRecord_dirs (b : Bytes) : (logRecord s b).dirs = s.dirs := rfl
@[simp] theorem logRecord_leaves (b : Bytes) : (logRecord s b).leaves = s.leaves := rfl
@[simp] theorem logRecord_frames (b : Bytes) : (logRecord s b).frames = s.frames := rfl
@[simp] theorem logRecord_batches (b : Bytes) : (logRecord s b).batches = s.batches := rfl
@[simp] theorem logRecord_nextSerial (b : Bytes) : (logRecord s b).nextSerial = s.nextSerial := rfl
@[simp] theorem logRecord_nextOrder (b : Bytes) : (logRecord s b).nextOrder = s.nextOrder := rfl
@[simp] theorem logRecord_sensors (b : Bytes) : (logRecord s b).sensors = s.sensors := rfl
@[simp] theorem logRecord_power (b : Bytes) : (logRecord s b).power = s.power := rfl
@[simp] theorem logRecord_thermal (b : Bytes) : (logRecord s b).thermal = s.thermal := rfl
@[simp] theorem logRecord_capacity (b : Bytes) : (logRecord s b).capacity = s.capacity := rfl
@[simp] theorem logRecord_counters (b : Bytes) : (logRecord s b).counters = s.counters := rfl
@[simp] theorem logRecord_mailboxes (b : Bytes) : (logRecord s b).mailboxes = s.mailboxes := rfl
@[simp] theorem logRecord_rescueOrder (b : Bytes) : (logRecord s b).rescueOrder = s.rescueOrder := rfl
@[simp] theorem logRecord_i3c (b : Bytes) : (logRecord s b).i3c = s.i3c := rfl
@[simp] theorem logRecord_flash (b : Bytes) : (logRecord s b).flash = s.flash := rfl
@[simp] theorem logRecord_boot (b : Bytes) : (logRecord s b).boot = s.boot := rfl
@[simp] theorem logRecord_resets (b : Bytes) : (logRecord s b).resets = s.resets := rfl
@[simp] theorem logRecord_weft (b : Bytes) : (logRecord s b).weft = s.weft := rfl

/-! ### sendHost -/

@[simp] theorem sendHost_pending (t : PcieTx) : (sendHost s t).pending = s.pending := by unfold sendHost; split <;> rfl
@[simp] theorem sendHost_free (t : PcieTx) : (sendHost s t).free = s.free := by unfold sendHost; split <;> rfl
@[simp] theorem sendHost_pins (t : PcieTx) : (sendHost s t).pins = s.pins := by unfold sendHost; split <;> rfl
@[simp] theorem sendHost_sqs (t : PcieTx) : (sendHost s t).sqs = s.sqs := by unfold sendHost; split <;> rfl
@[simp] theorem sendHost_cqs (t : PcieTx) : (sendHost s t).cqs = s.cqs := by unfold sendHost; split <;> rfl
@[simp] theorem sendHost_packets (t : PcieTx) : (sendHost s t).packets = s.packets := by unfold sendHost; split <;> rfl
@[simp] theorem sendHost_nextPacket (t : PcieTx) : (sendHost s t).nextPacket = s.nextPacket := by unfold sendHost; split <;> rfl
@[simp] theorem sendHost_mem (t : PcieTx) : (sendHost s t).mem = s.mem := by unfold sendHost; split <;> rfl
@[simp] theorem sendHost_delivered (t : PcieTx) : (sendHost s t).delivered = s.delivered := by unfold sendHost; split <;> rfl
@[simp] theorem sendHost_knots (t : PcieTx) : (sendHost s t).knots = s.knots := by unfold sendHost; split <;> rfl
@[simp] theorem sendHost_waiters (t : PcieTx) : (sendHost s t).waiters = s.waiters := by unfold sendHost; split <;> rfl
@[simp] theorem sendHost_refusedWaits (t : PcieTx) : (sendHost s t).refusedWaits = s.refusedWaits := by unfold sendHost; split <;> rfl
@[simp] theorem sendHost_wakes (t : PcieTx) : (sendHost s t).wakes = s.wakes := by unfold sendHost; split <;> rfl
@[simp] theorem sendHost_throttled (t : PcieTx) : (sendHost s t).throttled = s.throttled := by unfold sendHost; split <;> rfl
@[simp] theorem sendHost_colls (t : PcieTx) : (sendHost s t).colls = s.colls := by unfold sendHost; split <;> rfl
@[simp] theorem sendHost_chk (t : PcieTx) : (sendHost s t).chk = s.chk := by unfold sendHost; split <;> rfl
@[simp] theorem sendHost_wbPoisonReads (t : PcieTx) : (sendHost s t).wbPoisonReads = s.wbPoisonReads := by unfold sendHost; split <;> rfl
@[simp] theorem sendHost_wbWeights (t : PcieTx) : (sendHost s t).wbWeights = s.wbWeights := by unfold sendHost; split <;> rfl
@[simp] theorem sendHost_staging (t : PcieTx) : (sendHost s t).staging = s.staging := by unfold sendHost; split <;> rfl
@[simp] theorem sendHost_cores (t : PcieTx) : (sendHost s t).cores = s.cores := by unfold sendHost; split <;> rfl
@[simp] theorem sendHost_chans (t : PcieTx) : (sendHost s t).chans = s.chans := by unfold sendHost; split <;> rfl
@[simp] theorem sendHost_layers (t : PcieTx) : (sendHost s t).layers = s.layers := by unfold sendHost; split <;> rfl
@[simp] theorem sendHost_regions (t : PcieTx) : (sendHost s t).regions = s.regions := by unfold sendHost; split <;> rfl
@[simp] theorem sendHost_pcs (t : PcieTx) : (sendHost s t).pcs = s.pcs := by unfold sendHost; split <;> rfl
@[simp] theorem sendHost_hbmStacks (t : PcieTx) : (sendHost s t).hbmStacks = s.hbmStacks := by unfold sendHost; split <;> rfl
@[simp] theorem sendHost_dies (t : PcieTx) : (sendHost s t).dies = s.dies := by unfold sendHost; split <;> rfl
@[simp] theorem sendHost_ports (t : PcieTx) : (sendHost s t).ports = s.ports := by unfold sendHost; split <;> rfl
@[simp] theorem sendHost_slots (t : PcieTx) : (sendHost s t).slots = s.slots := by unfold sendHost; split <;> rfl
@[simp] theorem sendHost_seqs (t : PcieTx) : (sendHost s t).seqs = s.seqs := by unfold sendHost; split <;> rfl
@[simp] theorem sendHost_ptes (t : PcieTx) : (sendHost s t).ptes = s.ptes := by unfold sendHost; split <;> rfl
@[simp] theorem sendHost_dirs (t : PcieTx) : (sendHost s t).dirs = s.dirs := by unfold sendHost; split <;> rfl
@[simp] theorem sendHost_leaves (t : PcieTx) : (sendHost s t).leaves = s.leaves := by unfold sendHost; split <;> rfl
@[simp] theorem sendHost_frames (t : PcieTx) : (sendHost s t).frames = s.frames := by unfold sendHost; split <;> rfl
@[simp] theorem sendHost_batches (t : PcieTx) : (sendHost s t).batches = s.batches := by unfold sendHost; split <;> rfl
@[simp] theorem sendHost_nextSerial (t : PcieTx) : (sendHost s t).nextSerial = s.nextSerial := by unfold sendHost; split <;> rfl
@[simp] theorem sendHost_nextOrder (t : PcieTx) : (sendHost s t).nextOrder = s.nextOrder := by unfold sendHost; split <;> rfl
@[simp] theorem sendHost_sensors (t : PcieTx) : (sendHost s t).sensors = s.sensors := by unfold sendHost; split <;> rfl
@[simp] theorem sendHost_power (t : PcieTx) : (sendHost s t).power = s.power := by unfold sendHost; split <;> rfl
@[simp] theorem sendHost_thermal (t : PcieTx) : (sendHost s t).thermal = s.thermal := by unfold sendHost; split <;> rfl
@[simp] theorem sendHost_errors (t : PcieTx) : (sendHost s t).errors = s.errors := by unfold sendHost; split <;> rfl
@[simp] theorem sendHost_capacity (t : PcieTx) : (sendHost s t).capacity = s.capacity := by unfold sendHost; split <;> rfl
@[simp] theorem sendHost_counters (t : PcieTx) : (sendHost s t).counters = s.counters := by unfold sendHost; split <;> rfl
@[simp] theorem sendHost_mailboxes (t : PcieTx) : (sendHost s t).mailboxes = s.mailboxes := by unfold sendHost; split <;> rfl
@[simp] theorem sendHost_rescueOrder (t : PcieTx) : (sendHost s t).rescueOrder = s.rescueOrder := by unfold sendHost; split <;> rfl
@[simp] theorem sendHost_i3c (t : PcieTx) : (sendHost s t).i3c = s.i3c := by unfold sendHost; split <;> rfl
@[simp] theorem sendHost_flash (t : PcieTx) : (sendHost s t).flash = s.flash := by unfold sendHost; split <;> rfl
@[simp] theorem sendHost_boot (t : PcieTx) : (sendHost s t).boot = s.boot := by unfold sendHost; split <;> rfl
@[simp] theorem sendHost_resets (t : PcieTx) : (sendHost s t).resets = s.resets := by unfold sendHost; split <;> rfl
@[simp] theorem sendHost_weft (t : PcieTx) : (sendHost s t).weft = s.weft := by unfold sendHost; split <;> rfl

/-! ### sendVector -/

@[simp] theorem sendVector_pending (v : Nat) : (sendVector s v).pending = s.pending := by unfold sendVector; split <;> simp
@[simp] theorem sendVector_free (v : Nat) : (sendVector s v).free = s.free := by unfold sendVector; split <;> simp
@[simp] theorem sendVector_pins (v : Nat) : (sendVector s v).pins = s.pins := by unfold sendVector; split <;> simp
@[simp] theorem sendVector_sqs (v : Nat) : (sendVector s v).sqs = s.sqs := by unfold sendVector; split <;> simp
@[simp] theorem sendVector_cqs (v : Nat) : (sendVector s v).cqs = s.cqs := by unfold sendVector; split <;> simp
@[simp] theorem sendVector_packets (v : Nat) : (sendVector s v).packets = s.packets := by unfold sendVector; split <;> simp
@[simp] theorem sendVector_nextPacket (v : Nat) : (sendVector s v).nextPacket = s.nextPacket := by unfold sendVector; split <;> simp
@[simp] theorem sendVector_mem (v : Nat) : (sendVector s v).mem = s.mem := by unfold sendVector; split <;> simp
@[simp] theorem sendVector_delivered (v : Nat) : (sendVector s v).delivered = s.delivered := by unfold sendVector; split <;> simp
@[simp] theorem sendVector_knots (v : Nat) : (sendVector s v).knots = s.knots := by unfold sendVector; split <;> simp
@[simp] theorem sendVector_waiters (v : Nat) : (sendVector s v).waiters = s.waiters := by unfold sendVector; split <;> simp
@[simp] theorem sendVector_refusedWaits (v : Nat) : (sendVector s v).refusedWaits = s.refusedWaits := by unfold sendVector; split <;> simp
@[simp] theorem sendVector_wakes (v : Nat) : (sendVector s v).wakes = s.wakes := by unfold sendVector; split <;> simp
@[simp] theorem sendVector_throttled (v : Nat) : (sendVector s v).throttled = s.throttled := by unfold sendVector; split <;> simp
@[simp] theorem sendVector_colls (v : Nat) : (sendVector s v).colls = s.colls := by unfold sendVector; split <;> simp
@[simp] theorem sendVector_chk (v : Nat) : (sendVector s v).chk = s.chk := by unfold sendVector; split <;> simp
@[simp] theorem sendVector_wbPoisonReads (v : Nat) : (sendVector s v).wbPoisonReads = s.wbPoisonReads := by unfold sendVector; split <;> simp
@[simp] theorem sendVector_wbWeights (v : Nat) : (sendVector s v).wbWeights = s.wbWeights := by unfold sendVector; split <;> simp
@[simp] theorem sendVector_staging (v : Nat) : (sendVector s v).staging = s.staging := by unfold sendVector; split <;> simp
@[simp] theorem sendVector_cores (v : Nat) : (sendVector s v).cores = s.cores := by unfold sendVector; split <;> simp
@[simp] theorem sendVector_chans (v : Nat) : (sendVector s v).chans = s.chans := by unfold sendVector; split <;> simp
@[simp] theorem sendVector_layers (v : Nat) : (sendVector s v).layers = s.layers := by unfold sendVector; split <;> simp
@[simp] theorem sendVector_regions (v : Nat) : (sendVector s v).regions = s.regions := by unfold sendVector; split <;> simp
@[simp] theorem sendVector_pcs (v : Nat) : (sendVector s v).pcs = s.pcs := by unfold sendVector; split <;> simp
@[simp] theorem sendVector_hbmStacks (v : Nat) : (sendVector s v).hbmStacks = s.hbmStacks := by unfold sendVector; split <;> simp
@[simp] theorem sendVector_dies (v : Nat) : (sendVector s v).dies = s.dies := by unfold sendVector; split <;> simp
@[simp] theorem sendVector_ports (v : Nat) : (sendVector s v).ports = s.ports := by unfold sendVector; split <;> simp
@[simp] theorem sendVector_slots (v : Nat) : (sendVector s v).slots = s.slots := by unfold sendVector; split <;> simp
@[simp] theorem sendVector_seqs (v : Nat) : (sendVector s v).seqs = s.seqs := by unfold sendVector; split <;> simp
@[simp] theorem sendVector_ptes (v : Nat) : (sendVector s v).ptes = s.ptes := by unfold sendVector; split <;> simp
@[simp] theorem sendVector_dirs (v : Nat) : (sendVector s v).dirs = s.dirs := by unfold sendVector; split <;> simp
@[simp] theorem sendVector_leaves (v : Nat) : (sendVector s v).leaves = s.leaves := by unfold sendVector; split <;> simp
@[simp] theorem sendVector_frames (v : Nat) : (sendVector s v).frames = s.frames := by unfold sendVector; split <;> simp
@[simp] theorem sendVector_batches (v : Nat) : (sendVector s v).batches = s.batches := by unfold sendVector; split <;> simp
@[simp] theorem sendVector_nextSerial (v : Nat) : (sendVector s v).nextSerial = s.nextSerial := by unfold sendVector; split <;> simp
@[simp] theorem sendVector_nextOrder (v : Nat) : (sendVector s v).nextOrder = s.nextOrder := by unfold sendVector; split <;> simp
@[simp] theorem sendVector_sensors (v : Nat) : (sendVector s v).sensors = s.sensors := by unfold sendVector; split <;> simp
@[simp] theorem sendVector_power (v : Nat) : (sendVector s v).power = s.power := by unfold sendVector; split <;> simp
@[simp] theorem sendVector_thermal (v : Nat) : (sendVector s v).thermal = s.thermal := by unfold sendVector; split <;> simp
@[simp] theorem sendVector_errors (v : Nat) : (sendVector s v).errors = s.errors := by unfold sendVector; split <;> simp
@[simp] theorem sendVector_capacity (v : Nat) : (sendVector s v).capacity = s.capacity := by unfold sendVector; split <;> simp
@[simp] theorem sendVector_counters (v : Nat) : (sendVector s v).counters = s.counters := by unfold sendVector; split <;> simp
@[simp] theorem sendVector_mailboxes (v : Nat) : (sendVector s v).mailboxes = s.mailboxes := by unfold sendVector; split <;> simp
@[simp] theorem sendVector_rescueOrder (v : Nat) : (sendVector s v).rescueOrder = s.rescueOrder := by unfold sendVector; split <;> simp
@[simp] theorem sendVector_i3c (v : Nat) : (sendVector s v).i3c = s.i3c := by unfold sendVector; split <;> simp
@[simp] theorem sendVector_flash (v : Nat) : (sendVector s v).flash = s.flash := by unfold sendVector; split <;> simp
@[simp] theorem sendVector_boot (v : Nat) : (sendVector s v).boot = s.boot := by unfold sendVector; split <;> simp
@[simp] theorem sendVector_resets (v : Nat) : (sendVector s v).resets = s.resets := by unfold sendVector; split <;> simp
@[simp] theorem sendVector_weft (v : Nat) : (sendVector s v).weft = s.weft := by unfold sendVector; split <;> simp

/-! ### hostWrite -/

@[simp] theorem hostWrite_pending (a : Nat) (b : Bytes) (p : Bool) : (hostWrite s a b p).pending = s.pending := by unfold hostWrite; split <;> simp
@[simp] theorem hostWrite_free (a : Nat) (b : Bytes) (p : Bool) : (hostWrite s a b p).free = s.free := by unfold hostWrite; split <;> simp
@[simp] theorem hostWrite_pins (a : Nat) (b : Bytes) (p : Bool) : (hostWrite s a b p).pins = s.pins := by unfold hostWrite; split <;> simp
@[simp] theorem hostWrite_sqs (a : Nat) (b : Bytes) (p : Bool) : (hostWrite s a b p).sqs = s.sqs := by unfold hostWrite; split <;> simp
@[simp] theorem hostWrite_cqs (a : Nat) (b : Bytes) (p : Bool) : (hostWrite s a b p).cqs = s.cqs := by unfold hostWrite; split <;> simp
@[simp] theorem hostWrite_packets (a : Nat) (b : Bytes) (p : Bool) : (hostWrite s a b p).packets = s.packets := by unfold hostWrite; split <;> simp
@[simp] theorem hostWrite_nextPacket (a : Nat) (b : Bytes) (p : Bool) : (hostWrite s a b p).nextPacket = s.nextPacket := by unfold hostWrite; split <;> simp
@[simp] theorem hostWrite_mem (a : Nat) (b : Bytes) (p : Bool) : (hostWrite s a b p).mem = s.mem := by unfold hostWrite; split <;> simp
@[simp] theorem hostWrite_delivered (a : Nat) (b : Bytes) (p : Bool) : (hostWrite s a b p).delivered = s.delivered := by unfold hostWrite; split <;> simp
@[simp] theorem hostWrite_knots (a : Nat) (b : Bytes) (p : Bool) : (hostWrite s a b p).knots = s.knots := by unfold hostWrite; split <;> simp
@[simp] theorem hostWrite_waiters (a : Nat) (b : Bytes) (p : Bool) : (hostWrite s a b p).waiters = s.waiters := by unfold hostWrite; split <;> simp
@[simp] theorem hostWrite_refusedWaits (a : Nat) (b : Bytes) (p : Bool) : (hostWrite s a b p).refusedWaits = s.refusedWaits := by unfold hostWrite; split <;> simp
@[simp] theorem hostWrite_wakes (a : Nat) (b : Bytes) (p : Bool) : (hostWrite s a b p).wakes = s.wakes := by unfold hostWrite; split <;> simp
@[simp] theorem hostWrite_throttled (a : Nat) (b : Bytes) (p : Bool) : (hostWrite s a b p).throttled = s.throttled := by unfold hostWrite; split <;> simp
@[simp] theorem hostWrite_colls (a : Nat) (b : Bytes) (p : Bool) : (hostWrite s a b p).colls = s.colls := by unfold hostWrite; split <;> simp
@[simp] theorem hostWrite_chk (a : Nat) (b : Bytes) (p : Bool) : (hostWrite s a b p).chk = s.chk := by unfold hostWrite; split <;> simp
@[simp] theorem hostWrite_wbPoisonReads (a : Nat) (b : Bytes) (p : Bool) : (hostWrite s a b p).wbPoisonReads = s.wbPoisonReads := by unfold hostWrite; split <;> simp
@[simp] theorem hostWrite_wbWeights (a : Nat) (b : Bytes) (p : Bool) : (hostWrite s a b p).wbWeights = s.wbWeights := by unfold hostWrite; split <;> simp
@[simp] theorem hostWrite_staging (a : Nat) (b : Bytes) (p : Bool) : (hostWrite s a b p).staging = s.staging := by unfold hostWrite; split <;> simp
@[simp] theorem hostWrite_cores (a : Nat) (b : Bytes) (p : Bool) : (hostWrite s a b p).cores = s.cores := by unfold hostWrite; split <;> simp
@[simp] theorem hostWrite_chans (a : Nat) (b : Bytes) (p : Bool) : (hostWrite s a b p).chans = s.chans := by unfold hostWrite; split <;> simp
@[simp] theorem hostWrite_layers (a : Nat) (b : Bytes) (p : Bool) : (hostWrite s a b p).layers = s.layers := by unfold hostWrite; split <;> simp
@[simp] theorem hostWrite_regions (a : Nat) (b : Bytes) (p : Bool) : (hostWrite s a b p).regions = s.regions := by unfold hostWrite; split <;> simp
@[simp] theorem hostWrite_pcs (a : Nat) (b : Bytes) (p : Bool) : (hostWrite s a b p).pcs = s.pcs := by unfold hostWrite; split <;> simp
@[simp] theorem hostWrite_hbmStacks (a : Nat) (b : Bytes) (p : Bool) : (hostWrite s a b p).hbmStacks = s.hbmStacks := by unfold hostWrite; split <;> simp
@[simp] theorem hostWrite_dies (a : Nat) (b : Bytes) (p : Bool) : (hostWrite s a b p).dies = s.dies := by unfold hostWrite; split <;> simp
@[simp] theorem hostWrite_ports (a : Nat) (b : Bytes) (p : Bool) : (hostWrite s a b p).ports = s.ports := by unfold hostWrite; split <;> simp
@[simp] theorem hostWrite_slots (a : Nat) (b : Bytes) (p : Bool) : (hostWrite s a b p).slots = s.slots := by unfold hostWrite; split <;> simp
@[simp] theorem hostWrite_seqs (a : Nat) (b : Bytes) (p : Bool) : (hostWrite s a b p).seqs = s.seqs := by unfold hostWrite; split <;> simp
@[simp] theorem hostWrite_ptes (a : Nat) (b : Bytes) (p : Bool) : (hostWrite s a b p).ptes = s.ptes := by unfold hostWrite; split <;> simp
@[simp] theorem hostWrite_dirs (a : Nat) (b : Bytes) (p : Bool) : (hostWrite s a b p).dirs = s.dirs := by unfold hostWrite; split <;> simp
@[simp] theorem hostWrite_leaves (a : Nat) (b : Bytes) (p : Bool) : (hostWrite s a b p).leaves = s.leaves := by unfold hostWrite; split <;> simp
@[simp] theorem hostWrite_frames (a : Nat) (b : Bytes) (p : Bool) : (hostWrite s a b p).frames = s.frames := by unfold hostWrite; split <;> simp
@[simp] theorem hostWrite_batches (a : Nat) (b : Bytes) (p : Bool) : (hostWrite s a b p).batches = s.batches := by unfold hostWrite; split <;> simp
@[simp] theorem hostWrite_nextSerial (a : Nat) (b : Bytes) (p : Bool) : (hostWrite s a b p).nextSerial = s.nextSerial := by unfold hostWrite; split <;> simp
@[simp] theorem hostWrite_nextOrder (a : Nat) (b : Bytes) (p : Bool) : (hostWrite s a b p).nextOrder = s.nextOrder := by unfold hostWrite; split <;> simp
@[simp] theorem hostWrite_sensors (a : Nat) (b : Bytes) (p : Bool) : (hostWrite s a b p).sensors = s.sensors := by unfold hostWrite; split <;> simp
@[simp] theorem hostWrite_power (a : Nat) (b : Bytes) (p : Bool) : (hostWrite s a b p).power = s.power := by unfold hostWrite; split <;> simp
@[simp] theorem hostWrite_thermal (a : Nat) (b : Bytes) (p : Bool) : (hostWrite s a b p).thermal = s.thermal := by unfold hostWrite; split <;> simp
@[simp] theorem hostWrite_errors (a : Nat) (b : Bytes) (p : Bool) : (hostWrite s a b p).errors = s.errors := by unfold hostWrite; split <;> simp
@[simp] theorem hostWrite_capacity (a : Nat) (b : Bytes) (p : Bool) : (hostWrite s a b p).capacity = s.capacity := by unfold hostWrite; split <;> simp
@[simp] theorem hostWrite_counters (a : Nat) (b : Bytes) (p : Bool) : (hostWrite s a b p).counters = s.counters := by unfold hostWrite; split <;> simp
@[simp] theorem hostWrite_mailboxes (a : Nat) (b : Bytes) (p : Bool) : (hostWrite s a b p).mailboxes = s.mailboxes := by unfold hostWrite; split <;> simp
@[simp] theorem hostWrite_rescueOrder (a : Nat) (b : Bytes) (p : Bool) : (hostWrite s a b p).rescueOrder = s.rescueOrder := by unfold hostWrite; split <;> simp
@[simp] theorem hostWrite_i3c (a : Nat) (b : Bytes) (p : Bool) : (hostWrite s a b p).i3c = s.i3c := by unfold hostWrite; split <;> simp
@[simp] theorem hostWrite_flash (a : Nat) (b : Bytes) (p : Bool) : (hostWrite s a b p).flash = s.flash := by unfold hostWrite; split <;> simp
@[simp] theorem hostWrite_boot (a : Nat) (b : Bytes) (p : Bool) : (hostWrite s a b p).boot = s.boot := by unfold hostWrite; split <;> simp
@[simp] theorem hostWrite_resets (a : Nat) (b : Bytes) (p : Bool) : (hostWrite s a b p).resets = s.resets := by unfold hostWrite; split <;> simp
@[simp] theorem hostWrite_weft (a : Nat) (b : Bytes) (p : Bool) : (hostWrite s a b p).weft = s.weft := by unfold hostWrite; split <;> simp

end Sys2Proof.Machine
end

