-- ==== Sys2Proof/Laws/Tables.lean ====
section
/-!
SUPPORT. Laws of the sparse tables: reading after writing, and the canonical form (keys strictly rising, no entry equal to
the reset value).
-/
namespace Sys2Proof.Machine

variable {α : Type} [Inhabited α] [DecidableEq α]

omit [DecidableEq α] in
@[simp] theorem tget_nil (i : Nat) : tget ([] : Table α) i = default := rfl

omit [DecidableEq α] in
theorem tget_terase_self (t : Table α) (i : Nat) : tget (terase t i) i = default := by
  induction t with
  | nil => rfl
  | cons e t ih =>
    obtain ⟨k, v⟩ := e
    by_cases h : k = i <;> simp [terase, tget, h, ih]

omit [DecidableEq α] in
theorem tget_terase_other (t : Table α) {i j : Nat} (h : j ≠ i) : tget (terase t i) j = tget t j := by
  induction t with
  | nil => rfl
  | cons e t ih =>
    obtain ⟨k, v⟩ := e
    by_cases hk : k = i
    · have : k ≠ j := fun e => h (e ▸ hk)
      simp [terase, tget, hk, ih]
      intro e; exact absurd e.symm h
    · simp [terase, tget, hk, ih]

omit [DecidableEq α] in
theorem tget_tinsert (t : Table α) (i j : Nat) (a : α) :
    tget (tinsert t i a) j = if j = i then a else tget t j := by
  induction t with
  | nil =>
    by_cases h : j = i
    · simp [tinsert, tget, h]
    · have h' : ¬ i = j := fun e => h e.symm
      simp [tinsert, tget, h, h']
  | cons e t ih =>
    obtain ⟨k, v⟩ := e
    by_cases h1 : i < k
    · by_cases h : j = i
      · simp [tinsert, tget, h1, h]
      · have h' : ¬ i = j := fun e => h e.symm
        simp [tinsert, tget, h1, h, h']
    · by_cases h2 : i = k
      · subst h2
        by_cases h : j = i
        · simp [tinsert, tget, h]
        · have h' : ¬ i = j := fun e => h e.symm
          simp [tinsert, tget, h, h']
      · by_cases h : j = i
        · subst h
          have h' : ¬ k = j := fun e => h2 e.symm
          simp [tinsert, tget, h1, h2, h', ih]
        · simp [tinsert, tget, h1, h2, ih, h]

/-- Reading a table after a write: the written entry at its key, every other entry as before. -/
theorem tget_tset (t : Table α) (i j : Nat) (a : α) : tget (tset t i a) j = if j = i then a else tget t j := by
  unfold tset
  split
  · rename_i h
    by_cases hj : j = i
    · subst hj; simp [tget_terase_self, h]
    · simp [tget_terase_other t hj, hj]
  · exact tget_tinsert t i j a

@[simp] theorem tget_tset_self (t : Table α) (i : Nat) (a : α) : tget (tset t i a) i = a := by simp [tget_tset]

theorem tget_tset_other (t : Table α) {i j : Nat} (h : j ≠ i) (a : α) : tget (tset t i a) j = tget t j := by
  simp [tget_tset, h]

/-- Reading a table after a change of one entry. -/
theorem tget_tmod (t : Table α) (i j : Nat) (f : α → α) :
    tget (tmod t i f) j = if j = i then f (tget t i) else tget t j := tget_tset t i j _

@[simp] theorem tget_tmod_self (t : Table α) (i : Nat) (f : α → α) : tget (tmod t i f) i = f (tget t i) := by
  simp [tget_tmod]

theorem tget_tmod_other (t : Table α) {i j : Nat} (h : j ≠ i) (f : α → α) : tget (tmod t i f) j = tget t j := by
  simp [tget_tmod, h]

/-- A table with keys strictly rising from a bound on and no entry equal to the reset value. -/
def tableWf (lo : Nat) : Table α → Bool
  | [] => true
  | (k, v) :: t => decide (lo ≤ k) && decide (v ≠ default) && tableWf (k + 1) t

theorem tableWf_mono {lo lo' : Nat} (h : lo ≤ lo') : ∀ t : Table α, tableWf lo' t = true → tableWf lo t = true
  | [], _ => rfl
  | (k, v) :: t, w => by
    simp only [tableWf, Bool.and_eq_true, decide_eq_true_eq] at w ⊢
    exact ⟨⟨by omega, w.1.2⟩, w.2⟩

theorem tableWf_terase (i : Nat) : ∀ (lo : Nat) (t : Table α), tableWf lo t = true → tableWf lo (terase t i) = true
  | _, [], _ => rfl
  | lo, (k, v) :: t, w => by
    simp only [tableWf, Bool.and_eq_true, decide_eq_true_eq] at w
    have ih := tableWf_terase i (k + 1) t w.2
    simp only [terase]
    split
    · exact tableWf_mono (by omega) _ ih
    · simp only [tableWf, Bool.and_eq_true, decide_eq_true_eq]
      exact ⟨w.1, ih⟩

theorem tableWf_tinsert (i : Nat) {a : α} (ha : a ≠ default) :
    ∀ (lo : Nat) (t : Table α), lo ≤ i → tableWf lo t = true → tableWf lo (tinsert t i a) = true
  | lo, [], h, _ => by simp [tinsert, tableWf, h, ha]
  | lo, (k, v) :: t, h, w => by
    simp only [tableWf, Bool.and_eq_true, decide_eq_true_eq] at w
    simp only [tinsert]
    split
    · rename_i hk
      simp only [tableWf, Bool.and_eq_true, decide_eq_true_eq]
      exact ⟨⟨h, ha⟩, ⟨by omega, w.1.2⟩, w.2⟩
    · split
      · rename_i _ hk
        subst hk
        simp only [tableWf, Bool.and_eq_true, decide_eq_true_eq]
        exact ⟨⟨h, ha⟩, w.2⟩
      · rename_i h1 h2
        simp only [tableWf, Bool.and_eq_true, decide_eq_true_eq]
        exact ⟨w.1, tableWf_tinsert i ha (k + 1) t (by omega) w.2⟩

/-- A write keeps the canonical form. -/
theorem tableWf_tset (t : Table α) (i : Nat) (a : α) (w : tableWf 0 t = true) : tableWf 0 (tset t i a) = true := by
  unfold tset
  split
  · exact tableWf_terase i 0 t w
  · rename_i h
    exact tableWf_tinsert i h 0 t (by omega) w

end Sys2Proof.Machine
end

