-- ==== Sys2Proof/Laws/Knots.lean ====
section
/-!
SUPPORT. What an operation on a device knot does (spec/03 R94, R96): the knot's new bits, the WAITs that it meets, and
nothing else but what the wakes reach.
-/
namespace Sys2Proof.Machine

theorem clampKnot_value (k : Knot) (x : Int) : (clampKnot k x).value.toNat = clamped x := by
  unfold clampKnot clamped knotMax
  split
  · rfl
  · split
    · rw [if_neg (by omega)]; rfl
    · rw [if_pos (by omega)]; simp; omega

theorem clampKnot_saturated (k : Knot) (x : Int) : (clampKnot k x).saturated = (k.saturated || clamps x) := by
  unfold clampKnot clamps knotMax
  split
  · simp [*]
  · split
    · have : 281474976710656 ≤ x := by omega
      simp [this]
    · have : ¬ 281474976710656 ≤ x := by omega
      simp [this]; omega

theorem clampKnot_lagging (k : Knot) (x : Int) : (clampKnot k x).lagging = k.lagging := by
  unfold clampKnot
  repeat (first | rfl | split)

/-- A wake joins the list, and reaches a descriptor's slot or a packet. -/
theorem deliverWake_frame (s : State) (w : Wake) : deliverWake s w = { s with
    wakes := s.wakes ++ [w], cores := (deliverWake s w).cores, packets := (deliverWake s w).packets } := by
  unfold deliverWake; cases w.issuer <;> rfl

theorem deliverWake_fold (l : List Waiter) (g : Waiter → Wake) (s : State) : ∃ cs ps,
    l.foldl (fun t w => deliverWake t (g w)) s = { s with wakes := s.wakes ++ l.map g, cores := cs, packets := ps } := by
  induction l generalizing s with
  | nil => exact ⟨s.cores, s.packets, by simp⟩
  | cons a l ih =>
    obtain ⟨cs, ps, h⟩ := ih (deliverWake s (g a))
    refine ⟨cs, ps, ?_⟩
    simp only [List.foldl_cons, h]
    rw [deliverWake_frame]
    simp [List.append_assoc]

/-- An operation on a device knot: the knot, the WAITs, and the frame. -/
theorem knotStep_spec (s : State) (n : Nat) (op : KnotOp) (lag : Bool)
    (hl : lag = match op with
      | .arrive _ l => l
      | _ => false) :
    tget (knotStep s n op).knots n = applyKnotOp (tget s.knots n) op ∧ WakesMet s (knotStep s n op) n lag ∧
    knotStep s n op = { s with
      knots := (knotStep s n op).knots, waiters := (knotStep s n op).waiters, wakes := (knotStep s n op).wakes,
      cores := (knotStep s n op).cores, packets := (knotStep s n op).packets } := by
  let met (w : Waiter) : Bool := w.knot == n && decide (w.target ≤ (applyKnotOp (tget s.knots n) op).value.toNat)
  let mark (w : Waiter) : Waiter := if w.knot = n then { w with laggingSeen := w.laggingSeen || lag } else w
  obtain ⟨cs, ps, h⟩ : ∃ cs ps, knotStep s n op = { s with
      knots := tmod s.knots n (fun k => applyKnotOp k op), waiters := (s.waiters.map mark).filter (fun w => !met w),
      wakes := s.wakes ++ ((s.waiters.map mark).filter met).map (fun w => {
        issuer := w.issuer, knot := n, value := (applyKnotOp (tget s.knots n) op).value.toNat, tag := w.tag,
        lagging := w.laggingSeen }),
      cores := cs, packets := ps } := by
    subst hl
    unfold knotStep wakeMet
    simp only [tget_tmod_self]
    obtain ⟨cs, ps, h⟩ := deliverWake_fold _ _ _
    exact ⟨cs, ps, h⟩
  have hm : met ∘ mark = met := by
    funext w
    simp only [Function.comp, met, mark]
    split <;> simp [*]
  rw [h]
  refine ⟨by simp, ⟨?_, ?_, ?_⟩, rfl⟩
  · simp [met, mark]
  · simp only [tget_tmod_self]
    rw [List.filter_map, List.map_map, hm]
    congr 1
    apply List.map_congr_left
    intro w hw
    have h2 : w.knot = n := by
      have := (List.mem_filter.mp hw).2
      simp only [met, Bool.and_eq_true, beq_iff_eq] at this
      exact this.1
    simp [Function.comp, mark, if_pos h2]
  · intro m hne
    simp [tget_tmod_other _ hne]

end Sys2Proof.Machine
end

