-- ==== Sys2Proof/Laws/Memory.lean ====
section
/-!
SUPPORT. Laws of device memory: reading after writing, and that every memory operation keeps the canonical form.
-/
namespace Sys2Proof.Machine

/-! ### Bytes -/

theorem cellByte_cellErase (l : List Host.Cell) (a j : Nat) :
    cellByte (cellErase l a) j = if j = a then 0 else cellByte l j := by
  induction l with
  | nil => simp [cellErase, cellByte]
  | cons e l ih =>
    obtain ⟨k, v⟩ := e
    by_cases hk : k = a
    · by_cases hj : j = a
      · subst hj; subst hk; simpa [cellErase] using ih
      · have h' : ¬ a = j := fun e => hj e.symm
        simp [cellErase, cellByte, hk, ih, hj, h']
    · by_cases hj : j = a
      · subst hj; simp [cellErase, cellByte, hk, ih]
      · simp [cellErase, cellByte, hk, ih, hj]

theorem cellByte_cellInsert (l : List Host.Cell) (a j : Nat) (b : Byte) :
    cellByte (cellInsert l a b) j = if j = a then b else cellByte l j := by
  induction l with
  | nil =>
    by_cases h : j = a
    · simp [cellInsert, cellByte, h]
    · have h' : ¬ a = j := fun e => h e.symm
      simp [cellInsert, cellByte, h, h']
  | cons e l ih =>
    obtain ⟨k, v⟩ := e
    by_cases h1 : a < k
    · by_cases h : j = a
      · simp [cellInsert, cellByte, h1, h]
      · have h' : ¬ a = j := fun e => h e.symm
        simp [cellInsert, cellByte, h1, h, h']
    · by_cases h2 : a = k
      · subst h2
        by_cases h : j = a
        · simp [cellInsert, cellByte, h]
        · have h' : ¬ a = j := fun e => h e.symm
          simp [cellInsert, cellByte, h, h']
      · by_cases h : j = a
        · subst h
          have h' : ¬ k = j := fun e => h2 e.symm
          simp [cellInsert, cellByte, h1, h2, h', ih]
        · simp [cellInsert, cellByte, h1, h2, ih, h]

/-- Reading one byte after one byte was written. -/
theorem cellByte_cellPut (l : List Host.Cell) (a j : Nat) (b : Byte) :
    cellByte (cellPut l a b) j = if j = a then b else cellByte l j := by
  unfold cellPut
  split
  · rename_i h; rw [cellByte_cellErase, h]
  · exact cellByte_cellInsert l a j b

/-- Reading one byte after bytes were written at ascending addresses. -/
theorem cellByte_cellPutAll (b : Bytes) : ∀ (l : List Host.Cell) (a j : Nat),
    cellByte (cellPutAll l a b) j = if a ≤ j ∧ j < a + b.length then b.getD (j - a) 0 else cellByte l j := by
  induction b with
  | nil =>
    intro l a j
    have h : ¬ (a ≤ j ∧ j < a + ([] : Bytes).length) := by rw [List.length_nil]; omega
    rw [if_neg h]; rfl
  | cons x t ih =>
    intro l a j
    rw [cellPutAll, ih, cellByte_cellPut]
    by_cases h : j = a
    · subst h
      have h1 : ¬ (j + 1 ≤ j ∧ j < j + 1 + t.length) := by omega
      have h2 : j ≤ j ∧ j < j + (x :: t).length := by simp
      simp only [h1, h2, if_false, and_self, if_true]
      simp
    · by_cases h1 : a + 1 ≤ j ∧ j < a + 1 + t.length
      · have h2 : a ≤ j ∧ j < a + (x :: t).length := by simp; omega
        have h3 : j - a = (j - (a + 1)) + 1 := by omega
        simp only [h1, h2, and_self, if_true]
        rw [h3]; simp
      · have h2 : ¬ (a ≤ j ∧ j < a + (x :: t).length) := by simp; omega
        simp only [h1, h2, h, if_false]

/-- A write changes exactly the bytes that it stores. -/
theorem readByte_writeBytes (m : Memory) (a j : Nat) (b : Bytes) :
    readByte (writeBytes m a b) j = if a ≤ j ∧ j < a + b.length then b.getD (j - a) 0 else readByte m j :=
  cellByte_cellPutAll b m.cells a j

/-- A change of a tag changes no byte. -/
@[simp] theorem readByte_setTag (m : Memory) (blk j : Nat) (t : Tag) : readByte (setTag m blk t) j = readByte m j := rfl

/-! ### The canonical form -/

theorem cellsWf_mono {lo lo' : Nat} (h : lo ≤ lo') : ∀ l : List Host.Cell, cellsWf lo' l = true → cellsWf lo l = true
  | [], _ => rfl
  | (k, v) :: t, w => by
    simp only [cellsWf, Bool.and_eq_true, decide_eq_true_eq] at w ⊢
    exact ⟨⟨by omega, w.1.2⟩, w.2⟩

theorem cellsWf_cellErase (a : Nat) : ∀ (lo : Nat) (l : List Host.Cell), cellsWf lo l = true → cellsWf lo (cellErase l a) = true
  | _, [], _ => rfl
  | lo, (k, v) :: t, w => by
    simp only [cellsWf, Bool.and_eq_true, decide_eq_true_eq] at w
    have ih := cellsWf_cellErase a (k + 1) t w.2
    simp only [cellErase]
    split
    · exact cellsWf_mono (by omega) _ ih
    · simp only [cellsWf, Bool.and_eq_true, decide_eq_true_eq]
      exact ⟨w.1, ih⟩

theorem cellsWf_cellInsert (a : Nat) {b : Byte} (hb : b ≠ 0) :
    ∀ (lo : Nat) (l : List Host.Cell), lo ≤ a → cellsWf lo l = true → cellsWf lo (cellInsert l a b) = true
  | lo, [], h, _ => by
    simp only [cellInsert, cellsWf, Bool.and_eq_true, decide_eq_true_eq, and_true]
    exact ⟨h, hb⟩
  | lo, (k, v) :: t, h, w => by
    simp only [cellsWf, Bool.and_eq_true, decide_eq_true_eq] at w
    simp only [cellInsert]
    split
    · rename_i hk
      simp only [cellsWf, Bool.and_eq_true, decide_eq_true_eq]
      exact ⟨⟨h, hb⟩, ⟨by omega, w.1.2⟩, w.2⟩
    · split
      · rename_i _ hk
        subst hk
        simp only [cellsWf, Bool.and_eq_true, decide_eq_true_eq]
        exact ⟨⟨h, hb⟩, w.2⟩
      · rename_i h1 h2
        simp only [cellsWf, Bool.and_eq_true, decide_eq_true_eq]
        exact ⟨w.1, cellsWf_cellInsert a hb (k + 1) t (by omega) w.2⟩

theorem cellsWf_cellPut (l : List Host.Cell) (a : Nat) (b : Byte) (w : cellsWf 0 l = true) :
    cellsWf 0 (cellPut l a b) = true := by
  unfold cellPut
  split
  · exact cellsWf_cellErase a 0 l w
  · rename_i h; exact cellsWf_cellInsert a h 0 l (by omega) w

theorem cellsWf_cellPutAll : ∀ (b : Bytes) (l : List Host.Cell) (a : Nat), cellsWf 0 l = true → cellsWf 0 (cellPutAll l a b) = true
  | [], _, _, w => w
  | x :: t, l, a, w => cellsWf_cellPutAll t _ _ (cellsWf_cellPut l a x w)

theorem cellsWf_filter (p : Host.Cell → Bool) :
    ∀ (lo : Nat) (l : List Host.Cell), cellsWf lo l = true → cellsWf lo (l.filter p) = true
  | _, [], _ => rfl
  | lo, (k, v) :: t, w => by
    simp only [cellsWf, Bool.and_eq_true, decide_eq_true_eq] at w
    have ih := cellsWf_filter p (k + 1) t w.2
    by_cases h : p (k, v)
    · simp only [List.filter_cons, h, if_true, cellsWf, Bool.and_eq_true, decide_eq_true_eq]
      exact ⟨w.1, ih⟩
    · simp only [List.filter_cons, h]
      exact cellsWf_mono (by omega) _ ih

theorem tagsWf_eq (lo : Nat) (t : Table Tag) : tagsWf lo t = tableWf lo t := by
  induction t generalizing lo with
  | nil => rfl
  | cons e t ih => obtain ⟨k, v⟩ := e; simp [tagsWf, tableWf, ih]

theorem tableWf_filter (p : Nat × Tag → Bool) :
    ∀ (lo : Nat) (l : Table Tag), tableWf lo l = true → tableWf lo (l.filter p) = true
  | _, [], _ => rfl
  | lo, (k, v) :: t, w => by
    simp only [tableWf, Bool.and_eq_true, decide_eq_true_eq] at w
    have ih := tableWf_filter p (k + 1) t w.2
    by_cases h : p (k, v)
    · simp only [List.filter_cons, h, if_true, tableWf, Bool.and_eq_true, decide_eq_true_eq]
      exact ⟨w.1, ih⟩
    · simp only [List.filter_cons, h]
      exact tableWf_mono (by omega) _ ih

/-- Writing bytes keeps the canonical form. -/
theorem writeBytes_wf (m : Memory) (a : Nat) (b : Bytes) (w : m.wf = true) : (writeBytes m a b).wf = true := by
  simp only [Memory.wf, Bool.and_eq_true] at w ⊢
  exact ⟨cellsWf_cellPutAll b _ a w.1, w.2⟩

/-- Writing a tag keeps the canonical form. -/
theorem setTag_wf (m : Memory) (blk : Nat) (t : Tag) (w : m.wf = true) : (setTag m blk t).wf = true := by
  simp only [Memory.wf, Bool.and_eq_true, tagsWf_eq] at w ⊢
  exact ⟨w.1, tableWf_tset _ _ _ w.2⟩

/-- Zero fill keeps the canonical form. -/
theorem zeroFill_wf (m : Memory) (a n : Nat) (w : m.wf = true) : (zeroFill m a n).wf = true := by
  simp only [Memory.wf, Bool.and_eq_true, tagsWf_eq] at w ⊢
  exact ⟨cellsWf_filter _ 0 _ w.1, tableWf_filter _ 0 _ w.2⟩

/-- Composed bytes keep the canonical form. -/
theorem composeInBlock_wf (m : Memory) (a : Nat) (b : Bytes) (w : m.wf = true) : (composeInBlock m a b).wf = true :=
  setTag_wf _ _ _ (writeBytes_wf m a b w)

theorem composeBytes_wf : ∀ (fuel : Nat) (m : Memory) (a : Nat) (b : Bytes), m.wf = true → (composeBytes fuel m a b).wf = true
  | 0, _, _, _, w => w
  | fuel + 1, m, a, b, w => by
    unfold composeBytes
    split
    · exact w
    · exact composeBytes_wf fuel _ _ _ (composeInBlock_wf m a _ w)

theorem compose_wf (m : Memory) (a : Nat) (b : Bytes) (w : m.wf = true) : (compose m a b).wf = true :=
  composeBytes_wf _ m a b w

/-- Damaged bits leave the canonical form. -/
theorem flipBits_wf (m : Memory) (blk : Nat) (bits : List Nat) (w : m.wf = true) : (flipBits m blk bits).wf = true := by
  unfold flipBits
  induction bits generalizing m with
  | nil => exact w
  | cons a l ih => exact ih _ (writeBytes_wf _ _ _ w)

/-- A generator's zeros keep the canonical form. -/
theorem zeroWhere_wf (m : Memory) (p : Nat → Bool) (w : m.wf = true) : (zeroWhere m p).wf = true := by
  simp only [Memory.wf, Bool.and_eq_true, tagsWf_eq] at w ⊢
  exact ⟨cellsWf_filter _ 0 _ w.1, tableWf_filter _ 0 _ w.2⟩

/-- Reset memory is in the canonical form. -/
theorem reset_memory_wf : State.reset.mem.wf = true := rfl

end Sys2Proof.Machine
end

