-- ==== Sys2Proof/Laws/Packets.lean ====
section
/-!
SUPPORT. What the operations on packets in flight do: an answer is written once, and a command runs when it may begin.
-/
namespace Sys2Proof.Machine

theorem firstThat_modFirst {l : List Packet} {p : Nat} {k : Packet} {f : Packet → Packet} (hf : ∀ j, (f j).id = j.id)
    (h : firstThat (fun j => j.id == p) l = some k) :
    firstThat (fun j => j.id == p) (modFirst (fun j => j.id == p) f l) = some (f k) := by
  induction l with
  | nil => simp [firstThat] at h
  | cons a l ih =>
    simp only [firstThat, modFirst] at h ⊢
    by_cases ha : (a.id == p) = true
    rotate_left
    · simp only [ha, Bool.false_eq_true, if_false] at h
      simp only [ha, Bool.false_eq_true, if_false, firstThat]
      exact ih h
    · simp only [ha, if_true, Option.some.injEq] at h
      subst h
      simp only [ha, if_true, firstThat, hf]

/-- Changing a packet in flight changes the packet that its identifier names. -/
theorem getPacket_modPacket {s : State} {p : Nat} {k : Packet} {f : Packet → Packet} (hf : ∀ j, (f j).id = j.id)
    (h : getPacket s p = some k) : getPacket (modPacket s p f) p = some (f k) := firstThat_modFirst hf h

/-- `finish` answers a packet that has no answer, and changes nothing but the packets in flight. -/
theorem answers_finish {s : State} {p : Nat} {k : Packet} {st : Nat} {r : Bytes} (h : getPacket s p = some k)
    (ha : k.answer = none) : Answers (finish s p st r) p st r := by
  unfold Answers answerOf finish
  rw [getPacket_modPacket (k := k) (by intro j; cases j.answer <;> rfl) h]
  simp [ha]

theorem finish_frame (s : State) (p st : Nat) (r : Bytes) : finish s p st r = { s with packets := (finish s p st r).packets } := rfl

/-- A packet that may begin has no answer. -/
theorem MayBegin.unanswered {s : State} {p op : Nat} {k : Packet} (m : MayBegin s p op k) : k.answer = none := by
  have h := m.waits
  simp only [waitsToStart, Bool.and_eq_true, Option.isNone_iff_eq_none] at h
  exact h.1.1

/-- `fail` without DETAIL answers with a RESULT of zeros. -/
theorem answers_fail {s : State} {p op st : Nat} {k : Packet} (m : MayBegin s p op k) : Answers (fail s p st) p st [] := by
  have h := answers_finish (st := st) (r := failResult 0 0 0) m.found m.unanswered
  unfold Answers at *
  rw [fail, h]
  rfl

/-- A command that may begin has its own effect. -/
theorem runCmd_of {s : State} {p op : Nat} {k : Packet} {f : Packet → State} (m : MayBegin s p op k) : runCmd s p op f = f k := by
  unfold runCmd
  rw [m.found]
  simp [m.opcode, m.waits, m.order, m.clocks, m.device, m.lead]

/-- A command that waits goes on with its own effect. -/
theorem onStarted_of {s : State} {p op : Nat} {k : Packet} {f : Packet → State} (h : getPacket s p = some k)
    (ho : k.opcode = op) (hs : k.started = true) (ha : k.answer = none) (hh : hubRuns s = true) : onStarted s p op f = f k := by
  unfold onStarted
  rw [h]
  simp [ho, hs, ha, hh]

end Sys2Proof.Machine
end

