-- ==== Sys2Proof/Tests/Slice0.lean ====
section
/-!
SUPPORT. Tests: an ill-formed command for each check of WellFormed, the witnesses that the hypotheses of the statements
are met together, and single steps. Expected values come from the manual's tables or by hand from its rules.
-/
namespace Sys2Proof.Tests
open Sys2Proof.Machine
set_option Elab.async false

/-! ### States and packets -/

/-- A device that has completed bring-up: H and the C-dies run, its regions are in service, the host is open. -/
def live : State := { State.reset with
  pins := { pwrok := true }
  pcie := { ready := true, phase := 7, linkUp := true, busMaster := true, msixEnable := true, msixUnmasked := [0, 1, 4] }
  regions := (List.range 16).map (fun r => (r, { enabled := true, homeN := 32 }))
  ports := (List.range 4).map (fun p => (p, { state := 2, modules := 16 }))
  flash := { licActive := [1] }
  boot := { licence := some { regions := 0xFFFF, weftLinks := 0xFFFF, privSlots := 1, maxPower := 900 } } }

/-- `live` with packets in flight. -/
def inFlight (s : State) (l : List Packet) : State := { s with packets := l, nextPacket := l.length + 1 }

/-- Bytes written inside one block, with the block's stored value. -/
def stored (m : Memory) (a : Nat) (b : Bytes) : Memory :=
  let m1 := writeBytes m a b
  setTag m1 (a / 256) { stored := storedValue (readBytes m1 (a / 256 * 256) 256) false, restarted := false }

/-- ARGS with fields of given packet offset, size and value. -/
def argsOf (l : List (Nat × Nat × Nat)) : Bytes :=
  l.foldl (fun b e => overlay b (e.1 - 0x10) (toBytes e.2.1 e.2.2)) (List.replicate 44 0)

/-- Packet 1 of ring 0. -/
def pkt (op context : Nat) (args : List (Nat × Nat × Nat)) (params : Bytes := []) : Packet :=
  { id := 1, src := .ring 0, opcode := op, context := context, args := argsOf args, params := params }

theorem mayBegin_of {s : State} {p op : Nat} {k : Packet} (h : (decide (getPacket s p = some k) && k.opcode == op
    && waitsToStart k && mayStart s k && hubRuns s && decide (deviceStatus s op = stOk)
    && !(commandLead s k).any (fun r => (getRegion s r).inReset)) = true) : MayBegin s p op k := by
  simp only [Bool.and_eq_true, Bool.not_eq_true', beq_iff_eq, decide_eq_true_eq] at h
  exact ⟨h.1.1.1.1.1.1, h.1.1.1.1.1.2, h.1.1.1.1.2, h.1.1.1.2, h.1.1.2, h.1.2, h.2⟩

theorem served_of {s : State} (h : (hubRuns s && !s.pcie.d3hot && (s.pcie.ready || s.pcie.topology)) = true) : Served s := by
  simp only [Bool.and_eq_true, Bool.not_eq_true'] at h
  exact ⟨h.1.1, h.1.2, h.2⟩

/-- Whether a block verifies, as a test. -/
def verifiesB (s : State) (blk : Nat) : Bool := !inSeqTable blk && !(tagOf s.mem blk).poison
  && (checkStored (readBytes s.mem (blk * 256) 256) (tagOf s.mem blk).stored).isSome

theorem verifies_of {s : State} {blk : Nat} (h : verifiesB s blk = true) : Verifies s blk := by
  simp only [verifiesB, Bool.and_eq_true, Bool.not_eq_true'] at h
  exact ⟨h.1.1, h.1.2, h.2⟩

theorem rangeVerifies_of {s : State} {a n : Nat} (h : (blocksOf a n).all (verifiesB s) = true) : RangeVerifies s a n :=
  fun blk hb => verifies_of (List.all_eq_true.mp h blk hb)

theorem all_verify {s : State} {l : List Nat} (h : l.all (verifiesB s) = true) : ∀ b ∈ l, Verifies s b :=
  fun b hb => verifies_of (List.all_eq_true.mp h b hb)

theorem others_verify {s : State} {l : List Nat} {b : Nat} (h : l.all (fun x => x == b || verifiesB s x) = true) :
    ∀ x ∈ l, x ≠ b → Verifies s x :=
  fun x hx hn => verifies_of ((Bool.or_eq_true _ _).mp (List.all_eq_true.mp h x hx) |>.resolve_left (by simpa using hn))

/-- `live` with two bytes in the staging memory, and the stored value of their block. -/
def storing : State := { live with mem := {
  cells := [(0xE008000000, 5), (0xE008000001, 6)]
  tags := [(0xE0080000, { stored := storedValue (5 :: 6 :: List.replicate 254 0) false, restarted := false })] } }

/-! ### Descriptors, a draft and a placed model -/

/-- A descriptor with fields of given bit positions and values. -/
def descOf (l : List (Nat × Nat)) : BitVec 512 := BitVec.ofNat 512 (l.foldl (fun n e => n + e.2 * 2 ^ e.1) 0)

/-- A 16-byte store operand at a byte of a descriptor (Table 06-11), packed, with extents. -/
def o16 (b addr fmt e0 e1 e2 : Nat) : List (Nat × Nat) :=
  [(8 * b, addr), (8 * b + 18, fmt), (8 * b + 32, e0), (8 * b + 48, e1), (8 * b + 64, e2)]

/-- A 20-byte operand at a byte of a descriptor (Table 06-10), packed, with extents and strides 1 and 2 in units of 32. -/
def o20 (b addr fmt e0 e1 e2 s1 s2 : Nat) : List (Nat × Nat) :=
  [(8 * b, addr), (8 * b + 40, fmt), (8 * b + 56, e0), (8 * b + 72, e1), (8 * b + 88, e2), (8 * b + 112, s1), (8 * b + 136, s2)]

/-- A draft of the given sections (Tables 06-1 to 06-3), each of at most 256 bytes, for one block, with one role. -/
def draftOf (caps farBytes : Nat) (secs : List (Nat × Bytes)) : Bytes :=
  let n := secs.length
  let tbl := (List.zip (List.range n) secs).flatMap (fun e => toBytes 2 e.2.1 ++ toBytes 6 0 ++ toBytes 8 (0x200 + 0x100 * e.1)
    ++ toBytes 8 e.2.2.length ++ toBytes 4 (crc32c e.2.2) ++ toBytes 4 0)
  let h0 := [(0, 4, 0x54465244), (5, 1, 1), (6, 2, 4), (8, 8, 0x200 + 0x100 * n), (0x10, 32, caps), (0x32, 1, 0xFF), (0x34, 2, 1), (0x36, 2, 1),
    (0x38, 2, n), (0x3C, 4, crc32c tbl), (0x50, 8, farBytes)].foldl (fun b e => overlay b e.1 (toBytes e.2.1 e.2.2))
      (List.replicate 252 0)
  h0 ++ toBytes 4 (crc32c h0) ++ padTo 256 tbl ++ secs.flatMap (fun e => padTo 256 e.2)

/-- A role map of one block whose core 0 alone runs a role, role 0 (R162). -/
def oneRole : Bytes := List.replicate 17 0 ++ List.replicate 63 0xFF

/-- A program of one descriptor, HALT (R162). -/
def haltProgram : Bytes := toBytes 2 0 ++ toBytes 2 1 ++ toBytes 60 0 ++ toBytes 64 0x3F

/-- A draft with no tiles. -/
def smallDraft : Bytes := draftOf 1 0 [(1, List.replicate 16 0), (2, oneRole), (3, haltProgram)]

/-- A gather of layer 0 and head group 0. -/
def gatherDesc : BitVec 512 := descOf ([(0, 0x21), (156, 3)] ++ o20 24 0 1 512 8 2 32 2304)

/-- A swatch configuration (Table 06-7): one layer, one head group, 8 tokens a page, BF16 keys and values. -/
def oneGroup : Bytes := toBytes 2 1 ++ toBytes 2 1 ++ toBytes 2 8 ++ toBytes 1 1 ++ toBytes 57 0

/-- A placed model on block 127 whose core 8128 is the home of the pair (0, 0). -/
def placedModel : ModelSlot :=
  { phase := .placed, weave := [127], programs := [[gatherDesc]]
    kept := [{ index := 1, type := 2, data := oneRole }, { index := 3, type := 7, data := oneGroup }] }

/-- `live` with that model in slot 1023, sequence 4095 open on it, and one of its pages in near frame 33292293 of core 8128. -/
def serving : State := { live with
  slots := [(1023, placedModel)]
  seqs := [(4095, { phase := .opened, modelSlot := 1023, length := 8, maxLength := 64, tokenLog := 0x85A0000000, homeRegion := 15 })]
  ptes := [(pteKey 4095 0 0 false 0, { state := .present, fn := 33292293 })]
  frames := [(frameKey 33292293, { allocated := true, refcount := 1, owner := 4095, modelSlot := 1023 })] }

/-- `serving` with core 8128 running a program of 4 descriptors, at descriptor 1, `d`. -/
def heldProgram : HeldProgram := { slot := 1023, base := 0, count := 4, entry := 0 }
def runs (d : BitVec 512) (c : Core := {}) : State := { serving with
  cores := [(8128, { c with seqr := .running, program := some heldProgram, queue := [heldProgram], pc := 1 })]
  mem := stored {} (queueAddr 8128 1) (toBytes 64 d.toNat) }

/-- `serving` with core 8128 running, a slot in each engine that a list names. -/
def issuing (c : Core) : State := { serving with
  cores := [(8128, { c with seqr := .running, program := some heldProgram, queue := [heldProgram], pc := 1 })] }

/-- MOVE of 8 FP32 elements in the store of core 8128. -/
def moveDesc (extra : List (Nat × Nat) := []) : BitVec 512 :=
  descOf ([(0, 0x20), (96, 2)] ++ o20 16 (storeBase 8128) 0 8 1 1 1 2 ++ o20 36 (storeBase 8128 + 4096) 0 8 1 1 1 2 ++ extra)
def moveSlot (extra : List (Nat × Nat) := []) : EngSlot :=
  { index := 1, desc := moveDesc extra, addrA := storeBase 8128, addrC := storeBase 8128 + 4096 }

/-- A knot descriptor of the move engine: opcode, knot, count or nothing, local flag. -/
def knotDesc (op knot count : Nat) (isLocal : Bool) : BitVec 512 :=
  descOf [(0, op), (96, 2), (128, knot), (144, count), (160, if isLocal then 1 else 0), (163, 4)]

/-! ### Vector rows and micro-operations -/

/-- Whether a row lies in a core's store and verifies, as a test. -/
def storeRowB (s : State) (core a fmt n : Nat) : Bool :=
  decide (core < 8192) && elemBits fmt != 4 && decide (storeBase core ≤ a)
    && decide (a + elemSize fmt * n ≤ storeBase core + 0x38000) && (blocksOf a (elemSize fmt * n)).all (verifiesB s)

theorem storeRow_of {s : State} {core a fmt n : Nat} (h : storeRowB s core a fmt n = true) : StoreRow s core a fmt n := by
  simp only [storeRowB, Bool.and_eq_true, decide_eq_true_eq, bne_iff_ne] at h
  exact ⟨h.1.1.1.1, h.1.1.1.2, ⟨h.1.1.2, h.1.2⟩, rangeVerifies_of h.2⟩

/-- An issued vector descriptor of 4 FP32 elements in the store of core 8191, and its state; C has `m`. -/
def vecSlot (op sub m b2 : Nat) : EngSlot :=
  { index := 1, state := .issued
    desc := descOf ([(0, op), (96, 2), (105, sub), (112, 4)] ++ o16 16 0 0 4 1 1 ++ o16 32 0x1000 0 4 1 b2 ++ o16 48 0x2000 0 m 1 1)
    addrA := storeBase 8191, addrB := storeBase 8191 + 0x1000, addrC := storeBase 8191 + 0x2000 }
def vecState (x : EngSlot) : State := { live with
  cores := [(8191, { seqr := .running, vecSlots := [x], vecIv := true })]
  mem := stored (stored {} (storeBase 8191) ([0x3F800000, 0xC0400000, 0x7F800000, 0x00000001].flatMap (toBytes 4)))
    (storeBase 8191 + 0x1000) ([0x40000000, 0x3F000000, 0xFF800000, 0x41200000].flatMap (toBytes 4)) }

/-- The blocks of those rows. -/
def vecBlocks : List Nat := [storeBase 8191 / 256, storeBase 8191 / 256 + 16, storeBase 8191 / 256 + 32]

set_option maxRecDepth 100000 in
theorem vecBlocks_verify (x : EngSlot) : vecBlocks.all (verifiesB (vecState x)) = true := by
  have h : vecBlocks.all (verifiesB (vecState { index := 0, desc := 0 })) = true := by decide +kernel
  exact h

/-- Whether a row lies in those blocks. -/
def vecInB (a fmt n : Nat) : Bool :=
  elemBits fmt != 4 && decide (storeBase 8191 ≤ a) && decide (a + elemSize fmt * n ≤ storeBase 8191 + 0x38000)
    && (blocksOf a (elemSize fmt * n)).all vecBlocks.contains

theorem vecStore (x : EngSlot) {a fmt n : Nat} (h : vecInB a fmt n = true) : StoreRow (vecState x) 8191 a fmt n := by
  simp only [vecInB, Bool.and_eq_true, decide_eq_true_eq, bne_iff_ne, List.all_eq_true] at h
  exact ⟨by decide, h.1.1.1, ⟨h.1.1.2, h.1.2⟩, fun blk hb => verifies_of (List.all_eq_true.mp (vecBlocks_verify x) blk
    (by simpa using h.2 blk hb))⟩

theorem vecRow_of {sub n m : Nat} {x : EngSlot} (h : issuedVec (getCore (vecState x) 8191) sub = some x ∧ 0 < n
    ∧ ((opd16 x.desc 16).e0 = n ∧ (opd16 x.desc 16).e1 = 1 ∧ (opd16 x.desc 16).e2 = 1 ∧ (opd16 x.desc 16).s0 = 0)
    ∧ ((opd16 x.desc 48).e0 = m ∧ (opd16 x.desc 48).e1 = 1 ∧ (opd16 x.desc 48).e2 = 1 ∧ (opd16 x.desc 48).s0 = 0)
    ∧ vecInB x.addrA (opd16 x.desc 16).fmt n = true ∧ vecInB x.addrC (opd16 x.desc 48).fmt m = true
    ∧ (subopUsesB sub = true → (opd16 x.desc 32).e0 = n ∧ (opd16 x.desc 32).e1 = 1 ∧ (opd16 x.desc 32).s0 = 0
      ∧ (opd16 x.desc 32).e2 = if sub = 0x1A then 2 else 1)
    ∧ (subopUsesB sub = true → ∀ q, q < (opd16 x.desc 32).e2 →
      vecInB (planeB x q) (opd16 x.desc 32).fmt n = true ∧ 0 ≤ (x.addrB : Int) + q * (opd16 x.desc 32).s2)) :
    VecRow (vecState x) 8191 sub n m x :=
  let ⟨h1, h2, h3, h4, h5, h6, h7, h8⟩ := h
  ⟨h1, h2, h3, h4, vecStore x h5, vecStore x h6, h7, fun hb q hq => ⟨vecStore x (h8 hb q hq).1, (h8 hb q hq).2⟩⟩

/-- A bobbin's bank 15 of channel 65535 in a run of one micro-operation, of a model with 512 near rows. -/
def oneUop (u : Word64) (b : Bobbin := {}) (ret : Option Nat := none) : BobRun :=
  { core := 8191, slotIndex := 1, bankMask := 0x8000, uops := [u], banks := [(15, { b with state := .active })]
    slot0 := some 15, retAddr := ret, retS1 := 1024, retS2 := 0 }
/-- Memory with 64 bytes of that bank. -/
def uopMem : Memory := stored {} 0x7FFFF80000 ((List.range 64).map (fun i => BitVec.ofNat 8 (i * 7 + 1)))
def uopState (r : BobRun) : State := { live with
  slots := [(1023, { phase := .placed, header := toBytes 58 0 ++ toBytes 2 512 })]
  cores := [(8191, { seqr := .running, program := some heldProgram, moveSlots := [{ index := 1, desc := descOf [(0, 0x22)], state := .issued }] })]
  chans := [(65535, { run := some r })]
  mem := uopMem }

theorem uopDue_of {s : State} {ch slot bank : Nat} {r : BobRun} {b : Bobbin} {u : Word64}
    (h : (getChan s ch).run = some r ∧ slotBank r slot = some bank ∧ tget r.banks bank = b ∧ b.state = .active
      ∧ r.uops[b.upc]? = some u ∧ r.score = false ∧ b.done = 0) : UopDue s ch slot r bank b u :=
  ⟨h.1, h.2.1, h.2.2.1, h.2.2.2.1, h.2.2.2.2.1, h.2.2.2.2.2.1, h.2.2.2.2.2.2⟩

/-- The first 64 column words of that bank. -/
def uopBlocks : List Nat := (List.range 8).map (0x7FFFF800 + ·)

set_option maxRecDepth 100000 in
theorem uopBlocks_verify : uopBlocks.all (verifiesB (uopState (oneUop 0))) = true := by decide +kernel

theorem uopRange {s : State} (hm : s.mem = uopMem) {a n : Nat} (h : (blocksOf a n).all uopBlocks.contains = true) :
    RangeVerifies s a n := by
  intro blk hb
  have h1 : verifiesB s blk = verifiesB (uopState (oneUop 0)) blk := by simp only [verifiesB, hm]; rfl
  exact verifies_of (h1.trans (List.all_eq_true.mp uopBlocks_verify blk (by simpa using List.all_eq_true.mp h blk hb)))

def uop (l : List (Nat × Nat)) : Word64 := BitVec.ofNat 64 (l.foldl (fun n e => n + e.2 * 2 ^ e.1) 0)

set_option maxRecDepth 100000 in
/-- Memory that nothing has written verifies outside the sequence table. -/
theorem zero_verifies {s : State} (hm : s.mem = {}) {blk : Nat} (h : inSeqTable blk = false) : Verifies s blk := by
  have hb : readBytes s.mem (blk * 256) 256 = List.replicate 256 0 := by
    rw [hm, readBytes, List.eq_replicate_iff]
    exact ⟨by rw [List.length_map, List.length_range], fun b hb => by
      obtain ⟨i, _, rfl⟩ := List.mem_map.mp hb; rfl⟩
  have h0 : verifiesB live 0 = true := by decide +kernel
  have v := verifies_of h0
  refine ⟨h, by rw [hm]; exact v.clean, ?_⟩
  have h2 : (checkStored (List.replicate 256 0) (tagOf live.mem 0).stored).isSome = true := by decide +kernel
  rw [hb, hm]
  exact h2

theorem zero_all {s : State} (hm : s.mem = {}) {l : List Nat} (h : l.all (fun b => !inSeqTable b) = true) :
    ∀ b ∈ l, Verifies s b :=
  fun b hb => zero_verifies hm (by simpa using List.all_eq_true.mp h b hb)

theorem zero_range {s : State} (hm : s.mem = {}) {a n : Nat} (h : seqTableBase + 4096 * 256 ≤ a ∨ a + n ≤ seqTableBase) :
    RangeVerifies s a n := by
  intro blk hb
  refine zero_verifies hm ?_
  have hs : seqTableBase = seqTableBase / 256 * 256 := by decide
  unfold blocksOf at hb
  split at hb
  · cases hb
  · obtain ⟨i, hi, rfl⟩ := List.mem_map.mp hb
    rw [List.mem_range] at hi
    simp only [inSeqTable, Bool.and_eq_false_iff, decide_eq_false_iff_not]
    omega

/-! ### Packets as bytes, weft flits and messages -/

/-- A 64-byte packet with a good check value. -/
def wirePacket (op : Nat) (args : List (Nat × Nat × Nat)) : Bytes :=
  let h := (toBytes 2 op ++ toBytes 2 0 ++ toBytes 4 0x1234 ++ List.replicate 8 0 ++ (argsOf args).take 44)
  h ++ toBytes 4 (crc32c h)

/-- A weft flit of a header and a control word, with a good CRC-32. -/
def wireFlit (h : Nat) (cw : Bytes) : Bytes :=
  let b := toBytes 6 h ++ List.replicate 242 0
  b ++ toBytes 4 (crc32 b) ++ cw

/-- The start of a topology table: device 7, whose link 15 leads to link 2 of device 9, WIDTH_REQ 8. -/
def meshTable : Bytes :=
  List.replicate 8 0 ++ toBytes 4 7 ++ List.replicate 292 0 ++ toBytes 4 9 ++ [2, 8] ++ List.replicate 2094 0 ++ toBytes 4 31

/-- That device with link 15 in service and a message of device 9 received on it. -/
def meshLink : WeftLink :=
  { state := 2, width := 3, lanes := 0xFF, credits := [64, 64, 64, 64]
    remote := some { device := 9, unnumbered := false, link := 2, manager := false, generation := 0 } }
def mesh (k : WeftLink) : State := { live with weft := { table := some meshTable, ownManager := some 9, links := [(15, k)] } }
def meshMsg (kind : Nat) (spec : Nat) (body : Bytes := []) : Msg :=
  { dest := 7, src := 9, kind := kind, spec := BitVec.ofNat 128 spec, body := body }
def gets (m : Msg) : State := mesh { meshLink with rxMsgs := [m] }
def taken (s : State) (kind : Nat) : State :=
  ((takeMsg s 15 (fun x => x.kind == kind && forHere s 15 x)).getD ({}, s)).2
def wackMsg (st : Nat) : Msg := { dest := 9, src := 7, kind := 4, vc := 1, spec := BitVec.ofNat 128 (77 + st * 65536) }
def linkOf (r : Route) : Nat × Msg := match r with | .link x y => (x, y) | _ => (0, {})

/-! ### Eweum flits and messages -/

/-- A whole Eweum flit with a good CRC-32C. -/
def wireEw (h : Nat) (payload : Bytes) : Bytes :=
  let b := toBytes 4 h ++ padTo 248 payload
  b ++ toBytes 4 (crc32c b)
def ewLink : EwModule := { credits := [64, 64, 16, 32] }

/-- `live` with H's end of module 15 of port 3. -/
def ewState (k : EwModule) : State := { live with ports := [(3, { state := 2, modules := 16, links := [(31, k)] })] }
def ewMsg : EwMessage := { fromHub := false, tag := 7, addr := 0xE008000100, blocks := 1, status := 0, data := [], poison := [] }

/-- `live` with the partner die in service, which may read and write memory, use knots and answer. -/
def partner : State := { live with
  ports := live.ports ++ [(6, { state := 2, modules := 4 })]
  dies := [(5, { agreed := 0x700000000000000000000000000000000 })] }

/-! ### Well-formed commands

An operand just past each range is refused, and the last value of each range is accepted. -/

theorem test_illFormed_0 : ([
    .rscSnapshot 2,
    .rscErrlogRead 2,
    .rscTelemRead 2,
    .rscRegionReset 2,
    .rscWarmReset 2,
    .rscLinkDisable 2,
    .rscThermalStop 2,
    .rescueGo 2,
    .sqTail 64 0,
    .cqHead 64 0,
    .packetFetch 64 default,
    .cqCoalesceTimer 64,
    .sqEnable 64 0,
    .sqDisable 64,
    .cqEnable 64 0,
    .cqDisable 64,
    .registerWrite default 3 0,
    .rcRegisterRead default 3,
    .controlApertureAccess 0 3 none,
    .chkStart 48 0,
    .chkCtrlWrite 48 0,
    .chkDataWrite 48 0 [],
    .chkResultRead 48 false,
    .chkOwnerWrite 48 0,
    .tgStart 65536 0,
    .tgStop 65536,
    .tgRunEnd 65536 default [],
    .farTgStart 512 0,
    .farTgStop 512,
    .farTgRunEnd 512 default [],
    .coreSelfFence 8192,
    .blockHeartbeatMiss 128,
    .regionHeartbeatMiss 16,
    .coreReset 8192 default,
    .blockReset 128 default,
    .regionReset 16 default,
    .mLayerReset 4 0,
    .mLayerReset 0 8,
    .cDieReset 4,
    .memoryRead (.engine 8192 .move) 0 0 []] : List Instr).all (fun i => !WellFormed i) = true := by decide +kernel

theorem test_illFormed_1 : ([
    .memoryRead .management 1099511627776 0 [],
    .memoryRead .management 1099511627775 2 [],
    .memoryWrite (.engine 8192 .move) 0 [] false [],
    .memoryWrite .management 1099511627776 [] false [],
    .memoryWrite .management 1099511627775 [0, 0] false [],
    .farCorrectionWriteback 512,
    .wbReweight 7,
    .refreshDue 65536 0 false,
    .refreshDue 0 16 false,
    .scrubRead 65536 0 0 [],
    .scrubRead 0 16 0 [],
    .scrubRead 0 0 512 [],
    .bandFall 4 0,
    .bandFall 0 8,
    .throttleFall 8,
    .stackReadoutMissing 8,
    .telemMissHold 4,
    .telemLost 4,
    .sensorNoReading 530,
    .sensorFaultDecision 530 0,
    .sensorFaultDecision 0 530,
    .sensorSuspectClear 530,
    .sensorSuspectFaulty 530,
    .rungRise 16,
    .cDieTrip 4,
    .mLayerTrip 4 0,
    .mLayerTrip 0 8,
    .programStart 8192,
    .weaveSwitch 1024,
    .descriptorDispatch 8192 [],
    .descriptorIssue 8192 .array,
    .descriptorComplete 8192 .array 0,
    .programAbort 8192,
    .arrayMm 8192 [] none,
    .arrayDrain 8192,
    .drainColumnWrite 8192 0 0 0,
    .drainColumnWrite 0 16 0 0,
    .coreStoreReadReturn 8192 0 0 none 0,
    .coreStoreReadReturn 0 32 0 none 0,
    .fma 8192 []] : List Instr).all (fun i => !WellFormed i) = true := by decide +kernel

theorem test_illFormed_2 : ([
    .vecAdd 8192 [],
    .sub 8192 [],
    .vecMul 8192 [],
    .min 8192 [],
    .vecMax 8192 [],
    .exp 8192 [],
    .rcp 8192 [],
    .rsqrt 8192 [],
    .silu 8192 [],
    .gelu 8192 [],
    .reduceSum 8192 [],
    .reduceMax 8192 [],
    .softmax 8192 [],
    .rmsnorm 8192 [],
    .layernorm 8192 [],
    .convert 8192 [],
    .split 8192 [],
    .topk 8192 [],
    .move 8192 [],
    .attnGather 8192 [],
    .bobbinSeq 8192,
    .swatchScore 8192 [],
    .knotArrive 8192,
    .descKnotWait 8192,
    .loop 8192 [],
    .halt 8192 [],
    .admissionGrant 16 [],
    .processorModeExit 65536 [],
    .rmsnBarrierRelease 65536,
    .nop 65536 0,
    .nop 0 2,
    .endRun 65536 0,
    .endRun 0 2,
    .uopLoop 65536 0,
    .uopLoop 0 2,
    .setp 65536 0,
    .setp 0 2,
    .ldv 65536 0 [],
    .ldv 0 2 [],
    .clr 65536 0] : List Instr).all (fun i => !WellFormed i) = true := by decide +kernel

theorem test_illFormed_3 : ([
    .clr 0 2,
    .mac 65536 0 [] 0,
    .mac 0 2 [] 0,
    .macw 65536 0 [] 0,
    .macw 0 2 [] 0,
    .scl 65536 0 [],
    .scl 0 2 [],
    .uopAdd 65536 0 [],
    .uopAdd 0 2 [],
    .mul 65536 0 [],
    .mul 0 2 [],
    .max 65536 0 [],
    .max 0 2 [],
    .wb16 65536 0,
    .wb16 0 2,
    .wb32 65536 0,
    .wb32 0 2,
    .expt 65536 0,
    .expt 0 2,
    .rsq 65536 0,
    .rsq 0 2,
    .sumsq 65536 0 [] 0,
    .sumsq 0 2 [] 0,
    .eadd 65536 0 [] 0,
    .eadd 0 2 [] 0,
    .emul 65536 0 [] 0,
    .emul 0 2 [] 0,
    .rmsn 65536 0 [] 0,
    .rmsn 0 2 [] 0,
    .arrive .management (.device 0) 65536 false,
    .arrive (.engine 8192 .move) (.device 0) 1 false,
    .arrive .management (.device 65536) 1 false,
    .arrive .management (.localTo 0 32) 1 false,
    .arrive .management (.device 0) 0 false,
    .wait .management (.device 0) 281474976710656,
    .wait (.engine 8192 .move) (.device 0) 0,
    .wait .management (.device 65536) 0,
    .wait .management (.localTo 0 32) 0,
    .waitRetry .management 65536,
    .waitRetry (.engine 8192 .move) 0] : List Instr).all (fun i => !WellFormed i) = true := by decide +kernel

theorem test_illFormed_4 : ([
    .set .management (.device 0) 281474976710656,
    .set (.engine 8192 .move) (.device 0) 0,
    .set .management (.device 65536) 0,
    .set .management (.localTo 0 32) 0,
    .add .management (.device 0) 140737488355328,
    .add (.engine 8192 .move) (.device 0) 0,
    .add .management (.device 65536) 0,
    .add .management (.localTo 0 32) 0,
    .add .management (.device 0) (-140737488355329),
    .add .management (.device 0) 140737488355328,
    .query (.engine 8192 .move) (.device 0),
    .query .management (.device 65536),
    .query .management (.localTo 0 32),
    .collReduce 256 [] [],
    .collPeerReduce 256 0 [],
    .collPeerReduce 0 64 [],
    .stepBatchBuild 1024 default [],
    .stepBatchStart 1024,
    .stepBatchCommit 1024 [],
    .gatherPin 4096 0 0 0,
    .gatherPin 0 256 0 0,
    .gatherPin 0 0 256 0,
    .gatherPin 0 0 0 65536,
    .gatherUnpin 16 0,
    .gatherUnpin 0 4194304,
    .pageWrite 4096 0 0 0 0 [],
    .pageWrite 0 256 0 0 0 [],
    .pageWrite 0 0 256 0 0 [],
    .pageWrite 0 0 0 65536 0 [],
    .pageRelease 4096 0 0 0,
    .pageRelease 0 256 0 0,
    .pageRelease 0 0 256 0,
    .pageRelease 0 0 0 65536,
    .rootEntryRequest 16 0 0 0,
    .rootEntryRequest 0 4096 0 0,
    .rootEntryRequest 0 0 256 0,
    .rootEntryRequest 0 0 0 256,
    .frameLossWalk 16 0,
    .frameLossWalk 0 4194304,
    .poisonPageDrop 16 0] : List Instr).all (fun i => !WellFormed i) = true := by decide +kernel

theorem test_illFormed_5 : ([
    .poisonPageDrop 0 4194304,
    .weftFrame 16 [[], [], [], []],
    .weftFrame 0 [[], [], []],
    .weftDataFlit 16 (List.replicate 256 0),
    .weftDataFlit 0 (List.replicate 255 0),
    .weftAckTimer 16,
    .weftResendTimeout 16,
    .linkRetrain 16 0,
    .identityFlit 16 default,
    .packet 17,
    .reply 17,
    .write 17,
    .wack 17,
    .notice 17,
    .replyAck 17,
    .transitForward 17,
    .liveMissingTimeout 262144,
    .vcStallTimeout 16 0,
    .vcStallTimeout 0 4,
    .ewDataFlit 7 0 false (List.replicate 256 0) none,
    .ewDataFlit 0 16 false (List.replicate 256 0) none,
    .ewDataFlit 0 0 false (List.replicate 255 0) none,
    .ewCtrlFlit 7 0 false (List.replicate 256 0),
    .ewCtrlFlit 0 16 false (List.replicate 256 0),
    .ewCtrlFlit 0 0 false (List.replicate 255 0),
    .ewAckTimer 7 0 false,
    .ewAckTimer 0 16 false,
    .ewResendTimeout 7 0 false,
    .ewResendTimeout 0 16 false,
    .ewRead 7 default [],
    .ewWrite 7 default [],
    .ewCompletion 7 default,
    .ewKnotOp 7 default .query,
    .ewKnotWake 7 default,
    .ewControl 7 .clockStop,
    .ewTransit 7 false (List.replicate 256 0),
    .ewTransit 0 false (List.replicate 255 0),
    .telem 4 default,
    .telemMissTimer 6,
    .strapsRead 6 default] : List Instr).all (fun i => !WellFormed i) = true := by decide +kernel

theorem test_illFormed_6 : ([
    .resetReq 6 .cDie,
    .resetDone 6 .cDie 0,
    .repairReq 7 0 false 0 false,
    .repairReq 0 16 false 0 false,
    .repairReq 0 0 false 64 false,
    .repairDone 7 0 false,
    .repairDone 0 16 false,
    .holdOut 6,
    .farEndLinkTraining 16 default,
    .rescueReplyBusy 2 0,
    .coreStoreReadReturn 0 0 11 none 0,
    .coreStoreReadReturn 0 0 35 (some (0, 0, 0)) 0,
    .query (.weftRx 16 0) (.device 0),
    .query (.weftRx 0 4) (.device 0),
    .query (.bobbins 65536) (.device 0),
    .query (.regionCtl 16) (.device 0),
    .query (.pageService 16) (.device 0),
    .query (.reduction 256) (.device 0),
    .query .management (.remote 262144 0),
    .query .management (.remote 0 65536),
    .query .management (.localTo 8192 0)] : List Instr).all (fun i => !WellFormed i) = true := by decide +kernel

theorem test_wellFormed_0 : ([
    .rscSnapshot 1,
    .rscErrlogRead 1,
    .rscTelemRead 1,
    .rscRegionReset 1,
    .rscWarmReset 1,
    .rscLinkDisable 1,
    .rscThermalStop 1,
    .rescueGo 1,
    .sqTail 63 0,
    .cqHead 63 0,
    .packetFetch 63 default,
    .cqCoalesceTimer 63,
    .sqEnable 63 0,
    .sqDisable 63,
    .cqEnable 63 0,
    .cqDisable 63,
    .chkStart 47 0,
    .chkCtrlWrite 47 0,
    .chkDataWrite 47 0 [],
    .chkResultRead 47 false,
    .chkOwnerWrite 47 0,
    .tgStart 65535 0,
    .tgStop 65535,
    .tgRunEnd 65535 default [],
    .farTgStart 511 0,
    .farTgStop 511,
    .farTgRunEnd 511 default [],
    .coreSelfFence 8191,
    .blockHeartbeatMiss 127,
    .regionHeartbeatMiss 15,
    .coreReset 8191 default,
    .blockReset 127 default,
    .regionReset 15 default,
    .mLayerReset 3 0,
    .mLayerReset 0 7,
    .cDieReset 3,
    .memoryRead (.engine 8191 .move) 0 0 [],
    .memoryRead .management 1099511627775 1 [],
    .memoryWrite (.engine 8191 .move) 0 [] false [],
    .memoryWrite .management 1099511627775 [0] false []] : List Instr).all WellFormed = true := by decide +kernel

theorem test_wellFormed_1 : ([
    .farCorrectionWriteback 511,
    .wbReweight 6,
    .refreshDue 65535 0 false,
    .refreshDue 0 15 false,
    .scrubRead 65535 0 0 [],
    .scrubRead 0 15 0 [],
    .scrubRead 0 0 511 [],
    .bandFall 3 0,
    .bandFall 0 7,
    .throttleFall 7,
    .stackReadoutMissing 7,
    .telemMissHold 3,
    .telemLost 3,
    .sensorNoReading 529,
    .sensorFaultDecision 529 0,
    .sensorFaultDecision 0 529,
    .sensorSuspectClear 529,
    .sensorSuspectFaulty 529,
    .rungRise 15,
    .cDieTrip 3,
    .mLayerTrip 3 0,
    .mLayerTrip 0 7,
    .programStart 8191,
    .weaveSwitch 1023,
    .descriptorDispatch 8191 [],
    .descriptorIssue 8191 .array,
    .descriptorComplete 8191 .array 0,
    .programAbort 8191,
    .arrayMm 8191 [] none,
    .arrayDrain 8191,
    .drainColumnWrite 8191 0 0 0,
    .drainColumnWrite 0 15 0 0,
    .coreStoreReadReturn 8191 0 0 none 0,
    .coreStoreReadReturn 0 31 0 none 0,
    .fma 8191 [],
    .vecAdd 8191 [],
    .sub 8191 [],
    .vecMul 8191 [],
    .min 8191 [],
    .vecMax 8191 []] : List Instr).all WellFormed = true := by decide +kernel

theorem test_wellFormed_2 : ([
    .exp 8191 [],
    .rcp 8191 [],
    .rsqrt 8191 [],
    .silu 8191 [],
    .gelu 8191 [],
    .reduceSum 8191 [],
    .reduceMax 8191 [],
    .softmax 8191 [],
    .rmsnorm 8191 [],
    .layernorm 8191 [],
    .convert 8191 [],
    .split 8191 [],
    .topk 8191 [],
    .move 8191 [],
    .attnGather 8191 [],
    .bobbinSeq 8191,
    .swatchScore 8191 [],
    .knotArrive 8191,
    .descKnotWait 8191,
    .loop 8191 [],
    .halt 8191 [],
    .admissionGrant 15 [],
    .processorModeExit 65535 [],
    .rmsnBarrierRelease 65535,
    .nop 65535 0,
    .nop 0 1,
    .endRun 65535 0,
    .endRun 0 1,
    .uopLoop 65535 0,
    .uopLoop 0 1,
    .setp 65535 0,
    .setp 0 1,
    .ldv 65535 0 [],
    .ldv 0 1 [],
    .clr 65535 0,
    .clr 0 1,
    .mac 65535 0 [] 0,
    .mac 0 1 [] 0,
    .macw 65535 0 [] 0,
    .macw 0 1 [] 0] : List Instr).all WellFormed = true := by decide +kernel

theorem test_wellFormed_3 : ([
    .scl 65535 0 [],
    .scl 0 1 [],
    .uopAdd 65535 0 [],
    .uopAdd 0 1 [],
    .mul 65535 0 [],
    .mul 0 1 [],
    .max 65535 0 [],
    .max 0 1 [],
    .wb16 65535 0,
    .wb16 0 1,
    .wb32 65535 0,
    .wb32 0 1,
    .expt 65535 0,
    .expt 0 1,
    .rsq 65535 0,
    .rsq 0 1,
    .sumsq 65535 0 [] 0,
    .sumsq 0 1 [] 0,
    .eadd 65535 0 [] 0,
    .eadd 0 1 [] 0,
    .emul 65535 0 [] 0,
    .emul 0 1 [] 0,
    .rmsn 65535 0 [] 0,
    .rmsn 0 1 [] 0,
    .arrive .management (.device 0) 65535 false,
    .arrive (.engine 8191 .move) (.device 0) 1 false,
    .arrive .management (.localTo 8191 31) 1 false,
    .wait .management (.device 0) 281474976710655,
    .wait (.engine 8191 .move) (.device 0) 0,
    .wait .management (.localTo 8191 31) 0,
    .waitRetry .management 65535,
    .waitRetry (.engine 8191 .move) 0,
    .set .management (.device 0) 281474976710655,
    .set (.engine 8191 .move) (.device 0) 0,
    .set .management (.localTo 8191 31) 0,
    .add .management (.device 0) 140737488355327,
    .add (.engine 8191 .move) (.device 0) 0,
    .add .management (.localTo 8191 31) 0,
    .add .management (.device 0) (-140737488355328),
    .query (.engine 8191 .move) (.device 0)] : List Instr).all WellFormed = true := by decide +kernel

theorem test_wellFormed_4 : ([
    .query .management (.localTo 8191 31),
    .collReduce 255 [] [],
    .collPeerReduce 255 0 [],
    .collPeerReduce 0 63 [],
    .stepBatchBuild 1023 default [],
    .stepBatchStart 1023,
    .stepBatchCommit 1023 [],
    .gatherPin 4095 0 0 0,
    .gatherPin 0 255 0 0,
    .gatherPin 0 0 255 0,
    .gatherPin 0 0 0 65535,
    .gatherUnpin 15 0,
    .gatherUnpin 0 4194303,
    .pageWrite 4095 0 0 0 0 [],
    .pageWrite 0 255 0 0 0 [],
    .pageWrite 0 0 255 0 0 [],
    .pageWrite 0 0 0 65535 0 [],
    .pageRelease 4095 0 0 0,
    .pageRelease 0 255 0 0,
    .pageRelease 0 0 255 0,
    .pageRelease 0 0 0 65535,
    .rootEntryRequest 15 0 0 0,
    .rootEntryRequest 0 4095 0 0,
    .rootEntryRequest 0 0 255 0,
    .rootEntryRequest 0 0 0 255,
    .frameLossWalk 15 0,
    .frameLossWalk 0 4194303,
    .poisonPageDrop 15 0,
    .poisonPageDrop 0 4194303,
    .weftFrame 15 [[], [], [], []],
    .weftDataFlit 15 (List.replicate 256 0),
    .weftAckTimer 15,
    .weftResendTimeout 15,
    .linkRetrain 15 0,
    .identityFlit 15 default,
    .packet 16,
    .reply 16,
    .write 16,
    .wack 16,
    .notice 16] : List Instr).all WellFormed = true := by decide +kernel

theorem test_wellFormed_5 : ([
    .replyAck 16,
    .transitForward 16,
    .liveMissingTimeout 262143,
    .vcStallTimeout 15 0,
    .vcStallTimeout 0 3,
    .ewDataFlit 6 0 false (List.replicate 256 0) none,
    .ewDataFlit 0 15 false (List.replicate 256 0) none,
    .ewCtrlFlit 6 0 false (List.replicate 256 0),
    .ewCtrlFlit 0 15 false (List.replicate 256 0),
    .ewAckTimer 6 0 false,
    .ewAckTimer 0 15 false,
    .ewResendTimeout 6 0 false,
    .ewResendTimeout 0 15 false,
    .ewRead 6 default [],
    .ewWrite 6 default [],
    .ewCompletion 6 default,
    .ewKnotOp 6 default .query,
    .ewKnotWake 6 default,
    .ewControl 6 .clockStop,
    .ewTransit 6 false (List.replicate 256 0),
    .telem 3 default,
    .telemMissTimer 5,
    .strapsRead 5 default,
    .resetReq 5 .cDie,
    .resetDone 5 .cDie 0,
    .repairReq 6 0 false 0 false,
    .repairReq 0 15 false 0 false,
    .repairReq 0 0 false 63 false,
    .repairDone 6 0 false,
    .repairDone 0 15 false,
    .holdOut 5,
    .farEndLinkTraining 15 default,
    .rescueReplyBusy 1 0,
    .coreStoreReadReturn 0 0 10 none 0,
    .coreStoreReadReturn 0 0 34 (some (0, 0, 0)) 0] : List Instr).all WellFormed = true := by decide +kernel

/-! ### Single steps: the worked examples and tables of the spec -/

/-- What a command answers, as a test reads it. -/
def after (o : Host.Outcome State Fault Refusal) : State :=
  match o with
  | .next t => t
  | _ => {}

/-- The nine ASCII bytes "123456789" (Table 03-7). -/
def nine : Bytes := [0x31, 0x32, 0x33, 0x34, 0x35, 0x36, 0x37, 0x38, 0x39]

/-- R66 and Table 03-7: the CRC-32C and CRC-32 of the nine bytes. -/
theorem test_crc_32 : (crc32c nine, crc32 nine) = (0xE3069283, 0xCBF43926) := by decide +kernel

/-- A check unit that has taken the nine bytes but the last. -/
def unitBefore (poly : BitVec 2) (on refl : Bool) : ChkUnit :=
  chkWriteData (chkWriteData (chkWriteCtrl {} (poly.toNat + 4 * b2n on + 8 * b2n refl + 16 * b2n refl + 256)) 0x10 (nine.take 4))
    0x10 ((nine.drop 4).take 4)

/-- Table 03-7: CHK_DATA_WRITE of the last byte, in each row of the table. -/
theorem test_chkDataWrite_results :
    [(0, true, true), (1, true, true), (2, false, false), (2, true, true), (3, true, false), (3, false, false)].map
      (fun (r : BitVec 2 × Bool × Bool) =>
        chkResult (chkDrain (tget (after (execChkDataWrite 3 0x10 [0x39] { live with chk := [(3, unitBefore r.1 r.2.1 r.2.2)] })).chk 3)))
      = [0xE3069283, 0xCBF43926, 0x6C40DF5F0B497347, 0x995DC9BBDF1939FA, 0x29B1, 0x31C3] := by decide +kernel

/-- The worked example after R108: CHK_STATUS3 reads 0x0000_0900 after the ninth byte. -/
theorem test_chkDataWrite_status :
    chkStatus (chkDrain (tget (after (execChkDataWrite 3 0x10 [0x39] { live with chk := [(3, unitBefore 3 true false)] })).chk 3))
      = 0x900 := by decide +kernel

/-- The worked example after R27: core 5,000 is on C2, in device region 9. -/
theorem test_core_5000 : (dieOfCore 5000, regionOfCore 5000, 5000 / 64, 5000 % 64) = (2, 9, 78, 8) := by decide

/-- The worked example of "Near memory" in spec/02: address 0x4E_21D1_2340 is row 0x48 of bank 10 of layer 3 of core 5,000. -/
theorem test_placeOf_near : placeOf 0x4E21D12340 = .near 5000 3 10 0x48 := by decide +kernel

/-- The worked example of spec/09: data offset 0x1_2345_6780 of region 9 lies on pseudo-channel 22 of stack 4, at local
address 0x91A_2F80. -/
theorem test_far_offset : (pcOf live 9 0x123456780, localOf live 9 0x123456780) = (4 * 64 + 22, 0x91A2F80) := by decide +kernel

/-- The worked example of spec/05: 5.0, −1.3 (as FP32) and 0.1 (as FP32) to E2M1, to nearest even. -/
theorem test_convert_e2m1 :
    [0x40A00000, 0xBFA66666, 0x3DCCCCCD].map (fun w => (encodeElem 7 .nearest false (valOf w)).1) = [0x6, 0xB, 0x0] := by
  decide +kernel

/-- The first K indices of the worked example after R133: (1 + 2i)(2 + i) + (3 − i)(1 + i) = 4 + 7i, pass by pass. -/
theorem test_fma_passes :
    let two := 0x40000000; let one := 0x3F800000; let three := 0x40400000
    let f := fun (a b c : Word) => (fp32Fma a b c).1
    (f (fp32Neg 0xBF800000) one (f (fp32Neg two) one (f three one (f one two 0))),
     f 0xBF800000 one (f two two (f three one (f one one 0)))) = (0x40800000, 0x40E00000) := by decide +kernel

/-- The worked example of spec/08: SETP 0x0000_0000_0820_0103 sets P1 to 2,080 (row 65, word 0). -/
theorem test_setp : (tget (((getChan (after (execSetp 65535 0 (uopState (oneUop 0x08200103)))) 65535).run.getD
    (oneUop 0)).banks) 15).p1 = 2080 := by decide +kernel

/-- The same sequence: 2.0 × 0.5 + (−1.0) × 3.0 = −2.0, and −1.25 writes as BF16 0xBFA0. -/
theorem test_bobbin_arithmetic :
    ((fp32Fma 0xBF800000 0x40400000 (fp32Fma 0x40000000 0x3F000000 0).1).1, (encodeElem 1 .nearest true (valOf 0xBFA00000)).1)
      = (0xC0000000, 0xBFA0) := by decide +kernel

/-- The worked example of spec/10: page 1,562 of core 5,000 is frame 0x138_8744, at 0x4E_21D1_0000. -/
theorem test_frame : (nearFn 5000 3 10 4, frameAddr 0x1388744) = (0x1388744, 0x4E21D10000) := by decide +kernel

/-- The worked example after R319: packets A and B of ring pair 5 are fetched and C's reply is next. -/
def ringFive : State := { live with
  sqs := [(5, { enable := true, cq := 5, weight := 3, head := 3, tail := 3 })]
  cqs := [(5, { enable := true, vector := 9, irqEn := true, tail := 14, head := 14, reserved := 3 })]
  packets := [{ id := 1, opcode := 0x0502, src := .ring 5, cq := 5, sqHead := 127, tag := 10 }, { id := 2, opcode := 0x0401, src := .ring 5, cq := 5, sqHead := 2, tag := 11 },
    { id := 3, opcode := 0x0504, src := .ring 5, cq := 5, sqHead := 3, tag := 12, answer := some { status := 0, result := List.replicate 16 0 } }] }

/-- PCI_SQ_CTRL of that ring pair with no more packets in flight, PCI_CQ_CTRL and PCI_SQ_HEAD. -/
theorem test_ring_registers :
    (ringReg ringFive 5 0x08 - 4, ringReg ringFive 5 0x18, ringReg ringFive 5 0x0C) = (0x53071, 0x890041, 0x30003) := by
  decide +kernel

/-- C completes first: its reply goes to entry 14 with PHASE 1, and PCI_CQ_TAIL moves to 15. -/
theorem test_replyWrite : ringReg (after (execReplyWrite 3 ringFive)) 5 0x1C = 0x1000F := by decide +kernel

/-- Step 5 of the same example: TAIL wraps from 15 to 0 and PHASE becomes 0. -/
theorem test_replyWrite_wraps :
    ringReg (after (execReplyWrite 3 { ringFive with cqs := [(5, { enable := true, irqEn := true, tail := 15, head := 14, reserved := 1 })] }))
      5 0x1C = 0 := by decide +kernel

/-- Table 03-5: ARRIVE adds its count and saturates at 2^48 − 1. -/
theorem test_arrive : (tget (after (execArrive .management (.device 65535) 3 false { live with knots := [(65535, { value := 5 })] })).knots 65535).value
    = 8 := by decide +kernel
theorem test_arrive_saturates : (tget (after (execArrive .management (.device 0) 3 false
    { live with knots := [(0, { value := 0xFFFFFFFFFFFE })] })).knots 0).saturated = true := by decide +kernel

set_option maxRecDepth 100000 in
/-- R373: the parity of 32 symbols (a block that 224 zeros precede) makes a codeword, whose syndromes are all 0. -/
theorem test_rs_parity : (rsSyndromes (List.range 32 ++ rsParity (List.range 32))).all (· == 0) = true := by decide +kernel

/-- On an empty queue one edge of the reference passes: the local counters of the dies that run count it. -/
theorem test_step_empty : (tget (after (step live)).counters 4).toNat = (tget live.counters 4).toNat + 1 := by decide +kernel
/-- A step takes the front command. -/
theorem test_step_front : step { live with pending := [.chkOwnerWrite 0 7, .perst] }
    = execChkOwnerWrite 0 7 { live with pending := [.perst] } := by rfl

/-! ### Witnesses: states and operands that meet the hypotheses of each statement together, clause by clause -/

set_option maxRecDepth 100000 in
theorem test_witness_KnotOperations :
  (∃ (i : Issuer) (n : Nat) (v : _),
    (n < 65536) ∧ (i = .management ∨ (∃ r, i = .regionCtl r) ∨ (8192 ≤ n ∧ ∃ p, i = .command p)) ∧ (v < 281474976710656)) ∧
  (∃ (i : Issuer) (n : Nat),
    (n < 65536) ∧ (i = .management ∨ (∃ r, i = .regionCtl r) ∨ (8192 ≤ n ∧ ∃ p, i = .command p))) ∧
  (∃ (i : Issuer) (n : Nat) (count : Nat),
    (n < 65536) ∧ (1 ≤ count) ∧ (count < 65536) ∧ (i = .management ∨ (∃ r, i = .regionCtl r) ∨ (∃ r, i = .pageService r) ∨ (∃ c, i = .reduction c) ∨ (8192 ≤ n ∧ ∃ c e, i = .engine c e))) :=
 ⟨
  ⟨.management, 5, 281474976710655, by decide +kernel, .inl rfl, by decide +kernel⟩,
  ⟨.management, 5, by decide +kernel, .inl rfl⟩,
  ⟨.management, 5, 65535, by decide +kernel, by decide +kernel, by decide +kernel, .inl rfl⟩⟩

set_option maxRecDepth 100000 in
theorem test_witness_KnotWaitAndQuery :
  (∃ (s : State) (i : Issuer) (n : Nat) (target : Nat),
    (n < 65536) ∧ (i = .management ∨ (∃ r, i = .regionCtl r) ∨ (∃ r, i = .pageService r) ∨ (∃ c, i = .reduction c) ∨ (∃ c e, i = .engine c e) ∨ ∃ p, i = .command p) ∧ (target ≤ (tget s.knots n).value.toNat)) ∧
  (∃ (s : State) (i : Issuer) (n : Nat) (target : Nat),
    (n < 65536) ∧ (i = .management ∨ (∃ r, i = .regionCtl r) ∨ (∃ r, i = .pageService r) ∨ (∃ c, i = .reduction c) ∨ (∃ c e, i = .engine c e) ∨ ∃ p, i = .command p) ∧ ((tget s.knots n).value.toNat < target) ∧ (s.waiters.length < 131072)) ∧
  (∃ (s : State) (i : Issuer) (n : Nat) (target : Nat),
    (n < 65536) ∧ (i = .management ∨ (∃ r, i = .regionCtl r) ∨ (∃ r, i = .pageService r) ∨ (∃ c, i = .reduction c) ∨ (∃ c e, i = .engine c e) ∨ ∃ p, i = .command p) ∧ ((tget s.knots n).value.toNat < target) ∧ (131072 ≤ s.waiters.length)) ∧
  (∃ (s : State) (i : Issuer) (n : Nat) (w : Waiter) (rest : List Waiter),
    (n < 65536) ∧ (s.refusedWaits = w :: rest) ∧ (w.issuer = i) ∧ (w.knot = n) ∧ (w.target ≤ (tget s.knots n).value.toNat)) ∧
  (∃ (s : State) (i : Issuer) (n : Nat) (w : Waiter) (rest : List Waiter),
    (n < 65536) ∧ (s.refusedWaits = w :: rest) ∧ (w.issuer = i) ∧ (w.knot = n) ∧ ((tget s.knots n).value.toNat < w.target) ∧ (s.waiters.length < 131072)) ∧
  (∃ (n : Nat),
    (n < 65536)) :=
 ⟨
  ⟨{ live with knots := [(5, { value := 3 })], refusedWaits := [{ issuer := .engine 0 .move, knot := 5, target := 4, tag := 9 }] }, (.engine 0 .move), 5, 3, by decide +kernel, .inr (.inr (.inr (.inr (.inl ⟨0, .move, rfl⟩)))), by decide +kernel⟩,
  ⟨{ live with knots := [(5, { value := 3 })], refusedWaits := [{ issuer := .engine 0 .move, knot := 5, target := 4, tag := 9 }] }, (.engine 0 .move), 5, 4, by decide +kernel, .inr (.inr (.inr (.inr (.inl ⟨0, .move, rfl⟩)))), by decide +kernel⟩,
  ⟨{ live with waiters := List.replicate 131072 { issuer := .management, knot := 65535, target := 1 } }, (.engine 0 .move), 5, 1, by decide +kernel, .inr (.inr (.inr (.inr (.inl ⟨0, .move, rfl⟩)))), by decide +kernel, Nat.le_of_eq List.length_replicate.symm⟩,
  ⟨{ live with knots := [(5, { value := 3 })], refusedWaits := [{ issuer := .engine 0 .move, knot := 5, target := 3, tag := 9 }] }, (.engine 0 .move), 5, { issuer := .engine 0 .move, knot := 5, target := 3, tag := 9 }, [], by decide +kernel⟩,
  ⟨{ live with knots := [(5, { value := 3 })], refusedWaits := [{ issuer := .engine 0 .move, knot := 5, target := 4, tag := 9 }] }, (.engine 0 .move), 5, { issuer := .engine 0 .move, knot := 5, target := 4, tag := 9 }, [], by decide +kernel⟩,
  ⟨5, by decide +kernel⟩⟩

set_option maxRecDepth 100000 in
theorem test_witness_LocalKnots :
  (∃ (n : Nat) (count : Nat),
    (n < 32) ∧ (1 ≤ count) ∧ (count < 65536)) ∧
  (∃ (s : State) (core : Nat) (n : Nat) (count : Nat) (target : Nat),
    (n < 32) ∧ (1 ≤ count) ∧ (count < 65536) ∧ ((tget (getCore s core).localKnots n).value.toNat < target)) :=
 ⟨
  ⟨31, 1, by decide +kernel⟩,
  ⟨{ live with cores := [(2, { localKnots := [(31, { value := 4 })], localWaits := [(.vector, 31, 5)] })] }, 2, 31, 1, 5, by decide +kernel⟩⟩

set_option maxRecDepth 100000 in
theorem test_witness_KnotPackets :
  (∃ (s : State) (p : Nat) (k : Packet),
    (k.context < 65536) ∧ (bitOf (argAt k 0x10 4) 0 = false) ∧ (∀ w ∈ s.waiters, w.issuer ≠ .command p) ∧ MayBegin s p 0x0501 k ∧ (8192 ≤ k.context)) ∧
  (∃ (s : State) (p : Nat) (k : Packet),
    (k.context < 65536) ∧ (bitOf (argAt k 0x10 4) 0 = false) ∧ (∀ w ∈ s.waiters, w.issuer ≠ .command p) ∧ MayBegin s p 0x0501 k ∧ (k.context < 8192)) ∧
  (∃ (s : State) (p : Nat) (k : Packet),
    MayBegin s p 0x0502 k ∧ (k.context < 65536) ∧ (bitOf (argAt k 0x10 4) 0 = false) ∧ (∀ w ∈ s.waiters, w.issuer ≠ .command p) ∧ (8192 ≤ k.context) ∧ (k.lag = false)) ∧
  (∃ (s : State) (p : Nat) (k : Packet),
    (k.context < 65536) ∧ (bitOf (argAt k 0x10 4) 0 = false) ∧ (∀ w ∈ s.waiters, w.issuer ≠ .command p) ∧ MayBegin s p 0x0502 k ∧ (k.context < 8192)) ∧
  (∃ (s : State) (p : Nat) (k : Packet),
    (k.context < 65536) ∧ (bitOf (argAt k 0x10 4) 0 = false) ∧ (∀ w ∈ s.waiters, w.issuer ≠ .command p) ∧ MayBegin s p 0x0503 k ∧ (argAt k 0x18 8 ≤ (tget s.knots k.context).value.toNat)) ∧
  (∃ (s : State) (p : Nat) (k : Packet),
    MayBegin s p 0x0503 k ∧ (k.context < 65536) ∧ (bitOf (argAt k 0x10 4) 0 = false) ∧ (∀ w ∈ s.waiters, w.issuer ≠ .command p) ∧ ((tget s.knots k.context).value.toNat < argAt k 0x18 8) ∧ (s.waiters.length < 131072)) ∧
  (∃ (s : State) (p : Nat) (k : Packet),
    (k.context < 65536) ∧ (bitOf (argAt k 0x10 4) 0 = false) ∧ (∀ w ∈ s.waiters, w.issuer ≠ .command p) ∧ MayBegin s p 0x0504 k) ∧
  (∃ (s : State) (p : Nat) (k : Packet),
    (getPacket s p = some k) ∧ (k.opcode = 0x0503) ∧ (k.started = true) ∧ (k.answer = none) ∧ (hubRuns s = true) ∧ (argAt k 0x20 4 ≠ 0)) :=
 ⟨
  ⟨{ live with knots := [(8192, { value := 7 }), (8191, { value := 9 })], packets := [pkt 0x0501 65535 [(0x18, 8, 5)]], nextPacket := 2 }, 1, (pkt 0x0501 65535 [(0x18, 8, 5)]), by decide +kernel, by decide +kernel, by decide +kernel, mayBegin_of (by decide +kernel), by decide +kernel⟩,
  ⟨{ live with knots := [(8192, { value := 7 }), (8191, { value := 9 })], packets := [pkt 0x0501 8191 []], nextPacket := 2 }, 1, (pkt 0x0501 8191 []), by decide +kernel, by decide +kernel, by decide +kernel, mayBegin_of (by decide +kernel), by decide +kernel⟩,
  ⟨{ live with knots := [(8192, { value := 7 }), (8191, { value := 9 })], packets := [pkt 0x0502 8192 [(0x18, 8, 0xFFFFFFFFFFFE)]], nextPacket := 2 }, 1, (pkt 0x0502 8192 [(0x18, 8, 0xFFFFFFFFFFFE)]), mayBegin_of (by decide +kernel), by decide +kernel⟩,
  ⟨{ live with knots := [(8192, { value := 7 }), (8191, { value := 9 })], packets := [pkt 0x0502 8191 []], nextPacket := 2 }, 1, (pkt 0x0502 8191 []), by decide +kernel, by decide +kernel, by decide +kernel, mayBegin_of (by decide +kernel), by decide +kernel⟩,
  ⟨{ live with knots := [(8192, { value := 7 }), (8191, { value := 9 })], packets := [pkt 0x0503 8192 [(0x18, 8, 7)]], nextPacket := 2 }, 1, (pkt 0x0503 8192 [(0x18, 8, 7)]), by decide +kernel, by decide +kernel, by decide +kernel, mayBegin_of (by decide +kernel), by decide +kernel⟩,
  ⟨{ live with knots := [(8192, { value := 7 }), (8191, { value := 9 })], packets := [pkt 0x0503 8192 [(0x18, 8, 8)]], nextPacket := 2 }, 1, (pkt 0x0503 8192 [(0x18, 8, 8)]), mayBegin_of (by decide +kernel), by decide +kernel⟩,
  ⟨{ live with knots := [(8192, { value := 7 }), (8191, { value := 9 })], packets := [pkt 0x0504 8191 []], nextPacket := 2 }, 1, (pkt 0x0504 8191 []), by decide +kernel, by decide +kernel, by decide +kernel, mayBegin_of (by decide +kernel)⟩,
  ⟨{ live with knots := [(8192, { value := 7 }), (8191, { value := 9 })], packets := [{ pkt 0x0503 8192 [(0x20, 4, 1)] with started := true }], nextPacket := 2, waiters := [{ issuer := .command 1, knot := 8192, target := 9 }] }, 1, { pkt 0x0503 8192 [(0x20, 4, 1)] with started := true }, by decide +kernel⟩⟩

set_option maxRecDepth 100000 in
theorem test_witness_CheckUnitsAndRun :
  (∃ (s : State) (n : Nat) (value : Word),
    (chkReached s n = true) ∧ ((tget s.chk n).owner = 0) ∧ (value.toNat % 65536 ≠ 0)) ∧
  (∃ (s : State) (n : Nat) (value : Word),
    (chkReached s n = true) ∧ ((tget s.chk n).owner ≠ 0xFFFF) ∧ (value.toNat % 65536 = 0)) ∧
  (∃ (s : State) (n : Nat) (value : Word),
    (chkReached s n = true) ∧ ((tget s.chk n).owner ≠ 0) ∧ (value.toNat % 65536 ≠ 0)) ∧
  (∃ (s : State) (n : Nat),
    (chkReached s n = true) ∧ ((tget s.chk n).owner ≠ 0xFFFF)) ∧
  (∃ (s : State) (n : Nat) (value : Word),
    (chkReached s n = true) ∧ ((tget s.chk n).owner ≠ 0xFFFF) ∧ (bitOf value.toNat 8 = false)) ∧
  (∃ (s : State) (n : Nat) (offset : Nat) (b : Bytes),
    (chkReached s n = true) ∧ (0x10 ≤ offset) ∧ (offset + b.length ≤ 0x18) ∧ ((tget s.chk n).owner ≠ 0xFFFF) ∧ ((tget s.chk n).started = false)) ∧
  (∃ (s : State) (n : Nat) (offset : Nat) (b : Bytes),
    (chkReached s n = true) ∧ (0x10 ≤ offset) ∧ (offset + b.length ≤ 0x18) ∧ ((tget s.chk n).owner ≠ 0xFFFF) ∧ ((tget s.chk n).started = true)) ∧
  (∃ (s : State) (n : Nat),
    (chkReached s n = true)) ∧
  (∃ (s : State) (n : Nat) (offset : Nat) (b : Bytes),
    (chkReached s n = true) ∧ ((tget s.chk n).owner = 0xFFFF) ∧ (0x10 ≤ offset) ∧ (offset + b.length ≤ 0x18)) ∧
  (∃ (s : State) (p : Nat) (k : Packet) (b : Bytes) (n : Nat),
    MayBegin s p 0x0701 k ∧ (∀ m, m < 16 → (tget s.chk m).command ≠ some p) ∧ (bufStatus s p false (bufB k) = 0) ∧ (n < 16) ∧ ((tget s.chk n).owner = 0) ∧ (∀ m, m < n → (tget s.chk m).owner ≠ 0) ∧ ((bufB k).host = true) ∧ (s.pcie.d3hot = false) ∧ (s.pcie.busMaster = true) ∧ ((bufB k).len = b.length)) ∧
  (∃ (s : State) (p : Nat) (k : Packet) (n : Nat),
    MayBegin s p 0x0701 k ∧ (∀ m, m < 16 → (tget s.chk m).command ≠ some p) ∧ (bufStatus s p false (bufB k) = 0) ∧ (n < 16) ∧ ((tget s.chk n).owner = 0) ∧ (∀ m, m < n → (tget s.chk m).owner ≠ 0) ∧ ((bufB k).host = true) ∧ (0 < (bufB k).len) ∧ (s.pcie.d3hot = true)) ∧
  (∃ (s : State) (p : Nat) (k : Packet) (n : Nat),
    MayBegin s p 0x0701 k ∧ RangeVerifies s (bufB k).addr (bufB k).len ∧ (∀ m, m < 16 → (tget s.chk m).command ≠ some p) ∧ (bufStatus s p false (bufB k) = 0) ∧ (n < 16) ∧ ((tget s.chk n).owner = 0) ∧ (∀ m, m < n → (tget s.chk m).owner ≠ 0) ∧ ((bufB k).host = false) ∧ ((bufB k).addr + (bufB k).len ≤ 0xE020000000) ∧ (accessWaits s (bufB k).addr (bufB k).len = false)) ∧
  (∃ (s : State) (p : Nat) (k : Packet),
    MayBegin s p 0x0701 k ∧ (∀ m, m < 16 → (tget s.chk m).command ≠ some p) ∧ (bufStatus s p false (bufB k) = 0) ∧ (∀ n, n < 16 → (tget s.chk n).owner ≠ 0)) :=
 ⟨
  ⟨live, 15, 0xFFFF, by decide +kernel⟩,
  ⟨{ live with chk := [(15, { owner := 0x1234 })] }, 15, 0x10000, by decide +kernel⟩,
  ⟨{ live with chk := [(15, { owner := 0x1234 })] }, 15, 0x1234, by decide +kernel⟩,
  ⟨{ live with chk := [(15, { owner := 0x1234 })] }, 15, by decide +kernel⟩,
  ⟨{ live with chk := [(15, { owner := 7, started := true, fifo := [[1, 2], [3]] })] }, 15, 0x1D, by decide +kernel⟩,
  ⟨{ live with chk := [(15, { owner := 0x1234 })] }, 15, 0x14, [1, 2, 3, 4], by decide +kernel⟩,
  ⟨{ live with chk := [(15, { owner := 7, started := true, fifo := [[1, 2], [3]], poly := 1 })] }, 15, 0x10, [1, 2, 3, 4, 5, 6, 7, 8], by decide +kernel⟩,
  ⟨{ live with chk := [(15, { owner := 7, started := true, fifo := [[1, 2], [3]], poly := 2, reflect := true, xorout := true })] }, 15, by decide +kernel⟩,
  ⟨{ live with chk := [(15, { owner := 0xFFFF, started := true })] }, 15, 0x10, [1, 2, 3, 4, 5, 6, 7, 8], by decide +kernel⟩,
  ⟨{ inFlight live [pkt 0x0701 0 [(0x10, 4, 0x1F), (0x20, 8, 0x1000), (0x28, 4, 8), (0x2C, 1, 1)]] with chk := [(0, { owner := 3, poly := 2 })] }, 1, (pkt 0x0701 0 [(0x10, 4, 0x1F), (0x20, 8, 0x1000), (0x28, 4, 8), (0x2C, 1, 1)]), [1, 2, 3, 4, 5, 6, 7, 8], 1, mayBegin_of (by decide +kernel), by decide +kernel⟩,
  ⟨{ inFlight live [pkt 0x0701 0 [(0x10, 4, 0x1F), (0x20, 8, 0x1000), (0x28, 4, 8), (0x2C, 1, 1)]] with chk := [(0, { owner := 3, poly := 2 })], pcie := { live.pcie with d3hot := true } }, 1, (pkt 0x0701 0 [(0x10, 4, 0x1F), (0x20, 8, 0x1000), (0x28, 4, 8), (0x2C, 1, 1)]), 1, mayBegin_of (by decide +kernel), by decide +kernel⟩,
  ⟨{ inFlight storing [pkt 0x0701 0 [(0x10, 4, 0x1F), (0x20, 8, 0xE008000000), (0x28, 4, 2), (0x2C, 1, 0)]] with chk := [(0, { owner := 3, poly := 2 })] }, 1, (pkt 0x0701 0 [(0x10, 4, 0x1F), (0x20, 8, 0xE008000000), (0x28, 4, 2), (0x2C, 1, 0)]), 1, mayBegin_of (by decide +kernel), rangeVerifies_of (by decide +kernel), by decide +kernel⟩,
  ⟨{ inFlight live [pkt 0x0701 0 [(0x10, 4, 0x1F), (0x20, 8, 0x1000), (0x28, 4, 8), (0x2C, 1, 1)]] with chk := (List.range 16).map (fun n => (n, { owner := 3 })) }, 1, (pkt 0x0701 0 [(0x10, 4, 0x1F), (0x20, 8, 0x1000), (0x28, 4, 8), (0x2C, 1, 1)]), mayBegin_of (by decide +kernel), by decide +kernel⟩⟩

set_option maxRecDepth 100000 in
theorem test_witness_RingEnables :
  (∃ (s : State) (q : Nat) (value : Word),
    Served s ∧ (q < 64) ∧ (sqActive s q = false) ∧ ((getCq s (value.toNat / 65536 % 64)).enable = true) ∧ (7 ≤ value.toNat / 16 % 32) ∧ (value.toNat / 16 % 32 ≤ 16) ∧ ((getSq s q).base.toNat % 4096 = 0) ∧ (bitOf value.toNat 1 = true → (getSq s q).base.toNat + 64 * 2 ^ (value.toNat / 16 % 32) ≤ 0x08000000) ∧ (s.weft.manager = true ∨ (bitOf (getSq s q).target.toNat 18 = false ∧ bitOf (getSq s q).target.toNat 19 = false))) ∧
  (∃ (s : State) (q : Nat) (value : Word),
    Served s ∧ (q < 64) ∧ (sqActive s q = false) ∧ ((getCq s (value.toNat / 65536 % 64)).enable = false)) ∧
  (∃ (s : State) (q : Nat),
    Served s ∧ (q < 64)) ∧
  (∃ (s : State) (q : Nat) (value : Word),
    Served s ∧ (q < 64) ∧ ((getCq s q).enable = false) ∧ (4 ≤ value.toNat / 16 % 32) ∧ (value.toNat / 16 % 32 ≤ 16) ∧ ((getCq s q).base.toNat % 4096 = 0) ∧ (bitOf value.toNat 1 = true → (getCq s q).base.toNat + 32 * 2 ^ (value.toNat / 16 % 32) ≤ 0x08000000) ∧ (bitOf value.toNat 23 = true → 4 ≤ value.toNat / 65536 % 128)) ∧
  (∃ (s : State) (q : Nat) (value : Word),
    Served s ∧ (q < 64) ∧ (bitOf value.toNat 23 = true) ∧ (value.toNat / 65536 % 128 < 4)) ∧
  (∃ (s : State) (q : Nat),
    Served s ∧ (q < 64) ∧ (cqNamed s q = false)) ∧
  (∃ (s : State) (q : Nat),
    Served s ∧ (q < 64) ∧ ((getCq s q).enable = true) ∧ (cqNamed s q = true)) :=
 ⟨
  ⟨{ live with cqs := [(63, { enable := true })], sqs := [(63, { base := 0x5000, cfgErr := true, head := 4 })] }, 63, 0x3F3108, served_of (by decide +kernel), by decide +kernel⟩,
  ⟨{ live with cqs := [(63, { enable := true })], sqs := [(63, { base := 0x5000, cfgErr := true, head := 4 })] }, 63, 0x3E3108, served_of (by decide +kernel), by decide +kernel⟩,
  ⟨{ live with cqs := [(63, { enable := true })], sqs := [(63, { base := 0x5000, cfgErr := true, head := 4 })] }, 63, served_of (by decide +kernel), by decide +kernel⟩,
  ⟨{ live with cqs := [(63, { base := 0x5000, cfgErr := true, tail := 4 })] }, 63, 0x840106, served_of (by decide +kernel), by decide +kernel⟩,
  ⟨{ live with cqs := [(63, { enable := true })], sqs := [(63, { base := 0x5000, cfgErr := true, head := 4 })] }, 63, 0x830040, served_of (by decide +kernel), by decide +kernel⟩,
  ⟨{ live with cqs := [(63, { enable := true })], sqs := [(63, { base := 0x5000, cfgErr := true, head := 4 })] }, 63, served_of (by decide +kernel), by decide +kernel⟩,
  ⟨{ live with cqs := [(63, { enable := true })], sqs := [(2, { enable := true, cq := 63 })] }, 63, served_of (by decide +kernel), by decide +kernel⟩⟩

set_option maxRecDepth 100000 in
theorem test_witness_Doorbells :
  (∃ (s : State) (q : Nat),
    Served s ∧ (q < 64)) ∧
  (∃ (s : State) (q : Nat) (offset : _),
    Served s ∧ (q < 64) ∧ (offset < 0x10000) ∧ (offset % 4 = 0)) ∧
  (∃ (s : State) (q : Nat),
    Served s ∧ (q < 64) ∧ ((getSq s q).enable = false)) ∧
  (∃ (s : State) (q : Nat) (value : Word),
    Served s ∧ (q < 64) ∧ ((getSq s q).enable = true) ∧ (2 ^ (getSq s q).sizeLog2.toNat ≤ value.toNat % 65536)) ∧
  (∃ (s : State) (q : Nat) (value : Word),
    Served s ∧ (q < 64) ∧ ((getSq s q).enable = true) ∧ (value.toNat % 65536 < 2 ^ (getSq s q).sizeLog2.toNat)) ∧
  (∃ (s : State) (q : Nat),
    Served s ∧ (q < 64) ∧ ((getCq s q).enable = false)) ∧
  (∃ (s : State) (q : Nat) (value : Word),
    Served s ∧ (q < 64) ∧ ((getCq s q).enable = true) ∧ (2 ^ (getCq s q).sizeLog2.toNat ≤ value.toNat % 65536)) ∧
  (∃ (s : State) (q : Nat) (value : Word),
    Served s ∧ (q < 64) ∧ ((getCq s q).enable = true) ∧ (value.toNat % 65536 < 2 ^ (getCq s q).sizeLog2.toNat)) :=
 ⟨
  ⟨{ live with cqs := [(63, { enable := true, head := 15, unread := 3 })], sqs := [(63, { enable := true })] }, 63, served_of (by decide +kernel), by decide +kernel⟩,
  ⟨{ live with cqs := [(63, { enable := true, head := 15, unread := 3 })], sqs := [(63, { enable := true })] }, 63, 0xFFFC, served_of (by decide +kernel), by decide +kernel⟩,
  ⟨{ live with cqs := [(63, { enable := true, head := 15, unread := 3 })], sqs := [(63, { enable := true })] }, 62, served_of (by decide +kernel), by decide +kernel⟩,
  ⟨{ live with cqs := [(63, { enable := true, head := 15, unread := 3 })], sqs := [(63, { enable := true })] }, 63, 128, served_of (by decide +kernel), by decide +kernel⟩,
  ⟨{ live with cqs := [(63, { enable := true, head := 15, unread := 3 })], sqs := [(63, { enable := true })] }, 63, 127, served_of (by decide +kernel), by decide +kernel⟩,
  ⟨{ live with cqs := [(63, { enable := true, head := 15, unread := 3 })], sqs := [(63, { enable := true })] }, 62, served_of (by decide +kernel), by decide +kernel⟩,
  ⟨{ live with cqs := [(63, { enable := true, head := 15, unread := 3 })], sqs := [(63, { enable := true })] }, 63, 16, served_of (by decide +kernel), by decide +kernel⟩,
  ⟨{ live with cqs := [(63, { enable := true, head := 15, unread := 3 })], sqs := [(63, { enable := true })] }, 63, 1, served_of (by decide +kernel), by decide +kernel⟩⟩

/-- The 64 bytes of a packet with no parameter blocks: opcode, CONTEXT, a byte of ARGS at 0x10, and its CRC-32C. -/
def pktBytes (op context arg : Nat) : Bytes :=
  let b := toBytes 4 op ++ toBytes 4 9 ++ toBytes 8 context ++ toBytes 44 arg
  b ++ toBytes 4 (crc32c b)

set_option maxRecDepth 100000 in
theorem test_witness_PacketFetchAndReply :
  (∃ (s : State) (q : Nat) (b : Bytes) (host : HostData),
    Served s ∧ (((getSq s q).loc = false ∧ host = .bytes b) ∨ ((getSq s q).loc = true ∧ b = ringBytes s (getSq s q) (getSq s q).head.toNat (1 + fieldAt b 0x0C 1 % 64) ∧ ∀ j, j < 1 + fieldAt b 0x0C 1 % 64 → Verifies s (wbAddr ((getSq s q).base.toNat + 64 * (((getSq s q).head.toNat + j) % sqSize (getSq s q))) / 256))) ∧ (s.pcie.busMaster = true) ∧ ((getSq s q).enable = true) ∧ (bitOf (getSq s q).target.toNat 18 = false) ∧ (bitOf (getSq s q).target.toNat 19 = false) ∧ (0 < sqWaiting (getSq s q)) ∧ (1 + fieldAt b 0x0C 1 % 64 ≤ sqWaiting (getSq s q)) ∧ (b.length = 64 * (1 + fieldAt b 0x0C 1 % 64)) ∧ (s.packets.length < 4096) ∧ ((getCq s (getSq s q).cq.toNat).unread + (getCq s (getSq s q).cq.toNat).reserved < 2 ^ (getCq s (getSq s q).cq.toNat).sizeLog2.toNat) ∧ ((getSq s q).served ≤ (getSq s q).weight.toNat) ∧ (packetStatus (.ring q) b = 0) ∧ (deviceStatus s (fieldAt b 0 2) = 0)) ∧
  (∃ (s : State) (q : Nat) (b : Bytes) (host : HostData),
    Served s ∧ (((getSq s q).loc = false ∧ host = .bytes b) ∨ ((getSq s q).loc = true ∧ b = ringBytes s (getSq s q) (getSq s q).head.toNat (1 + fieldAt b 0x0C 1 % 64) ∧ ∀ j, j < 1 + fieldAt b 0x0C 1 % 64 → Verifies s (wbAddr ((getSq s q).base.toNat + 64 * (((getSq s q).head.toNat + j) % sqSize (getSq s q))) / 256))) ∧ (s.pcie.busMaster = true) ∧ ((getSq s q).enable = true) ∧ (bitOf (getSq s q).target.toNat 18 = false) ∧ (bitOf (getSq s q).target.toNat 19 = false) ∧ (0 < sqWaiting (getSq s q)) ∧ (1 + fieldAt b 0x0C 1 % 64 ≤ sqWaiting (getSq s q)) ∧ (b.length = 64 * (1 + fieldAt b 0x0C 1 % 64)) ∧ (s.packets.length < 4096) ∧ ((getCq s (getSq s q).cq.toNat).unread + (getCq s (getSq s q).cq.toNat).reserved < 2 ^ (getCq s (getSq s q).cq.toNat).sizeLog2.toNat) ∧ ((getSq s q).served ≤ (getSq s q).weight.toNat) ∧ (packetStatus (.ring q) b = 0x0020)) ∧
  (∃ (s : State) (q : Nat) (b : Bytes) (host : HostData),
    Served s ∧ (((getSq s q).loc = false ∧ host = .bytes b) ∨ ((getSq s q).loc = true ∧ b = ringBytes s (getSq s q) (getSq s q).head.toNat (1 + fieldAt b 0x0C 1 % 64) ∧ ∀ j, j < 1 + fieldAt b 0x0C 1 % 64 → Verifies s (wbAddr ((getSq s q).base.toNat + 64 * (((getSq s q).head.toNat + j) % sqSize (getSq s q))) / 256))) ∧ (s.pcie.busMaster = true) ∧ ((getSq s q).enable = true) ∧ (bitOf (getSq s q).target.toNat 18 = false) ∧ (bitOf (getSq s q).target.toNat 19 = false) ∧ (0 < sqWaiting (getSq s q)) ∧ (1 + fieldAt b 0x0C 1 % 64 ≤ sqWaiting (getSq s q)) ∧ (b.length = 64 * (1 + fieldAt b 0x0C 1 % 64)) ∧ (s.packets.length < 4096) ∧ ((getCq s (getSq s q).cq.toNat).unread + (getCq s (getSq s q).cq.toNat).reserved < 2 ^ (getCq s (getSq s q).cq.toNat).sizeLog2.toNat) ∧ ((getSq s q).served ≤ (getSq s q).weight.toNat) ∧ (packetStatus (.ring q) b = 0x0030)) ∧
  (∃ (s : State) (p : Nat) (q : Nat) (k : Packet) (a : Answer),
    (getPacket s p = some k) ∧ (k.answer = some a) ∧ (k.src = .ring q) ∧ (k.follows = none) ∧ (hubRuns s = true) ∧ (hostOpen s = false) ∧ (s.pcie.held.contains (.reply p) = false)) ∧
  (∃ (s : State) (p : Nat) (q : Nat) (k : Packet) (a : Answer),
    (getPacket s p = some k) ∧ (k.answer = some a) ∧ (k.src = .ring q) ∧ (k.follows = none) ∧ (hubRuns s = true) ∧ (hostOpen s = true) ∧ ((getCq s k.cq).loc = false) ∧ ((getCq s k.cq).tail.toNat + 1 < 2 ^ (getCq s k.cq).sizeLog2.toNat) ∧ ((getCq s k.cq).irqEn = false)) ∧
  (∃ (s : State) (p : Nat) (q : Nat) (k : Packet) (a : Answer),
    (getPacket s p = some k) ∧ (k.answer = some a) ∧ (k.src = .ring q) ∧ (k.follows = none) ∧ (hubRuns s = true) ∧ (hostOpen s = true) ∧ ((getCq s k.cq).loc = false) ∧ ((getCq s k.cq).tail.toNat + 1 < 2 ^ (getCq s k.cq).sizeLog2.toNat) ∧ ((getCq s k.cq).irqEn = true) ∧ (k.irq = true) ∧ (vectorOpen s (getCq s k.cq).vector.toNat = true)) :=
 ⟨
  ⟨{ live with cqs := [(3, { enable := true })], sqs := [(63, { enable := true, cq := 3, head := 127, tail := 0 })] }, 63, (pktBytes 0x0504 9 0), (HostData.bytes ((pktBytes 0x0504 9 0))), served_of (by decide +kernel), .inl ⟨rfl, rfl⟩, by decide +kernel⟩,
  ⟨{ live with cqs := [(3, { enable := true })], sqs := [(63, { enable := true, cq := 3, head := 127, tail := 0 })] }, 63, (pktBytes 0x0504 9 (2 ^ 100)), (HostData.bytes ((pktBytes 0x0504 9 (2 ^ 100)))), served_of (by decide +kernel), .inl ⟨rfl, rfl⟩, by decide +kernel⟩,
  ⟨{ live with cqs := [(3, { enable := true })], sqs := [(63, { enable := true, cq := 3, head := 127, tail := 0 })] }, 63, ((pktBytes 0x0504 9 0).dropLast ++ [0]), (HostData.bytes ((pktBytes 0x0504 9 0).dropLast ++ [0])), served_of (by decide +kernel), .inl ⟨rfl, rfl⟩, by decide +kernel⟩,
  ⟨{ live with pcie := { live.pcie with d3hot := true }, packets := [{ pkt 0x0504 9 [] with src := .ring 2, cq := 3, answer := some { status := 0, result := toBytes 16 5 }, irq := true }] }, 1, 2, { pkt 0x0504 9 [] with src := .ring 2, cq := 3, answer := some { status := 0, result := toBytes 16 5 }, irq := true }, { status := 0, result := toBytes 16 5 }, by decide +kernel⟩,
  ⟨{ live with cqs := [(3, { enable := true, tail := 14, base := 0x8000 })], packets := [{ pkt 0x0504 9 [] with src := .ring 2, cq := 3, answer := some { status := 0, result := toBytes 16 5 }, irq := true }] }, 1, 2, { pkt 0x0504 9 [] with src := .ring 2, cq := 3, answer := some { status := 0, result := toBytes 16 5 }, irq := true }, { status := 0, result := toBytes 16 5 }, by decide +kernel⟩,
  ⟨{ live with cqs := [(3, { enable := true, irqEn := true, tail := 14, base := 0x8000 })], packets := [{ pkt 0x0504 9 [] with src := .ring 2, cq := 3, answer := some { status := 0, result := toBytes 16 5 }, irq := true }] }, 1, 2, { pkt 0x0504 9 [] with src := .ring 2, cq := 3, answer := some { status := 0, result := toBytes 16 5 }, irq := true }, { status := 0, result := toBytes 16 5 }, by decide +kernel⟩⟩

set_option maxRecDepth 100000 in
theorem test_witness_RingHeadsAndReports :
  (∃ (s : State) (q : Nat),
    ((getCq s q).irqEn = true) ∧ (0 < (getCq s q).unsignalled) ∧ (vectorOpen s (getCq s q).vector.toNat = true) ∧ (hostOpen s = true)) ∧
  (∃ (s : State),
    (s.errors.unsignalled ≠ 0) ∧ (vectorOpen s 1 = true) ∧ (hostOpen s = true)) ∧
  (∃ (s : State),
    (s.errors.unsignalled ≠ 0) ∧ (vectorOpen s 1 = false) ∧ (s.pcie.msixPending = [])) ∧
  (∃ (s : State) (value : Word),
    (3 ≤ s.pcie.phase.toNat) ∧ ((value - s.errors.head).toNat ≤ (s.errors.tail - s.errors.head).toNat)) ∧
  (∃ (s : State) (value : Word),
    ((s.errors.tail - s.errors.head).toNat < (value - s.errors.head).toNat)) ∧
  (∃ (s : State) (value : Word),
    (3 ≤ s.pcie.phase.toNat) ∧ ((value - s.errors.tlmHead).toNat ≤ (s.errors.tlmTail - s.errors.tlmHead).toNat) ∧ (value.toNat % 64 = 0)) ∧
  (∃ (s : State) (value : Word),
    ((s.errors.tlmTail - s.errors.tlmHead).toNat < (value - s.errors.tlmHead).toNat)) ∧
  (∃ (s : State) (e : Word64) (rest : List Word64),
    (s.boot.appendQueue = e :: rest) ∧ (s.flash.darn.length < 16380)) :=
 ⟨
  ⟨{ live with errors := { tail := 5, head := 3, unsignalled := 1, tlmTail := 128, tlmHead := 64 }, cqs := [(3, { irqEn := true, unsignalled := 2 })] }, 3, by decide +kernel⟩,
  ⟨{ live with errors := { tail := 5, head := 3, unsignalled := 1, tlmTail := 128, tlmHead := 64 }, cqs := [(3, { irqEn := true, unsignalled := 2 })] }, by decide +kernel⟩,
  ⟨{ live with pcie := { live.pcie with msixUnmasked := [] }, errors := { tail := 5, head := 3, unsignalled := 1, tlmTail := 128, tlmHead := 64 }, cqs := [(3, { irqEn := true, unsignalled := 2 })] }, by decide +kernel⟩,
  ⟨{ live with errors := { tail := 5, head := 3, unsignalled := 1, tlmTail := 128, tlmHead := 64 }, cqs := [(3, { irqEn := true, unsignalled := 2 })] }, 5, by decide +kernel⟩,
  ⟨{ live with errors := { tail := 5, head := 3, unsignalled := 1, tlmTail := 128, tlmHead := 64 }, cqs := [(3, { irqEn := true, unsignalled := 2 })] }, 6, by decide +kernel⟩,
  ⟨{ live with errors := { tail := 5, head := 3, unsignalled := 1, tlmTail := 128, tlmHead := 64 }, cqs := [(3, { irqEn := true, unsignalled := 2 })] }, 128, by decide +kernel⟩,
  ⟨{ live with errors := { tail := 5, head := 3, unsignalled := 1, tlmTail := 128, tlmHead := 64 }, cqs := [(3, { irqEn := true, unsignalled := 2 })] }, 192, by decide +kernel⟩,
  ⟨{ live with boot := { live.boot with appendQueue := [7, 8] }, flash := { live.flash with darn := [1] } }, 7, [8], by decide +kernel⟩⟩

set_option maxRecDepth 100000 in
theorem test_witness_MemoryAccess :
  (∃ (s : State) (i : Issuer) (a : Nat) (n : Nat),
    RangeVerifies s a n ∧ (0 < n) ∧ (a + n ≤ 0xE020000000) ∧ (∀ x ∈ queuesOf s a n, queueOf s x = []) ∧ (heldAt s a n = none) ∧ (accessStatus s i false a n = 0)) ∧
  (∃ (s : State) (i : Issuer) (a : Nat) (n : Nat) (restarted : Bool),
    (0 < n) ∧ (a + n ≤ 0xE020000000) ∧ (∀ x ∈ queuesOf s a n, queueOf s x = []) ∧ (heldAt s a n = none) ∧ (accessStatus s i false a n = 0) ∧ (a % 256 + n ≤ 256) ∧ (inSeqTable (a / 256) = false) ∧ (checkTag (a / 256) (readBytes s.mem (a / 256 * 256) 256) (tagOf s.mem (a / 256)) = some (true, restarted)) ∧ ((tagOf s.mem (a / 256)).poison = true)) ∧
  (∃ (s : State) (i : Issuer) (a : Nat) (n : Nat) (b : Bytes),
    RangeVerifies s a n ∧ (0 < n) ∧ (a + n ≤ 0xE020000000) ∧ (∀ x ∈ queuesOf s a n, queueOf s x = []) ∧ (heldAt s a n = none) ∧ (b.length = n) ∧ (accessStatus s i true a n = 0)) ∧
  (∃ (s : State) (i : Issuer) (a : Nat) (n : Nat) (ch : Nat),
    (0 < n) ∧ (a + n ≤ 0xE020000000) ∧ (∀ x ∈ queuesOf s a n, queueOf s x = []) ∧ (heldAt s a n = some (.near ch)) ∧ (accessStatus s i false a n = 0)) ∧
  (∃ (s : State) (i : Issuer) (a : Nat) (n : Nat) (b : Bytes) (ch : Nat),
    (0 < n) ∧ (a + n ≤ 0xE020000000) ∧ (∀ x ∈ queuesOf s a n, queueOf s x = []) ∧ (heldAt s a n = some (.near ch)) ∧ (b.length = n) ∧ (accessStatus s i true a n = 0)) :=
 ⟨
  ⟨storing, .management, 0xE008000000, 257, rangeVerifies_of (by decide +kernel), by decide +kernel⟩,
  ⟨{ storing with mem := setTag storing.mem 0xE0080000 { poison := true } }, .management, 0xE008000000, 256, true, by decide +kernel⟩,
  ⟨storing, .management, 0xE008000000, 257, (List.replicate 257 7), rangeVerifies_of (by decide +kernel), by decide +kernel⟩,
  ⟨{ live with chans := [(65535, { run := some { core := 8191, slotIndex := 3 } })] }, .management, 0x7FFFFFFFFC, 4, 65535, by decide +kernel⟩,
  ⟨{ live with chans := [(65535, { run := some { core := 8191, slotIndex := 3 } })] }, .management, 0x7FFFFFFFFC, 4, [1, 2, 3, 4], 65535, by decide +kernel⟩⟩

set_option maxRecDepth 100000 in
theorem test_witness_Bar2Window :
  (∃ (s : State) (off : Nat) (n : Nat),
    Served s ∧ (0 < n) ∧ (off + n ≤ 536870912) ∧ (accessStatus s .bar2 false (0xE000000000 + off) n = 0) ∧ RangeVerifies s (0xE000000000 + off) n) ∧
  (∃ (s : State) (off : Nat) (n : Nat),
    Served s ∧ (0 < n) ∧ (off + n ≤ 536870912) ∧ (accessStatus s .bar2 false (0xE000000000 + off) n ≠ 0)) ∧
  (∃ (s : State) (off : Nat) (n : Nat) (b : Bytes),
    Served s ∧ (0 < n) ∧ (off + n ≤ 536870912) ∧ (b.length = n) ∧ (accessStatus s .bar2 true (0xE000000000 + off) n = 0) ∧ RangeVerifies s (0xE000000000 + off) n) ∧
  (∃ (s : State) (off : Nat) (n : Nat) (b : Bytes),
    Served s ∧ (0 < n) ∧ (off + n ≤ 536870912) ∧ (b.length = n) ∧ (accessStatus s .bar2 true (0xE000000000 + off) n ≠ 0) ∧ (s.errors.ringUp = false)) ∧
  (∃ (s : State) (off : Nat) (n : Nat) (bits : List Nat),
    Served s ∧ RangeVerifies s (0xE000000000 + off) n ∧ (0 < n) ∧ (off + n ≤ 536870912) ∧ (accessStatus s .bar2 false (0xE000000000 + off) n = 0) ∧ (off % 256 + n ≤ 256) ∧ (s.errors.ringUp = false) ∧ (crc32c (flipCopy (readBytes s.mem (0xE000000000 + off / 256 * 256) 256) bits) ≠ crc32c (readBytes s.mem (0xE000000000 + off / 256 * 256) 256))) :=
 ⟨
  ⟨storing, 0x8000000, 3, served_of (by decide +kernel), by decide +kernel, by decide +kernel, by decide +kernel, rangeVerifies_of (by decide +kernel)⟩,
  ⟨storing, 0x18000000, 1, served_of (by decide +kernel), by decide +kernel⟩,
  ⟨storing, 0x8000000, 3, [7, 8, 9], served_of (by decide +kernel), by decide +kernel, by decide +kernel, by decide +kernel, by decide +kernel, rangeVerifies_of (by decide +kernel)⟩,
  ⟨storing, 0x18000000, 1, [3], served_of (by decide +kernel), by decide +kernel⟩,
  ⟨storing, 0x8000001, 1, [0], served_of (by decide +kernel), rangeVerifies_of (by decide +kernel), by decide +kernel⟩⟩

set_option maxRecDepth 100000 in
theorem test_witness_MemoryCommands :
  (∃ (s : State) (p : Nat) (k : Packet),
    MayBegin s p 0x0401 k ∧ RangeVerifies s (bufA k).addr (bufA k).len ∧ ((bufA k).host = false) ∧ ((bufB k).host = true) ∧ ((bufA k).len = (bufB k).len) ∧ (s.pcie.d3hot = false) ∧ (s.pcie.busMaster = true) ∧ ((bufA k).addr + (bufA k).len ≤ 0xE020000000) ∧ (accessStatus s (.command p) false (bufA k).addr (bufA k).len = 0) ∧ (accessWaits s (bufA k).addr (bufA k).len = false)) ∧
  (∃ (s : State) (p : Nat) (k : Packet),
    RangeVerifies s (bufB k).addr (bufB k).len ∧ MayBegin s p 0x0402 k ∧ ((bufB k).host = false) ∧ ((bufB k).addr + (bufB k).len ≤ 0xE020000000) ∧ (accessStatus s (.command p) true (bufB k).addr (bufB k).len = 0) ∧ (accessWaits s (bufB k).addr (bufB k).len = false) ∧ (k.params ≠ []) ∧ (leNat (k.args.take 16) = 0) ∧ ((bufB k).len ≤ k.params.length) ∧ (k.params.length < (bufB k).len + 64)) ∧
  (∃ (s : State) (p : Nat) (k : Packet) (b : Bytes),
    RangeVerifies s (bufB k).addr (bufB k).len ∧ MayBegin s p 0x0402 k ∧ ((bufB k).host = false) ∧ ((bufB k).addr + (bufB k).len ≤ 0xE020000000) ∧ (accessStatus s (.command p) true (bufB k).addr (bufB k).len = 0) ∧ (accessWaits s (bufB k).addr (bufB k).len = false) ∧ (k.params = []) ∧ ((bufA k).host = true) ∧ ((bufA k).len = (bufB k).len) ∧ (b.length = (bufA k).len) ∧ (s.pcie.d3hot = false) ∧ (s.pcie.busMaster = true)) ∧
  (∃ (s : State) (p : Nat) (k : Packet),
    ((bufB k).host = false) ∧ ((bufB k).addr + (bufB k).len ≤ 0xE020000000) ∧ (accessStatus s (.command p) true (bufB k).addr (bufB k).len = 0) ∧ (accessWaits s (bufB k).addr (bufB k).len = false) ∧ RangeVerifies s (bufB k).addr (bufB k).len ∧ MayBegin s p 0x0403 k) ∧
  (∃ (s : State) (p : Nat) (k : Packet),
    RangeVerifies s (bufB k).addr (bufB k).len ∧ MayBegin s p 0x0404 k ∧ RangeVerifies s (bufA k).addr (bufA k).len ∧ ((bufB k).host = false) ∧ ((bufB k).addr + (bufB k).len ≤ 0xE020000000) ∧ (accessStatus s (.command p) true (bufB k).addr (bufB k).len = 0) ∧ (accessWaits s (bufB k).addr (bufB k).len = false) ∧ ((bufA k).host = false) ∧ ((bufA k).len = (bufB k).len) ∧ ((bufA k).addr + (bufA k).len ≤ 0xE020000000) ∧ ((bufA k).addr + (bufA k).len ≤ (bufB k).addr ∨ (bufB k).addr + (bufB k).len ≤ (bufA k).addr) ∧ (accessStatus s (.command p) false (bufA k).addr (bufA k).len = 0) ∧ (accessWaits s (bufA k).addr (bufA k).len = false)) :=
 ⟨
  ⟨(inFlight storing [pkt 0x0401 0 [(0x10, 8, 0xE008000000), (0x18, 4, 3), (0x20, 8, 0x1000), (0x28, 4, 3), (0x2C, 1, 1)]]), 1, (pkt 0x0401 0 [(0x10, 8, 0xE008000000), (0x18, 4, 3), (0x20, 8, 0x1000), (0x28, 4, 3), (0x2C, 1, 1)]), mayBegin_of (by decide +kernel), rangeVerifies_of (by decide +kernel), by decide +kernel⟩,
  ⟨(inFlight storing [pkt 0x0402 0 [(0x20, 8, 0xE008000000), (0x28, 4, 3)] (List.replicate 64 9)]), 1, (pkt 0x0402 0 [(0x20, 8, 0xE008000000), (0x28, 4, 3)] (List.replicate 64 9)), rangeVerifies_of (by decide +kernel), mayBegin_of (by decide +kernel), by decide +kernel⟩,
  ⟨(inFlight storing [pkt 0x0402 0 [(0x10, 8, 0x1000), (0x18, 4, 3), (0x1C, 1, 1), (0x20, 8, 0xE008000000), (0x28, 4, 3)]]), 1, (pkt 0x0402 0 [(0x10, 8, 0x1000), (0x18, 4, 3), (0x1C, 1, 1), (0x20, 8, 0xE008000000), (0x28, 4, 3)]), [7, 8, 9], rangeVerifies_of (by decide +kernel), mayBegin_of (by decide +kernel), by decide +kernel⟩,
  ⟨(inFlight storing [pkt 0x0403 0 [(0x10, 4, 0x04030201), (0x20, 8, 0xE008000000), (0x28, 4, 3)]]), 1, (pkt 0x0403 0 [(0x10, 4, 0x04030201), (0x20, 8, 0xE008000000), (0x28, 4, 3)]), by decide +kernel, by decide +kernel, by decide +kernel, by decide +kernel, rangeVerifies_of (by decide +kernel), mayBegin_of (by decide +kernel)⟩,
  ⟨(inFlight storing [pkt 0x0404 0 [(0x10, 8, 0xE008000000), (0x18, 4, 3), (0x20, 8, 0xE008000003), (0x28, 4, 3)]]), 1, (pkt 0x0404 0 [(0x10, 8, 0xE008000000), (0x18, 4, 3), (0x20, 8, 0xE008000003), (0x28, 4, 3)]), rangeVerifies_of (by decide +kernel), mayBegin_of (by decide +kernel), rangeVerifies_of (by decide +kernel), by decide +kernel⟩⟩

set_option maxRecDepth 100000 in
theorem test_witness_StoreUpkeep :
  (∃ (s : State) (pc : Nat) (port : Nat) (ch : Nat) (bank : Nat) (row : Nat),
    (ch < 65536) ∧ (bank < 16) ∧ (row < 512) ∧ (port < 10) ∧ ((getPc s pc).selfRefresh = false) ∧ ((getPc s pc).tg.running = false)) ∧
  (∃ (port : Nat) (ch : Nat) (bank : Nat) (row : Nat),
    (ch < 65536) ∧ (bank < 16) ∧ (row < 512) ∧ (port < 10)) ∧
  (∃ (s : State) (port : Nat) (ch : Nat) (bank : Nat) (row : Nat) (postpone : Bool),
    ((postpone = false ∧ (getChan s ch).run = none) ∨ 3 ≤ tget (getChan s ch).refreshOwed bank) ∧ (ch < 65536) ∧ (bank < 16) ∧ (row < 512) ∧ (port < 10) ∧ ((layerOf s ch).selfRefresh = false)) ∧
  (∃ (s : State) (port : Nat) (ch : Nat) (bank : Nat) (row : Nat) (postpone : Bool),
    (postpone = true ∨ ∃ r, (getChan s ch).run = some r ∧ (tget r.banks bank).state = .active) ∧ (ch < 65536) ∧ (bank < 16) ∧ (row < 512) ∧ (port < 10) ∧ ((layerOf s ch).selfRefresh = false) ∧ (tget (getChan s ch).refreshOwed bank < 3)) ∧
  (∃ (s : State) (port : Nat) (ch : Nat) (bank : Nat) (row : Nat),
    (∀ blk ∈ rangeFrom ((ch * 16 + bank) * 2048 + row * 4) 4, Verifies s blk) ∧ (ch < 65536) ∧ (bank < 16) ∧ (row < 512) ∧ (port < 10) ∧ (chanHeld s ch = false) ∧ ((layerOf s ch).inReset = false) ∧ (bankMappedOut s (ch * 16 + bank) = false)) ∧
  (∃ (s : State) (port : Nat) (ch : Nat) (bank : Nat) (row : Nat) (blk : _),
    (∀ x ∈ rangeFrom ((ch * 16 + bank) * 2048 + row * 4) 4, Verifies s x) ∧ (ch < 65536) ∧ (bank < 16) ∧ (row < 512) ∧ (port < 10) ∧ (chanHeld s ch = false) ∧ ((layerOf s ch).inReset = false) ∧ (bankMappedOut s (ch * 16 + bank) = false) ∧ (blk = (ch * 16 + bank) * 2048 + row * 4 + 3)) :=
 ⟨
  ⟨{ live with pcs := [(511, { writebacks := [4, 5] })], chans := [(65535, { refreshOwed := [(15, 2)] })] }, 511, 3, 65535, 15, 511, by decide +kernel⟩,
  ⟨3, 65535, 15, 511, by decide +kernel⟩,
  ⟨{ live with pcs := [(511, { writebacks := [4, 5] })], chans := [(65535, { refreshOwed := [(15, 2)] })] }, 3, 65535, 15, 511, false, .inl ⟨rfl, rfl⟩, by decide +kernel⟩,
  ⟨{ live with chans := [(65535, { refreshOwed := [(15, 2)], run := some { core := 8191, slotIndex := 3, banks := [(15, { state := .active })] } })] }, 3, 65535, 15, 511, false, .inr ⟨_, rfl, rfl⟩, by decide +kernel⟩,
  ⟨live, 3, 65535, 15, 511, fun blk hb => verifies_of (List.all_eq_true.mp (by decide +kernel : ((rangeFrom ((65535 * 16 + 15) * 2048 + 511 * 4) 4).all (verifiesB live)) = true) blk hb), by decide +kernel⟩,
  ⟨live, 3, 65535, 15, 511, 2147483647, fun blk hb => verifies_of (List.all_eq_true.mp (by decide +kernel : ((rangeFrom ((65535 * 16 + 15) * 2048 + 511 * 4) 4).all (verifiesB live)) = true) blk hb), by decide +kernel⟩⟩

set_option maxRecDepth 100000 in
theorem test_witness_RegisterAccess :
  (∃ (s : State) (core : Nat) (off : Nat),
    (core < 8192) ∧ (off < 0x80000) ∧ (off % 4 = 0) ∧ Served s) ∧
  (∃ (s : State) (core : Nat) (off : Nat),
    (core < 8192) ∧ (off < 0x80000) ∧ (off % 4 = 0) ∧ Served s ∧ (3 ≤ s.pcie.phase.toNat)) ∧
  (∃ (s : State) (core : Nat) (off : Nat),
    (core < 8192) ∧ (off < 0x80000) ∧ (off % 4 = 0) ∧ Served s ∧ (ctlAway s (.core core 0) = false)) ∧
  (∃ (s : State) (core : Nat) (off : Nat),
    (core < 8192) ∧ (off < 0x80000) ∧ (off % 4 = 0) ∧ Served s ∧ (inControl (s.pcie.ctlWindow.toNat * 0x80000 + off) = true)) ∧
  (∃ (s : State) (core : Nat) (off : Nat),
    (core < 8192) ∧ (off < 0x80000) ∧ (off % 4 = 0) ∧ Served s ∧ (inControl (s.pcie.ctlWindow.toNat * 0x80000 + off) = false)) ∧
  (∃ (s : State) (core : Nat) (off : Nat),
    (core < 8192) ∧ (off < 0x80000) ∧ (off % 4 = 0) ∧ (s.pcie.linkUp = true)) ∧
  (∃ (s : State) (value : Word64) (core : Nat) (off : Nat),
    (core < 8192) ∧ (off < 0x80000) ∧ (off % 4 = 0) ∧ (s.pcie.linkUp = true) ∧ (bitOf value.toNat 2 = false)) :=
 ⟨
  ⟨{ live with cores := [(8191, { vecIv := true, vecNx := true, stallDry := 0xFFFFFFFF })], errors := { dropped := 7 } }, 8191, 0x7FFFC, by decide +kernel, by decide +kernel, by decide +kernel, served_of (by decide +kernel)⟩,
  ⟨{ live with cores := [(8191, { vecIv := true, vecNx := true, stallDry := 0xFFFFFFFF })], errors := { dropped := 7 } }, 8191, 0x7FFFC, by decide +kernel, by decide +kernel, by decide +kernel, served_of (by decide +kernel), by decide +kernel⟩,
  ⟨{ live with cores := [(8191, { vecIv := true, vecNx := true, stallDry := 0xFFFFFFFF })], errors := { dropped := 7 } }, 8191, 0x7FFFC, by decide +kernel, by decide +kernel, by decide +kernel, served_of (by decide +kernel), by decide +kernel⟩,
  ⟨{ live with pcie := { live.pcie with ctlWindow := 0x1E3000 } }, 8191, 4, by decide +kernel, by decide +kernel, by decide +kernel, served_of (by decide +kernel), by decide +kernel⟩,
  ⟨{ live with pcie := { live.pcie with ctlWindow := 0 } }, 8191, 0x7FFFC, by decide +kernel, by decide +kernel, by decide +kernel, served_of (by decide +kernel), by decide +kernel⟩,
  ⟨{ live with cores := [(8191, { vecIv := true, vecNx := true, stallDry := 0xFFFFFFFF })], errors := { dropped := 7 } }, 8191, 0x7FFFC, by decide +kernel⟩,
  ⟨{ live with cores := [(8191, { vecIv := true, vecNx := true, stallDry := 0xFFFFFFFF })], errors := { dropped := 7 } }, 0x11, 8191, 0x7FFFC, by decide +kernel⟩⟩

set_option maxRecDepth 100000 in
theorem test_witness_Collectives :
  (∃ (s : State) (p : Nat) (k : Packet),
    MayBegin s p 0x0601 k ∧ (k.context < 256) ∧ ((getColl s k.context).run = none) ∧ (argAt k 0x10 1 = 0xFF)) ∧
  (∃ (s : State) (p : Nat) (k : Packet),
    MayBegin s p 0x0601 k ∧ (k.context < 256) ∧ ((getColl s k.context).run = none) ∧ (argAt k 0x10 1 ≠ 0xFF) ∧ (collOk k (collDefOf k) = true)) ∧
  (∃ (s : State) (p : Nat) (k : Packet),
    MayBegin s p 0x0601 k ∧ (k.context < 256) ∧ ((getColl s k.context).run = none) ∧ (argAt k 0x10 1 ≠ 0xFF) ∧ (collOk k (collDefOf k) = false)) ∧
  (∃ (s : State) (p : Nat) (k : Packet),
    MayBegin s p 0x0601 k ∧ (k.context < 256) ∧ ((getColl s k.context).run ≠ none)) ∧
  (∃ (s : State) (n : Nat) (d : CollDef) (p : _) (k : Packet),
    MayBegin s p 0x0602 k ∧ ((getColl s n).def? = some d) ∧ (n < 256) ∧ (k.context = n) ∧ ((getColl s n).run = none) ∧ (d.contributors ≠ [])) ∧
  (∃ (s : State) (n : Nat) (d : CollDef) (r : CollRun) (w : Wake) (k : Packet) (order : List Nat),
    (∀ o ∈ d.contributors, RangeVerifies s (0xE008000000 + o) (d.elements * collElem d.fmt) ∧ o + d.elements * collElem d.fmt ≤ 0x10000000) ∧ RangeVerifies s (0xE008000000 + d.resultOffset) (d.elements * collElem d.fmt) ∧ ((getColl s n).def? = some d) ∧ (n < 256) ∧ ((getColl s n).run = some r) ∧ (r.reduced = false) ∧ (r.poisoned = false) ∧ (collWake s n 0 = some w) ∧ (d.type = 0) ∧ (d.peers = []) ∧ (getPacket s r.packet = some k) ∧ (k.answer = none) ∧ (∀ v ∈ s.waiters, v.issuer ≠ .command r.packet) ∧ (∀ v ∈ s.weft.writes, v.issuer ≠ .reduction n) ∧ (d.resultOffset + d.elements * collElem d.fmt ≤ 0x10000000) ∧ (isOrder d.contributors.length order = true)) ∧
  (∃ (s : State) (n : Nat) (d : CollDef) (r : CollRun) (w : Wake) (i : _) (dev : _) (knot : _) (slot : _),
    RangeVerifies s (0xE008000000 + slot) (d.elements * collElem d.fmt) ∧ RangeVerifies s (0xE008000000 + (d.resultOffset + peerRank d i * (d.elements * collElem d.fmt))) (d.elements * collElem d.fmt) ∧ ((getColl s n).def? = some d) ∧ (n < 256) ∧ ((getColl s n).run = some r) ∧ (r.reduced = true) ∧ (r.peersDone.contains i = false) ∧ (receivesFrom d i = true) ∧ (collWake s n (i + 1) = some w) ∧ (d.peers[i]? = some (dev, knot, slot)) ∧ (d.type = 2) ∧ (d.resultOffset + collN d * d.elements * collElem d.fmt ≤ 0x10000000) ∧ (slot + d.elements * collElem d.fmt ≤ 0x10000000) ∧ (peerRank d i < collN d)) :=
 ⟨
  ⟨{ inFlight live [pkt 0x0601 255 [(0x10, 1, 0xFF)]] with colls := [(255, { def? := some {} })] }, 1, (pkt 0x0601 255 [(0x10, 1, 0xFF)]), mayBegin_of (by decide +kernel), by decide +kernel⟩,
  ⟨(inFlight live [pkt 0x0601 255 [(0x10, 1, 0), (0x11, 1, 2), (0x13, 1, 1), (0x18, 4, 8), (0x1C, 4, 0x1000), (0x20, 2, 8192), (0x22, 2, 8193)] (toBytes 64 0x2000)]), 1, (pkt 0x0601 255 [(0x10, 1, 0), (0x11, 1, 2), (0x13, 1, 1), (0x18, 4, 8), (0x1C, 4, 0x1000), (0x20, 2, 8192), (0x22, 2, 8193)] (toBytes 64 0x2000)), mayBegin_of (by decide +kernel), by decide +kernel⟩,
  ⟨(inFlight live [pkt 0x0601 255 [(0x10, 1, 5), (0x11, 1, 2), (0x13, 1, 1), (0x18, 4, 8), (0x1C, 4, 0x1000), (0x20, 2, 8192), (0x22, 2, 8193)] (toBytes 64 0x2000)]), 1, (pkt 0x0601 255 [(0x10, 1, 5), (0x11, 1, 2), (0x13, 1, 1), (0x18, 4, 8), (0x1C, 4, 0x1000), (0x20, 2, 8192), (0x22, 2, 8193)] (toBytes 64 0x2000)), mayBegin_of (by decide +kernel), by decide +kernel⟩,
  ⟨{ inFlight live [pkt 0x0601 255 [(0x10, 1, 0xFF)]] with colls := [(255, { def? := some {}, run := some { packet := 4, contribTarget := 0, peerTargets := [] } })] }, 1, (pkt 0x0601 255 [(0x10, 1, 0xFF)]), mayBegin_of (by decide +kernel), by decide +kernel⟩,
  ⟨{ inFlight live [pkt 0x0602 255 []] with colls := [(255, { def? := some { type := 0, fmt := 1, elements := 8, resultOffset := 0x1000, contribKnot := 8192, resultKnot := 8193, contributors := [0x2000, 0x3000] } })], knots := [(8192, { value := 5 })] }, 255, { type := 0, fmt := 1, elements := 8, resultOffset := 0x1000, contribKnot := 8192, resultKnot := 8193, contributors := [0x2000, 0x3000] }, 1, (pkt 0x0602 255 []), mayBegin_of (by decide +kernel), by decide +kernel⟩,
  ⟨{ inFlight live [{ pkt 0x0602 255 [] with started := true }] with colls := [(255, { def? := some { type := 0, fmt := 1, elements := 8, resultOffset := 0x1000, contribKnot := 8192, resultKnot := 8193, contributors := [0x2000, 0x3000] }, run := some { packet := 1, contribTarget := 7, peerTargets := [] } })], knots := [(8192, { value := 7 })], wakes := [{ issuer := .reduction 255, knot := 8192, value := 7 }], mem := writeBytes {} 0xE008002000 (List.replicate 32 0) }, 255, { type := 0, fmt := 1, elements := 8, resultOffset := 0x1000, contribKnot := 8192, resultKnot := 8193, contributors := [0x2000, 0x3000] }, { packet := 1, contribTarget := 7, peerTargets := [] }, { issuer := .reduction 255, knot := 8192, value := 7 }, { pkt 0x0602 255 [] with started := true }, [1, 0], by
    intro o ho
    simp only [List.mem_cons, List.not_mem_nil, or_false] at ho
    rcases ho with rfl | rfl <;> exact ⟨rangeVerifies_of (by decide +kernel), by decide +kernel⟩, rangeVerifies_of (by decide +kernel), by decide +kernel⟩,
  ⟨{ live with colls := [(255, { def? := some { type := 2, fmt := 1, elements := 8, resultOffset := 0x1000, resultKnot := 8193, rank := 0, contributors := [0x2000], peers := [(3, 8194, 0x4000)] }, run := some { packet := 1, contribTarget := 7, peerTargets := [1], reduced := true } })], wakes := [{ issuer := .reduction 255, knot := 8194, value := 1, tag := 1 }] }, 255, { type := 2, fmt := 1, elements := 8, resultOffset := 0x1000, resultKnot := 8193, rank := 0, contributors := [0x2000], peers := [(3, 8194, 0x4000)] }, { packet := 1, contribTarget := 7, peerTargets := [1], reduced := true }, { issuer := .reduction 255, knot := 8194, value := 1, tag := 1 }, 0, 3, 8194, 0x4000, rangeVerifies_of (by decide +kernel), rangeVerifies_of (by decide +kernel), by decide +kernel⟩⟩

set_option maxRecDepth 100000 in
theorem test_witness_PcieAndPins :
  (∃ (s : State),
    (s.pins.pwrok = true) ∧ (s.pins.refclkLost = false)) ∧
  (∃ (s : State),
    (s.pins.pwrok = true) ∧ (s.pins.refclkLost = false) ∧ (s.pcie.linkUp = true)) ∧
  (∃ (s : State),
    (s.pins.pwrok = true) ∧ (s.pins.refclkLost = false) ∧ (s.pcie.linkUp = true) ∧ (∀ p, .reply p ∉ s.pcie.held)) ∧
  (∃ (s : State) (speed : Nat) (width : Nat),
    (s.pins.pwrok = true) ∧ (s.pins.refclkLost = false) ∧ (128 ≤ speed) ∧ (16 ≤ width)) ∧
  (∃ (s : State) (speed : Nat),
    (s.pins.pwrok = true) ∧ (s.pins.refclkLost = false) ∧ (speed < 128)) ∧
  (∃ (s : State),
    (s.pins.pwrok = false)) ∧
  (∃ (s : State),
    (s.pins.pwrok = true)) :=
 ⟨
  ⟨{ live with pcie := { live.pcie with held := [.msix 1], msixPending := [4] }, mem := writeBytes {} 5 [1] }, by decide +kernel⟩,
  ⟨{ live with pcie := { live.pcie with held := [.msix 1], msixPending := [4] }, mem := writeBytes {} 5 [1] }, by decide +kernel⟩,
  ⟨{ live with pcie := { live.pcie with held := [.msix 1], msixPending := [4] }, mem := writeBytes {} 5 [1] }, by decide +kernel, by decide +kernel, by decide +kernel, fun p h => by
    have h : PcieTx.reply p ∈ [PcieTx.msix 1] := h
    simp at h⟩,
  ⟨{ live with pcie := { live.pcie with held := [.msix 1], msixPending := [4] }, mem := writeBytes {} 5 [1] }, 128, 16, by decide +kernel⟩,
  ⟨{ live with pcie := { live.pcie with held := [.msix 1], msixPending := [4] }, mem := writeBytes {} 5 [1] }, 127, by decide +kernel⟩,
  ⟨State.reset, by decide +kernel⟩,
  ⟨{ live with pcie := { live.pcie with held := [.msix 1], msixPending := [4] }, mem := writeBytes {} 5 [1] }, by decide +kernel⟩⟩

set_option maxRecDepth 100000 in
theorem test_witness_DeviceResets :
  (∃ (s : State) (o : ResetOrder) (cause : ResetCause),
    (∀ p, o.packet = some p → getPacket s p = none) ∧ (s.pins.pwrok = true) ∧ (s.pins.refclkLost = false) ∧ (s.resets = [o]) ∧ (o.unit = 0) ∧ (o.cause = cause) ∧ (o.done = false) ∧ (o.scope = .warm)) ∧
  (∃ (s : State) (o : ResetOrder) (cause : ResetCause),
    (∀ p, o.packet = some p → getPacket s p = none) ∧ (s.pins.pwrok = true) ∧ (s.pins.refclkLost = false) ∧ (s.resets = [o]) ∧ (o.unit = 0) ∧ (o.cause = cause) ∧ (o.done = false) ∧ (o.scope = .cold)) :=
 ⟨
  ⟨{ live with resets := [{ scope := .warm, unit := 0, cause := .pcie }], mem := writeBytes {} 5 [1], knots := [(3, { value := 1 })], slots := [(3, { phase := .loaded })] }, { scope := .warm, unit := 0, cause := .pcie }, .pcie, fun _ _ => rfl, by decide +kernel⟩,
  ⟨{ live with resets := [{ scope := .cold, unit := 0, cause := .pcie }], mem := writeBytes {} 5 [1], knots := [(3, { value := 1 })], slots := [(3, { phase := .loaded })] }, { scope := .cold, unit := 0, cause := .pcie }, .pcie, fun _ _ => rfl, by decide +kernel⟩⟩

set_option maxRecDepth 100000 in
theorem test_witness_Containment :
  (∃ (s : State) (u : Nat),
    (coreServes s u = true) ∧ ((getCore s u).selfFenced = false) ∧ (((getCore s u).selfFenceAt.filter (fun x => decide (since (counterOf s (dieOfCore u)) x < 100000000))).length < 2)) ∧
  (∃ (s : State) (u : Nat),
    (coreServes s u = true) ∧ ((getCore s u).selfFenced = false) ∧ (2 ≤ ((getCore s u).selfFenceAt.filter (fun x => decide (since (counterOf s (dieOfCore u)) x < 100000000))).length)) ∧
  (∃ (s : State) (u : Nat),
    (u < 128) ∧ (regionOn s (u / 8) = true) ∧ ((getRegion s (u / 8)).inReset = false) ∧ (orderFor s .block u .containment = none)) ∧
  (∃ (s : State) (u : Nat),
    (u < 16) ∧ (managerUp s = true) ∧ (regionOn s u = true) ∧ ((getRegion s u).inReset = false) ∧ (∀ k ∈ s.packets, servedByRegion s u k = false)) ∧
  (∃ (s : State),
    (managerUp s = true) ∧ (s.pcie.rescueOnly = false)) ∧
  (∃ (s : State),
    (managerUp s = true) ∧ (s.errors.fatalPending = true)) :=
 ⟨
  ⟨{ live with cores := [(8191, { selfFenceAt := [0] })] }, 8191, by decide +kernel⟩,
  ⟨{ live with cores := [(8191, { selfFenceAt := [0, 0] })] }, 8191, by decide +kernel⟩,
  ⟨live, 127, by decide +kernel⟩,
  ⟨live, 15, by decide +kernel⟩,
  ⟨live, by decide +kernel⟩,
  ⟨{ live with errors := { fatalPending := true } }, by decide +kernel⟩⟩

set_option maxRecDepth 100000 in
theorem test_witness_UnitAndDieResets :
  (∃ (s : State) (o : ResetOrder) (u : Nat) (p : Nat) (k : Packet) (cause : ResetCause),
    (s.resets = [o]) ∧ (o.unit = u) ∧ (o.cause = cause) ∧ (o.done = false) ∧ (o.packet = some p) ∧ (o.mailbox = none) ∧ (orderClocked s o = true) ∧ (∀ b ∈ s.batches, b.running = false) ∧ (getPacket s p = some k) ∧ (k.answer = none) ∧ (k.opcode = 0x0A01) ∧ (o.scope = .core) ∧ (u < 8192)) ∧
  (∃ (s : State) (o : ResetOrder) (u : Nat) (c : Nat) (p : Nat) (k : Packet) (cause : ResetCause),
    (s.resets = [o]) ∧ (o.unit = u) ∧ (o.cause = cause) ∧ (o.done = false) ∧ (o.packet = some p) ∧ (o.mailbox = none) ∧ (orderClocked s o = true) ∧ (∀ b ∈ s.batches, b.running = false) ∧ (getPacket s p = some k) ∧ (k.answer = none) ∧ (k.opcode = 0x0A01) ∧ (o.scope = .block) ∧ (u < 128) ∧ (64 * u ≤ c) ∧ (c < 64 * u + 64)) ∧
  (∃ (s : State) (o : ResetOrder) (u : Nat) (c : Nat) (p : Nat) (k : Packet) (cause : ResetCause),
    (∀ ch, (getChan s ch).tg.packet ≠ some p) ∧ (∀ pc, (getPc s pc).tg.packet ≠ some p) ∧ (s.resets = [o]) ∧ (o.unit = u) ∧ (o.cause = cause) ∧ (o.done = false) ∧ (o.packet = some p) ∧ (o.mailbox = none) ∧ (orderClocked s o = true) ∧ (∀ b ∈ s.batches, b.running = false) ∧ (getPacket s p = some k) ∧ (k.answer = none) ∧ (k.opcode = 0x0A01) ∧ (o.scope = .region) ∧ (u < 16) ∧ (512 * u ≤ c) ∧ (c < 512 * u + 512)) ∧
  (∃ (s : State) (pos : Nat) (layer : Nat),
    (∀ ch, (getChan s ch).run = none ∧ (getChan s ch).queue = []) ∧ (pos < 4) ∧ (layer < 8) ∧ (managerUp s = true) ∧ (dieServes s pos = true) ∧ ((tget s.dies pos).clocksStopped = false) ∧ (∀ o ∈ s.resets, o.scope ≠ .mLayer)) ∧
  (∃ (s : State) (pos : Nat) (layer : Nat),
    (pos < 4) ∧ (layer < 8) ∧ (managerUp s = true) ∧ ((tget s.dies pos).heldOut = true) ∧ ((tget s.dies pos).inReset = false)) ∧
  (∃ (s : State) (pos : Nat) (layer : Nat) (u : Nat) (o : ResetOrder),
    (pos < 4) ∧ (layer < 8) ∧ (managerUp s = true) ∧ (s.resets = [o]) ∧ (o.unit = u) ∧ (o.mailbox = none) ∧ (o.scope = .core) ∧ ((getCore s u).absent = false)) ∧
  (∃ (s : State) (pos : Nat) (layer : Nat) (u : Nat) (o : ResetOrder),
    (pos < 4) ∧ (layer < 8) ∧ (managerUp s = true) ∧ (s.resets = [o]) ∧ (o.unit = u) ∧ (o.mailbox = none) ∧ (o.scope = .block) ∧ (s.packets = [])) ∧
  (∃ (s : State) (pos : Nat) (layer : Nat) (u : Nat) (o : ResetOrder),
    (pos < 4) ∧ (layer < 8) ∧ (managerUp s = true) ∧ (s.resets = [o]) ∧ (o.unit = u) ∧ (o.mailbox = none) ∧ (o.scope = .region)) ∧
  (∃ (s : State) (pos : Nat) (layer : Nat),
    (pos < 4) ∧ (layer < 8) ∧ (managerUp s = true) ∧ (dieServes s pos = true) ∧ (∃ o ∈ s.resets, o.scope = .mLayer ∧ o.unit = pos * 8 + layer)) :=
 ⟨
  ⟨{ inFlight live [{ pkt 0x0A01 0 [] with started := true }] with resets := [{ scope := .core, unit := 8191, packet := some 1 }], cores := [(8191, { inReset := true, selfFenceAt := [3], pc := 7 })], regions := live.regions.map (fun e => (e.1, if e.1 = 15 then { e.2 with inReset := true, active := 3 } else e.2)) }, { scope := .core, unit := 8191, packet := some 1 }, 8191, 1, { pkt 0x0A01 0 [] with started := true }, .command, by decide +kernel⟩,
  ⟨{ inFlight live [{ pkt 0x0A01 0 [] with started := true }] with resets := [{ scope := .block, unit := 127, packet := some 1 }], cores := [(8191, { inReset := true, selfFenceAt := [3], pc := 7 })], regions := live.regions.map (fun e => (e.1, if e.1 = 15 then { e.2 with inReset := true, active := 3 } else e.2)) }, { scope := .block, unit := 127, packet := some 1 }, 127, 8191, 1, { pkt 0x0A01 0 [] with started := true }, .command, by decide +kernel⟩,
  ⟨{ inFlight live [{ pkt 0x0A01 0 [] with started := true }] with resets := [{ scope := .region, unit := 15, packet := some 1 }], cores := [(8191, { inReset := true, selfFenceAt := [3], pc := 7 })], regions := live.regions.map (fun e => (e.1, if e.1 = 15 then { e.2 with inReset := true, active := 3 } else e.2)) }, { scope := .region, unit := 15, packet := some 1 }, 15, 8191, 1, { pkt 0x0A01 0 [] with started := true }, .command, fun _ => show (none : Option Nat) ≠ some 1 from by decide, fun _ => show (none : Option Nat) ≠ some 1 from by decide, by decide +kernel⟩,
  ⟨live, 3, 7, fun _ => ⟨rfl, rfl⟩, by decide +kernel⟩,
  ⟨{ live with dies := [(3, { heldOut := true })] }, 3, 7, by decide +kernel⟩,
  ⟨{ live with resets := [{ scope := .core, unit := 8191, packet := some 1 }] }, 3, 7, 8191, { scope := .core, unit := 8191, packet := some 1 }, by decide +kernel⟩,
  ⟨{ live with resets := [{ scope := .block, unit := 127, packet := some 1 }] }, 3, 7, 127, { scope := .block, unit := 127, packet := some 1 }, by decide +kernel⟩,
  ⟨{ live with resets := [{ scope := .region, unit := 15, packet := some 1 }] }, 3, 7, 15, { scope := .region, unit := 15, packet := some 1 }, by decide +kernel⟩,
  ⟨{ live with resets := [{ scope := .mLayer, unit := 31, cause := .containment }] }, 3, 7, by decide +kernel, by decide +kernel, by decide +kernel, by decide +kernel, ⟨_, .head _, rfl, rfl⟩⟩⟩

set_option maxRecDepth 100000 in
theorem test_witness_ResetCommands :
  (∃ (s : State) (p : Nat) (k : Packet),
    (s.thermal.stop = 0) ∧ MayBegin s p 0x0A01 k ∧ (argAt k 0x10 4 = 0) ∧ (argAt k 0x14 4 < 8192) ∧ (coreRefusal s (argAt k 0x14 4) = 0)) ∧
  (∃ (s : State) (p : Nat) (k : Packet),
    (s.thermal.stop = 0) ∧ MayBegin s p 0x0A01 k ∧ (argAt k 0x10 4 = 1) ∧ (argAt k 0x14 4 < 128) ∧ (regionRefusal s (argAt k 0x14 4 / 8) = 0)) ∧
  (∃ (s : State) (p : Nat) (k : Packet),
    (s.thermal.stop = 0) ∧ MayBegin s p 0x0A01 k ∧ (argAt k 0x10 4 = 3)) ∧
  (∃ (s : State) (p : Nat) (k : Packet),
    (s.thermal.stop = 0) ∧ MayBegin s p 0x0A01 k ∧ (argAt k 0x10 4 = 4)) ∧
  (∃ (s : State) (p : Nat) (k : Packet),
    MayBegin s p 0x0A04 k ∧ (∀ n c, (getSeq s n).pending = some c → c.packet ≠ p) ∧ (s.thermal.stop = 0) ∧ (argAt k 0x10 4 = 2) ∧ (argAt k 0x14 4 < 65536) ∧ (coreRefusal s (argAt k 0x14 4 / 8) = 0) ∧ ((getChan s (argAt k 0x14 4)).chOut = false)) ∧
  (∃ (s : State) (p : Nat) (k : Packet),
    MayBegin s p 0x0A04 k ∧ (s.thermal.stop = 0) ∧ (argAt k 0x10 4 = 2) ∧ (argAt k 0x14 4 < 65536) ∧ (coreRefusal s (argAt k 0x14 4 / 8) = 0) ∧ ((getChan s (argAt k 0x14 4)).chOut = true)) ∧
  (∃ (s : State) (p : Nat) (k : Packet),
    (s.thermal.stop = 0) ∧ MayBegin s p 0x0903 k ∧ (hostBarred s k = false) ∧ (s.flash.staged = true)) :=
 ⟨
  ⟨(inFlight live [pkt 0x0A01 0 [(0x10, 4, 0), (0x14, 4, 8191)]]), 1, (pkt 0x0A01 0 [(0x10, 4, 0), (0x14, 4, 8191)]), by decide +kernel, mayBegin_of (by decide +kernel), by decide +kernel⟩,
  ⟨(inFlight live [pkt 0x0A01 0 [(0x10, 4, 1), (0x14, 4, 127)]]), 1, (pkt 0x0A01 0 [(0x10, 4, 1), (0x14, 4, 127)]), by decide +kernel, mayBegin_of (by decide +kernel), by decide +kernel⟩,
  ⟨(inFlight live [pkt 0x0A01 0 [(0x10, 4, 3)]]), 1, (pkt 0x0A01 0 [(0x10, 4, 3)]), by decide +kernel, mayBegin_of (by decide +kernel), by decide +kernel⟩,
  ⟨(inFlight live [pkt 0x0A01 0 [(0x10, 4, 4)]]), 1, (pkt 0x0A01 0 [(0x10, 4, 4)]), by decide +kernel, mayBegin_of (by decide +kernel), by decide +kernel⟩,
  ⟨(inFlight live [pkt 0x0A04 0 [(0x10, 4, 2), (0x14, 4, 65535)]]), 1, (pkt 0x0A04 0 [(0x10, 4, 2), (0x14, 4, 65535)]), mayBegin_of (by decide +kernel), fun _ c h => absurd (show (none : Option PendingCmd) = some c from h) (by simp), by decide +kernel⟩,
  ⟨{ inFlight live [pkt 0x0A04 0 [(0x10, 4, 2), (0x14, 4, 65535)]] with chans := [(65535, { chOut := true })] }, 1, (pkt 0x0A04 0 [(0x10, 4, 2), (0x14, 4, 65535)]), mayBegin_of (by decide +kernel), by decide +kernel⟩,
  ⟨{ inFlight live [pkt 0x0903 0 []] with flash := { live.flash with staged := true } }, 1, (pkt 0x0903 0 []), by decide +kernel, mayBegin_of (by decide +kernel), by decide +kernel⟩⟩

set_option maxRecDepth 100000 in
theorem test_witness_StopsAndTrips :
  (∃ (s : State) (p : Nat) (k : Packet),
    MayBegin s p 0x0805 k ∧ (s.thermal.stop = 0) ∧ (s.thermal.clockOrdered = false) ∧ (s.weft.ownManager = none)) ∧
  (∃ (s : State) (p : Nat) (k : Packet),
    MayBegin s p 0x0805 k ∧ (2 ≤ s.thermal.stop)) ∧
  (∃ (s : State) (p : Nat) (k : Packet),
    (managerUp s = true) ∧ (s.thermal.stop = 1) ∧ (s.thermal.clockOrdered = false) ∧ (s.resets = []) ∧ (s.batches = []) ∧ (s.cores = []) ∧ (s.packets = [k]) ∧ (k.id = p) ∧ (k.opcode = 0x0805) ∧ (k.started = true) ∧ (k.answer = none) ∧ (s.thermal.waiting = [p]) ∧ (s.weft.ownManager = none)) ∧
  (∃ (s : State) (p : Nat) (k : Packet),
    (hubRuns s = true) ∧ (s.thermal.clockOrdered = true) ∧ (s.thermal.stop ≠ 4) ∧ (s.batches = []) ∧ (s.cores = []) ∧ (s.packets = [k]) ∧ (k.id = p) ∧ (k.opcode = 0x0805) ∧ (k.started = true) ∧ (k.answer = none) ∧ (s.thermal.waiting = [p])) ∧
  (∃ (s : State) (pos : Nat) (layer : Nat),
    (pos < 4) ∧ (layer < 8) ∧ (s.pins.pwrok = true) ∧ (dieServes s pos = true)) ∧
  (∃ (s : State) (pos : Nat) (layer : Nat),
    (pos < 4) ∧ (layer < 8) ∧ (s.pins.pwrok = true)) :=
 ⟨
  ⟨(inFlight live [pkt 0x0805 0 []]), 1, (pkt 0x0805 0 []), mayBegin_of (by decide +kernel), by decide +kernel⟩,
  ⟨{ inFlight live [pkt 0x0805 0 []] with thermal := { stop := 2 } }, 1, (pkt 0x0805 0 []), mayBegin_of (by decide +kernel), by decide +kernel⟩,
  ⟨{ inFlight live [{ pkt 0x0805 0 [] with started := true }] with thermal := { stop := 1, waiting := [1] } }, 1, { pkt 0x0805 0 [] with started := true }, by decide +kernel⟩,
  ⟨{ inFlight live [{ pkt 0x0805 0 [] with started := true }] with thermal := { stop := 1, waiting := [1], clockOrdered := true } }, 1, { pkt 0x0805 0 [] with started := true }, by decide +kernel⟩,
  ⟨live, 3, 7, by decide +kernel⟩,
  ⟨live, 3, 7, by decide +kernel⟩⟩

theorem length_toBytes : ∀ n v, (toBytes n v).length = n
  | 0, _ => rfl
  | n + 1, v => by rw [toBytes, List.length_cons, length_toBytes n]

theorem length_padTo (n : Nat) (b : Bytes) : (padTo n b).length ≤ n := by
  simp only [padTo, List.length_append, List.length_take, List.length_replicate]
  omega

theorem attestReport_le (s : State) (hc : s.flash.chain = []) (nonce : Bytes) (mask : Nat)
    (hm : (List.range 8).filter (bitOf mask) = []) : (attestReport s nonce mask).length ≤ 17300 := by
  have h8 := length_padTo 8 ((s.boot.image.drop 8).take 8)
  have h32 := length_padTo 32 nonce
  simp only [attestReport, hm, hc, List.flatMap_nil, List.flatten_nil, List.length_append, length_toBytes, List.length_nil]
  have hs := length_padTo 17088
  generalize ht : Config.slhSign _ = x
  have := hs x
  split <;> (try simp only [length_toBytes]) <;> omega

set_option maxRecDepth 100000 in
theorem test_witness_FirmwareAndAttestation (lic img old : Bytes) (hl : lic.length = 16384)
    (h : licStatus live lic = 0) (hi : img.length = 65536) (hr : imgReason live img = 0) (ho : old.length = 65536)
    (h4 : imgReason live old = 4) :
  (∃ (s : State) (p : Nat) (k : Packet) (b : Bytes),
    ((bufA k).len = b.length) ∧ MayBegin s p 0x0901 k ∧ (b.length ≤ 16384) ∧ (licStatus s b = 0) ∧ (hostBarred s k = false) ∧ (flashBusy s k = false) ∧ (s.pcie.d3hot = false) ∧ (s.pcie.busMaster = true) ∧ ((bufA k).host = true)) ∧
  (∃ (s : State) (p : Nat) (k : Packet) (b : Bytes),
    MayBegin s p 0x0901 k ∧ (hostBarred s k = false) ∧ (flashBusy s k = false) ∧ (s.pcie.d3hot = false) ∧ (s.pcie.busMaster = true) ∧ ((bufA k).host = true) ∧ ((bufA k).len = b.length) ∧ (b.length ≤ 16384) ∧ (licStatus s b ≠ 0)) ∧
  (∃ (s : State) (p : Nat) (k : Packet) (b : Bytes),
    ((bufA k).len = b.length) ∧ MayBegin s p 0x0902 k ∧ (b.length ≤ 67108864) ∧ (imgReason s b = 0) ∧ (hostBarred s k = false) ∧ (flashBusy s k = false) ∧ (s.pcie.d3hot = false) ∧ (s.pcie.busMaster = true) ∧ ((bufA k).host = true)) ∧
  (∃ (s : State) (p : Nat) (k : Packet) (b : Bytes),
    ((bufA k).len = b.length) ∧ MayBegin s p 0x0902 k ∧ (b.length ≤ 67108864) ∧ (imgReason s b = 4) ∧ (hostBarred s k = false) ∧ (flashBusy s k = false) ∧ (s.pcie.d3hot = false) ∧ (s.pcie.busMaster = true) ∧ ((bufA k).host = true)) ∧
  (∃ (s : State) (p : Nat) (k : Packet) (r : Bytes),
    MayBegin s p 0x0904 k ∧ (r = attestReport s (k.args.take 32) (argAt k 0x30 4)) ∧ (argAt k 0x30 4 < 256) ∧ ((bufAt k.params 0).host = true) ∧ (s.pcie.d3hot = false) ∧ (s.pcie.busMaster = true) ∧ (r.length ≤ (bufAt k.params 0).len)) ∧
  (∃ (s : State) (mask : BitVec 32),
    (hubRuns s = true) ∧ (s.pins.pwrok = true) ∧ (2 ≤ s.pcie.phase.toNat) ∧ (mask.toNat < 256)) ∧
  (∃ (s : State),
    (hubRuns s = true) ∧ (s.pins.pwrok = true) ∧ (s.pcie.phase.toNat < 2) ∧ (s.pcie.rescueOnly = false) ∧ (s.pcie.doeHeld = none)) :=
 ⟨
  ⟨(inFlight live [pkt 0x0901 0 [(0x10, 8, 0x1000), (0x18, 4, 16384), (0x1C, 1, 1)]]), 1, (pkt 0x0901 0 [(0x10, 8, 0x1000), (0x18, 4, 16384), (0x1C, 1, 1)]), lic, hl.symm, mayBegin_of (by decide +kernel), Nat.le_of_eq hl, h, by decide +kernel⟩,
  ⟨(inFlight live [pkt 0x0901 0 [(0x10, 8, 0x1000), (0x18, 4, 0), (0x1C, 1, 1)]]), 1, (pkt 0x0901 0 [(0x10, 8, 0x1000), (0x18, 4, 0), (0x1C, 1, 1)]), [], mayBegin_of (by decide +kernel), by decide +kernel⟩,
  ⟨(inFlight live [pkt 0x0902 0 [(0x10, 8, 0x1000), (0x18, 4, 65536), (0x1C, 1, 1)]]), 1, (pkt 0x0902 0 [(0x10, 8, 0x1000), (0x18, 4, 65536), (0x1C, 1, 1)]), img, hi.symm, mayBegin_of (by decide +kernel), by omega, hr, by decide +kernel⟩,
  ⟨(inFlight live [pkt 0x0902 0 [(0x10, 8, 0x1000), (0x18, 4, 65536), (0x1C, 1, 1)]]), 1, (pkt 0x0902 0 [(0x10, 8, 0x1000), (0x18, 4, 65536), (0x1C, 1, 1)]), old, ho.symm, mayBegin_of (by decide +kernel), by omega, h4, by decide +kernel⟩,
  ⟨(inFlight live [pkt 0x0904 0 [] (toBytes 8 0x1000 ++ toBytes 4 0x10000 ++ toBytes 1 1 ++ toBytes 51 0)]), 1, (pkt 0x0904 0 [] (toBytes 8 0x1000 ++ toBytes 4 0x10000 ++ toBytes 1 1 ++ toBytes 51 0)), (attestReport (inFlight live [pkt 0x0904 0 [] (toBytes 8 0x1000 ++ toBytes 4 0x10000 ++ toBytes 1 1 ++ toBytes 51 0)]) (List.replicate 32 0) 0), mayBegin_of (by decide +kernel), rfl, by decide +kernel, by decide +kernel, by decide +kernel, by decide +kernel, Nat.le_trans (attestReport_le _ (by decide +kernel) _ 0 (by decide +kernel)) (by decide +kernel)⟩,
  ⟨live, 255, by decide +kernel⟩,
  ⟨{ State.reset with pins := { pwrok := true } }, by decide +kernel⟩⟩

/-- The bytes of a topology table (Table 13-12) of a device that stands alone, ahead of its CRC. -/
def aloneHead : Bytes :=
  (toBytes 4 0x4F504F54 ++ toBytes 2 0x0100 ++ toBytes 2 0 ++ toBytes 8 7 ++ toBytes 2 1 ++ List.replicate 302 0)
    ++ List.replicate 4096 0

/-- That table. -/
def aloneTable : Bytes := aloneHead ++ toBytes 4 3695441967

/-- A fold whose running value is computed at every element. -/
def foldNow (f : Nat → Byte → Nat) : Nat → Bytes → Nat
  | c, [] => c
  | c, x :: l => match f c x with
    | 0 => foldNow f 0 l
    | n + 1 => foldNow f (n + 1) l

theorem foldNow_eq (f : Nat → Byte → Nat) (l : Bytes) : ∀ c, l.foldl f c = foldNow f c l := by
  induction l with
  | nil => intro c; rfl
  | cons x l ih => intro c; rw [List.foldl_cons, ih, foldNow]; split <;> simp_all

theorem zeros_field (a b : Bytes) (o m n : Nat) (h : a.length = o) (hn : n < m) :
    fieldAt (a ++ List.replicate (4 * m) 0 ++ b) (o + 4 * n) 4 = 0 := by
  rw [show 4 * m = 4 * n + (4 + 4 * (m - n - 1)) by omega, ← List.replicate_append_replicate,
    ← List.replicate_append_replicate]
  unfold fieldAt
  rw [show a ++ (List.replicate (4 * n) (0 : Byte) ++ (List.replicate 4 0 ++ List.replicate (4 * (m - n - 1)) 0)) ++ b
    = (a ++ List.replicate (4 * n) (0 : Byte)) ++ (List.replicate 4 0 ++ (List.replicate (4 * (m - n - 1)) 0 ++ b)) by
      simp only [List.append_assoc]]
  rw [List.drop_left' (by rw [List.length_append, List.length_replicate, h]), List.take_left' List.length_replicate]
  rfl

set_option maxRecDepth 100000 in
theorem aloneTable_crc : crc32c (aloneTable.take 0x1140) = 3695441967 := by
  have h : foldNow (crcByteR 0x82F63B78) 0xFFFFFFFF (aloneTable.take 0x1140) = Nat.xor 3695441967 0xFFFFFFFF := by
    decide +kernel
  unfold crc32c
  rw [foldNow_eq, h]
  decide +kernel

set_option maxRecDepth 100000 in
theorem aloneTable_ok (s : State) (h : s.pcie.ready = false) : tableOk s aloneTable = true := by
  have hr : (List.range 1024).all (fun i => routeOk aloneTable (fieldAt aloneTable (0x140 + 4 * i) 4)) = true := by
    rw [List.all_eq_true]
    intro n hn
    rw [aloneTable, aloneHead, zeros_field _ _ 0x140 1024 n (by decide +kernel) (List.mem_range.mp hn)]
    decide +kernel
  unfold tableOk
  rw [aloneTable_crc, hr, h, Bool.not_false, Bool.true_or, Bool.true_or, Bool.and_true, Bool.and_true]
  decide +kernel

/-- TOPOLOGY_SET with a table, as a manager sends it over the weft. -/
def topoPkt (b : Bytes) : Packet := { pkt 0x0905 0 [] b with src := .manager 0 0 false }

/-- A device in phase 4 that waits for its table. -/
def topoState (b : Bytes) : State :=
  { inFlight live [topoPkt b] with pcie := { live.pcie with ready := false, topology := true, phase := 4 } }

theorem topoState_links : ∀ l, l < 16 → linkInService (topoState aloneTable) l = false := by
  decide +kernel

theorem topoState_phase : (topoState aloneTable).pcie.phase.toNat < 5 := by
  decide +kernel

theorem aloneTable_taken (s : State) (h : s.pcie.ready = false) : tableOk s (aloneTable.take 4420) = true := by
  rw [List.take_of_length_le (by decide +kernel)]
  exact aloneTable_ok s h

set_option maxRecDepth 100000 in
theorem test_witness_TopologyCommands :
  (∃ (s : State) (p : Nat) (k : Packet) (b : Bytes),
    MayBegin s p 0x0905 k ∧ (fromWeft k.src = true) ∧ (k.params = b) ∧ (b ≠ []) ∧ (4420 ≤ b.length) ∧ (tableOk s (b.take 4420) = false)) ∧
  (∃ (s : State) (p : Nat) (k : Packet) (b : Bytes),
    MayBegin s p 0x0905 k ∧ (fromWeft k.src = true) ∧ (k.params = b) ∧ (4420 ≤ b.length) ∧ (tableOk s (b.take 4420) = true) ∧ (s.pcie.phase.toNat < 5) ∧ (∀ l, l < 16 → linkInService s l = false)) ∧
  (∃ (s : State) (p : Nat) (k : Packet),
    MayBegin s p 0x0906 k ∧ (bitOf (argAt k 0x10 4) 0 = true) ∧ (s.boot.licence.any (·.manager) = false)) ∧
  (∃ (s : State) (p : Nat) (k : Packet),
    MayBegin s p 0x0906 k ∧ (bitOf (argAt k 0x10 4) 0 = false ∨ s.boot.licence.any (·.manager) = true)) ∧
  (∃ (s : State) (p : Nat) (k : Packet),
    MayBegin s p 0x0B02 k ∧ (argAt k 0x10 4 < 16) ∧ (argAt k 0x14 4 < 4) ∧ (argAt k 0x18 4 ≤ 60000000) ∧ ((getLink s (argAt k 0x10 4)).state = 0) ∧ ((getLink s (argAt k 0x10 4)).test = false)) ∧
  (∃ (s : State) (p : Nat) (k : Packet),
    (argAt k 0x10 4 < 16) ∧ (getPacket s p = some k) ∧ (k.opcode = 0x0B02) ∧ (k.started = true) ∧ (k.answer = none) ∧ (hubRuns s = true)) :=
 ⟨
  ⟨(topoState (List.replicate 4420 0)), 1, (topoPkt (List.replicate 4420 0)), (List.replicate 4420 0), mayBegin_of (by decide +kernel), by decide +kernel, rfl, by decide +kernel⟩,
  ⟨(topoState (aloneTable)), 1, (topoPkt (aloneTable)), (aloneTable), mayBegin_of (by decide +kernel), by decide +kernel, rfl, by decide +kernel, aloneTable_taken _ rfl, topoState_phase, topoState_links⟩,
  ⟨(inFlight live [pkt 0x0906 0 [(0x10, 4, 1), (0x14, 4, 7)]]), 1, (pkt 0x0906 0 [(0x10, 4, 1), (0x14, 4, 7)]), mayBegin_of (by decide +kernel), by decide +kernel⟩,
  ⟨(inFlight live [pkt 0x0906 0 [(0x10, 4, 0), (0x14, 4, 7)]]), 1, (pkt 0x0906 0 [(0x10, 4, 0), (0x14, 4, 7)]), mayBegin_of (by decide +kernel), by decide +kernel⟩,
  ⟨(inFlight live [pkt 0x0B02 0 [(0x10, 4, 15), (0x14, 4, 3), (0x18, 4, 60000000)]]), 1, (pkt 0x0B02 0 [(0x10, 4, 15), (0x14, 4, 3), (0x18, 4, 60000000)]), mayBegin_of (by decide +kernel), by decide +kernel⟩,
  ⟨(inFlight live [{ pkt 0x0B02 0 [(0x10, 4, 15), (0x14, 4, 3), (0x18, 4, 60000000)] with started := true }]), 1, { pkt 0x0B02 0 [(0x10, 4, 15), (0x14, 4, 3), (0x18, 4, 60000000)] with started := true }, by decide +kernel⟩⟩

set_option maxRecDepth 100000 in
theorem test_witness_AbortAndFailedRead :
  (∃ (s : State) (p : Nat) (k : Packet),
    MayBegin s p 0x0A02 k ∧ (∀ j ∈ s.packets, j.id ≠ p → abortSource k j = false ∨ j.tag ≠ argAt k 0x10 4)) ∧
  (∃ (s : State) (p : Nat) (k : Packet) (j : Packet),
    MayBegin s p 0x0A02 k ∧ (s.packets = [j, k]) ∧ (j.id ≠ p) ∧ (abortSource k j = true) ∧ (j.tag = argAt k 0x10 4) ∧ (j.opcode = 0x0503) ∧ (j.started = true) ∧ (j.away = false) ∧ (j.answer = none)) ∧
  (∃ (s : State) (p : Nat) (k : Packet),
    MayBegin s p 0x0402 k ∧ (k.params = []) ∧ ((bufA k).host = true)) :=
 ⟨
  ⟨(inFlight live [{ pkt 0x0A02 0 [(0x10, 4, 9), (0x14, 4, 0)] with id := 2, tag := 10 }]), 2, { pkt 0x0A02 0 [(0x10, 4, 9), (0x14, 4, 0)] with id := 2, tag := 10 }, mayBegin_of (by decide +kernel), by decide +kernel⟩,
  ⟨{ inFlight live [{ pkt 0x0503 8192 [(0x18, 8, 5)] with tag := 9, started := true }, { pkt 0x0A02 0 [(0x10, 4, 9), (0x14, 4, 0)] with id := 2, tag := 10 }] with waiters := [{ issuer := .command 1, knot := 8192, target := 5 }] }, 2, { pkt 0x0A02 0 [(0x10, 4, 9), (0x14, 4, 0)] with id := 2, tag := 10 }, { pkt 0x0503 8192 [(0x18, 8, 5)] with tag := 9, started := true }, mayBegin_of (by decide +kernel), by decide +kernel⟩,
  ⟨(inFlight live [pkt 0x0402 0 [(0x10, 8, 0x1000), (0x18, 4, 3), (0x1C, 1, 1), (0x20, 8, 0xE008000000), (0x28, 4, 3)]]), 1, (pkt 0x0402 0 [(0x10, 8, 0x1000), (0x18, 4, 3), (0x1C, 1, 1), (0x20, 8, 0xE008000000), (0x28, 4, 3)]), mayBegin_of (by decide +kernel), by decide +kernel⟩⟩

set_option maxRecDepth 100000 in
theorem test_witness_ModelCommands :
  (∃ (s : State) (p : Nat) (k : Packet) (b : Bytes) (f : DraftFail),
    MayBegin s p 0x0101 k ∧ (k.context < 1024) ∧ ((getSlot s k.context).phase = .empty) ∧ ((bufA k).host = true) ∧ ((bufA k).len = b.length) ∧ (s.pcie.d3hot = false) ∧ (s.pcie.busMaster = true) ∧ ((loadDraft s [] (.host b) b.length (bitOf (argAt k 0x20 1) 0)).2.2 = some f)) ∧
  (∃ (s : State) (p : Nat) (k : Packet) (b : Bytes) (d : Draft) (a : _) (s1 : State),
    MayBegin s p 0x0101 k ∧ (k.context < 1024) ∧ ((getSlot s k.context).phase = .empty) ∧ ((bufA k).host = true) ∧ ((bufA k).len = b.length) ∧ (s.pcie.d3hot = false) ∧ (s.pcie.busMaster = true) ∧ (loadDraft s [] (.host b) b.length (bitOf (argAt k 0x20 1) 0) = (s, d, none)) ∧ (allocFirst s (ceilDiv (keptBytes d (keptSections d (hSigned d.hdr || bitOf (argAt k 0x20 1) 0))) 2048 * 2048) (List.range 16) = some (a, s1))) ∧
  (∃ (s : State) (p : Nat) (k : Packet),
    (k.context < 1024) ∧ MayBegin s p 0x0103 k ∧ ((getSlot s k.context).phase = .loaded ∨ (getSlot s k.context).phase = .placed) ∧ (∀ b ∈ s.batches, b.slot ≠ k.context) ∧ (openSeqs s k.context = [])) ∧
  (∃ (s : State) (p : Nat) (k : Packet),
    MayBegin s p 0x0103 k ∧ (k.context < 1024) ∧ ((getSlot s k.context).phase = .loaded ∨ (getSlot s k.context).phase = .placed) ∧ (∀ b ∈ s.batches, b.slot ≠ k.context) ∧ (openSeqs s k.context ≠ []) ∧ (bitOf (argAt k 0x10 1) 0 = false)) ∧
  (∃ (s : State) (p : Nat) (k : Packet),
    (k.context < 1024) ∧ MayBegin s p 0x0104 k) :=
 ⟨
  ⟨(inFlight live [pkt 0x0101 1023 [(0x10, 8, 0x1000), (0x18, 4, 1280), (0x1C, 1, 1)]]), 1, (pkt 0x0101 1023 [(0x10, 8, 0x1000), (0x18, 4, 1280), (0x1C, 1, 1)]), (1 :: smallDraft.drop 1), { status := stBadPacket, step := 1 }, mayBegin_of (by decide +kernel), by decide +kernel⟩,
  ⟨(inFlight live [pkt 0x0101 1023 [(0x10, 8, 0x1000), (0x18, 4, 1280), (0x1C, 1, 1)]]), 1, (pkt 0x0101 1023 [(0x10, 8, 0x1000), (0x18, 4, 1280), (0x1C, 1, 1)]), smallDraft, ((loadDraft (inFlight live [pkt 0x0101 1023 [(0x10, 8, 0x1000), (0x18, 4, 1280), (0x1C, 1, 1)]]) [] (.host smallDraft) smallDraft.length false).2.1), (((allocFirst (inFlight live [pkt 0x0101 1023 [(0x10, 8, 0x1000), (0x18, 4, 1280), (0x1C, 1, 1)]]) 2048 (List.range 16)).getD (0, (inFlight live [pkt 0x0101 1023 [(0x10, 8, 0x1000), (0x18, 4, 1280), (0x1C, 1, 1)]]))).1), (((allocFirst (inFlight live [pkt 0x0101 1023 [(0x10, 8, 0x1000), (0x18, 4, 1280), (0x1C, 1, 1)]]) 2048 (List.range 16)).getD (0, (inFlight live [pkt 0x0101 1023 [(0x10, 8, 0x1000), (0x18, 4, 1280), (0x1C, 1, 1)]]))).2), mayBegin_of (by decide +kernel), by decide +kernel⟩,
  ⟨{ inFlight serving [pkt 0x0103 1023 []] with seqs := [] }, 1, (pkt 0x0103 1023 []), by decide +kernel, mayBegin_of (by decide +kernel), by decide +kernel⟩,
  ⟨(inFlight serving [pkt 0x0103 1023 []]), 1, (pkt 0x0103 1023 []), mayBegin_of (by decide +kernel), by decide +kernel⟩,
  ⟨(inFlight serving [pkt 0x0104 1023 []]), 1, (pkt 0x0104 1023 []), by decide +kernel, mayBegin_of (by decide +kernel)⟩⟩

/-- A loaded model. -/
def loadedModel : ModelSlot :=
  { phase := .loaded, header := smallDraft.take 256, table := (smallDraft.drop 256).take 96
    kept := [{ index := 0, type := 1, data := List.replicate 16 0 }, { index := 1, type := 2, data := oneRole },
      { index := 2, type := 3, data := haltProgram }] }

/-- MODEL_PLACE of the model in slot 1023, on block 127. -/
def placePkt : Packet := pkt 0x0102 1023 [(0x10, 8, 0x1000), (0x18, 4, 1280), (0x1C, 1, 1), (0x20, 4, 0x10064)] (toBytes 2 127)

/-- The host orders it. -/
def placeState : State := { inFlight live [placePkt] with slots := [(1023, loadedModel)] }

/-- The weave, the rows, the far memory and the staging memory that it gets. -/
def placeSlot : ModelSlot := { loadedModel with weave := [127] }
def placeFar : Nat × State := (allocFirst placeState (farNeed placeSlot) (windowOrder placeState placeSlot)).getD (0, placeState)
def placeStaging : (Nat × Nat) × State := (allocStaging placeFar.2 (hStaging placeSlot.header)).getD ((0, 0), placeState)

theorem accessWaits_none {s : State} (hc : s.chans = []) (hp : s.pcs = []) (hd : s.dies = []) (hl : s.layers = []) (a n : Nat) :
    accessWaits s a n = false := by
  have h1 : ∀ ch, chanHeld s ch = false := fun ch => by rw [chanHeld, getChan, hc, layerOf, hl]; rfl
  have h2 : ∀ pc, pcHeld s pc = false := fun pc => by rw [pcHeld, getPc, hp]; rfl
  have h3 : ∀ d, (tget s.dies d).clocksStopped = false := fun d => by rw [hd]; rfl
  simp [accessWaits, h1, h2, h3]

set_option maxRecDepth 100000 in
theorem test_witness_ModelPlace :
  (∃ (s : State) (p : Nat) (k : Packet),
    MayBegin s p 0x0102 k ∧ (k.context < 1024) ∧ ((getSlot s k.context).phase ≠ .loaded)) ∧
  (∃ (s : State) (p : Nat) (k : Packet) (b : Bytes) (blocks : List Nat) (weave : List Nat) (secs : List (Nat × Bytes)) (rb : Nat) (far : Nat) (s1 : State) (s2 : State) (st : Nat × Nat) (progs : List (List (BitVec 512))) (sl : ModelSlot),
    MayBegin s p 0x0102 k ∧ (∀ a n, accessWaits s2 a n = false) ∧ (k.context < 1024) ∧ ((getSlot s k.context).phase = .loaded) ∧ (weaveOf s (getSlot s k.context) k (hWeaveBlocks (getSlot s k.context).header) blocks = some (0, weave)) ∧ (weaveInReset s weave = false) ∧ ((bufA k).host = true) ∧ ((bufA k).len = b.length) ∧ (s.pcie.d3hot = false) ∧ (s.pcie.busMaster = true) ∧ (rereadDraft s [] (.host b) b.length (getSlot s k.context) = (s, secs, 0)) ∧ (sl = { getSlot s k.context with weave := weave }) ∧ (placeDegraded s sl (bitOf (argAt k 0x20 4) 16) = none) ∧ (¬ (capOf sl 3 = true ∧ hFarBytes sl.header < 0x11000)) ∧ ((relocateAll sl (argAt k 0x20 2) (· == 3)).isNone = false) ∧ (chooseRowBase s sl = some rb) ∧ (allocFirst s (farNeed sl) (windowOrder s sl) = some (far, s1)) ∧ (allocStaging s1 (hStaging sl.header) = some (st, s2)) ∧ (relocateAll { sl with rowBase := rb, far := (far, ceilDiv (farNeed sl) 2048 * 2048), staging := st, knotBase := argAt k 0x20 2 } (argAt k 0x20 2) (fun _ => true) = some progs)) :=
 ⟨
  ⟨(inFlight live [placePkt]), 1, placePkt, mayBegin_of (by decide +kernel), by decide +kernel⟩,
  ⟨placeState, 1, placePkt, smallDraft, [], [127], [], 0, placeFar.1, placeFar.2, placeStaging.2, placeStaging.1, ((relocateAll { placeSlot with rowBase := 0, far := (placeFar.1, ceilDiv (farNeed placeSlot) 2048 * 2048), staging := placeStaging.1, knotBase := 100 } 100 (fun _ => true)).getD []), placeSlot, mayBegin_of (by decide +kernel), accessWaits_none (by decide +kernel) (by decide +kernel) (by decide +kernel) (by decide +kernel), by decide +kernel⟩⟩

set_option maxRecDepth 100000 in
theorem test_witness_SequenceStarts :
  (∃ (s : State) (p : Nat) (k : Packet) (slot : _) (maxLength : _) (home : _) (n : _) (log : _) (root : _) (s1 : State),
    MayBegin s p 0x0201 k ∧ (slot = k.context) ∧ (maxLength = argAt k 0x14 4) ∧ (slot < 1024) ∧ (home = (if argAt k 0x12 2 = 0xFF then leadRegion (getSlot s slot) else argAt k 0x12 2)) ∧ (argAt k 0x12 2 < 16 ∨ argAt k 0x12 2 = 0xFF) ∧ (0 < maxLength) ∧ ((getSlot s slot).phase = .placed) ∧ ((getSlot s slot).evicting = false) ∧ (bitOf (argAt k 0x10 1) 0 = false) ∧ (maxLength ≤ 1048576) ∧ (freeEntry s = some n) ∧ (allocSeq s (getSlot s slot) n slot home maxLength = some (log, root, s1))) ∧
  (∃ (s : State) (p : Nat) (k : Packet) (slot : _) (maxLength : _) (home : _),
    MayBegin s p 0x0201 k ∧ (slot = k.context) ∧ (maxLength = argAt k 0x14 4) ∧ (slot < 1024) ∧ (home = (if argAt k 0x12 2 = 0xFF then leadRegion (getSlot s slot) else argAt k 0x12 2)) ∧ (argAt k 0x12 2 < 16 ∨ argAt k 0x12 2 = 0xFF) ∧ (0 < maxLength) ∧ ((getSlot s slot).phase = .placed) ∧ ((getSlot s slot).evicting = false) ∧ (bitOf (argAt k 0x10 1) 0 = true) ∧ (maxLength ≤ 131072) ∧ (grantedPrivileged s ≤ openPrivileged s)) ∧
  (∃ (s : State) (p : Nat) (k : Packet) (q : _),
    (q = k.context) ∧ (q < 4096) ∧ MayBegin s p 0x0203 k ∧ (stepRefusal s q 1 = 0)) ∧
  (∃ (s : State) (p : Nat) (k : Packet) (q : _),
    (q = k.context) ∧ (q < 4096) ∧ MayBegin s p 0x0203 k ∧ (stepRefusal s q 1 ≠ 0)) ∧
  (∃ (s : State) (p : Nat) (k : Packet) (q : _) (n : _),
    MayBegin s p 0x0202 k ∧ (q = k.context) ∧ (q < 4096) ∧ ((bufA k).len = 4 * n) ∧ (0 < n) ∧ (n ≤ 1048576) ∧ ((bufA k).host = true) ∧ (stepRefusal s q n = 0)) ∧
  (∃ (s : State) (p : Nat) (k : Packet) (q : _) (tokens : _) (maxLength : _) (child : _) (log : _) (root : _) (s1 : State) (s2 : State) (s3 : State),
    MayBegin s p 0x0204 k ∧ (q = k.context) ∧ (q < 4096) ∧ ((getSeq s q).phase = .opened ∨ (getSeq s q).phase = .parked) ∧ (tokens = argAt k 0x10 4) ∧ (tokens ≤ (getSeq s q).length) ∧ (maxLength = (if argAt k 0x18 4 = 0 then (getSeq s q).maxLength else argAt k 0x18 4)) ∧ (tokens ≤ maxLength) ∧ (maxLength ≤ 1048576) ∧ (freeEntry s = some child) ∧ (log + 4 * tokens ≤ 0xE000000000) ∧ (allocSeq s (getSlot s (getSeq s q).modelSlot) child (getSeq s q).modelSlot (getSeq s q).homeRegion maxLength = some (log, root, s1)) ∧ (s2 = modSeq s1 child (fun _ => { phase := .opened, modelSlot := (getSeq s q).modelSlot, length := tokens, maxLength := maxLength, priority := if bitOf (argAt k 0x14 4) 8 then (getSeq s q).priority else argAt k 0x14 4 % 256, bucket := bucketOf tokens, homeRegion := (getSeq s q).homeRegion, ptRoot := root, tokenLog := log, parent := q, forkPoint := tokens })) ∧ ((forkKeys s2 (getSlot s (getSeq s q).modelSlot) q tokens).foldl (shareEntry (getSlot s (getSeq s q).modelSlot) q child) (some s2) = some s3)) :=
 ⟨
  ⟨(inFlight serving [pkt 0x0201 1023 [(0x12, 2, 0xFF), (0x14, 4, 64)]]), 1, (pkt 0x0201 1023 [(0x12, 2, 0xFF), (0x14, 4, 64)]), 1023, 64, 15, 0, (((allocSeq (inFlight serving [pkt 0x0201 1023 [(0x12, 2, 0xFF), (0x14, 4, 64)]]) placedModel 0 1023 15 64).getD (0, 0, State.reset)).1), (((allocSeq (inFlight serving [pkt 0x0201 1023 [(0x12, 2, 0xFF), (0x14, 4, 64)]]) placedModel 0 1023 15 64).getD (0, 0, State.reset)).2.1), (((allocSeq (inFlight serving [pkt 0x0201 1023 [(0x12, 2, 0xFF), (0x14, 4, 64)]]) placedModel 0 1023 15 64).getD (0, 0, State.reset)).2.2), mayBegin_of (by decide +kernel), by decide +kernel⟩,
  ⟨{ inFlight serving [pkt 0x0201 1023 [(0x10, 1, 1), (0x12, 2, 15), (0x14, 4, 64)]] with seqs := [(0, { phase := .opened, privileged := true })] }, 1, (pkt 0x0201 1023 [(0x10, 1, 1), (0x12, 2, 15), (0x14, 4, 64)]), 1023, 64, 15, mayBegin_of (by decide +kernel), by decide +kernel⟩,
  ⟨(inFlight serving [pkt 0x0203 4095 [(0x10, 4, 99)]]), 1, (pkt 0x0203 4095 [(0x10, 4, 99)]), 4095, by decide +kernel, by decide +kernel, mayBegin_of (by decide +kernel), by decide +kernel⟩,
  ⟨{ inFlight serving [pkt 0x0203 4095 [(0x10, 4, 99)]] with seqs := [(4095, { phase := .parked, modelSlot := 1023, length := 8, maxLength := 64 })] }, 1, (pkt 0x0203 4095 [(0x10, 4, 99)]), 4095, by decide +kernel, by decide +kernel, mayBegin_of (by decide +kernel), by decide +kernel⟩,
  ⟨(inFlight serving [pkt 0x0202 4095 [(0x10, 8, 0x1000), (0x18, 4, 224), (0x1C, 1, 1)]]), 1, (pkt 0x0202 4095 [(0x10, 8, 0x1000), (0x18, 4, 224), (0x1C, 1, 1)]), 4095, 56, mayBegin_of (by decide +kernel), by decide +kernel⟩,
  ⟨(inFlight serving [pkt 0x0204 4095 [(0x10, 4, 8), (0x14, 4, 0x105)]]), 1, (pkt 0x0204 4095 [(0x10, 4, 8), (0x14, 4, 0x105)]), 4095, 8, 64, 0, (((allocSeq (inFlight serving [pkt 0x0204 4095 [(0x10, 4, 8), (0x14, 4, 0x105)]]) placedModel 0 1023 15 64).getD (0, 0, State.reset)).1), (((allocSeq (inFlight serving [pkt 0x0204 4095 [(0x10, 4, 8), (0x14, 4, 0x105)]]) placedModel 0 1023 15 64).getD (0, 0, State.reset)).2.1), (((allocSeq (inFlight serving [pkt 0x0204 4095 [(0x10, 4, 8), (0x14, 4, 0x105)]]) placedModel 0 1023 15 64).getD (0, 0, State.reset)).2.2), (modSeq ((allocSeq (inFlight serving [pkt 0x0204 4095 [(0x10, 4, 8), (0x14, 4, 0x105)]]) placedModel 0 1023 15 64).getD (0, 0, State.reset)).2.2 0 (fun _ => { phase := .opened, modelSlot := 1023, length := 8, maxLength := 64, priority := 0, bucket := bucketOf 8, homeRegion := 15, ptRoot := ((allocSeq (inFlight serving [pkt 0x0204 4095 [(0x10, 4, 8), (0x14, 4, 0x105)]]) placedModel 0 1023 15 64).getD (0, 0, State.reset)).2.1, tokenLog := ((allocSeq (inFlight serving [pkt 0x0204 4095 [(0x10, 4, 8), (0x14, 4, 0x105)]]) placedModel 0 1023 15 64).getD (0, 0, State.reset)).1, parent := 4095, forkPoint := 8 })), ((((forkKeys (modSeq ((allocSeq (inFlight serving [pkt 0x0204 4095 [(0x10, 4, 8), (0x14, 4, 0x105)]]) placedModel 0 1023 15 64).getD (0, 0, State.reset)).2.2 0 (fun _ => { phase := .opened, modelSlot := 1023, length := 8, maxLength := 64, priority := 0, bucket := bucketOf 8, homeRegion := 15, ptRoot := ((allocSeq (inFlight serving [pkt 0x0204 4095 [(0x10, 4, 8), (0x14, 4, 0x105)]]) placedModel 0 1023 15 64).getD (0, 0, State.reset)).2.1, tokenLog := ((allocSeq (inFlight serving [pkt 0x0204 4095 [(0x10, 4, 8), (0x14, 4, 0x105)]]) placedModel 0 1023 15 64).getD (0, 0, State.reset)).1, parent := 4095, forkPoint := 8 })) placedModel 4095 8).foldl (shareEntry placedModel 4095 0) (some (modSeq ((allocSeq (inFlight serving [pkt 0x0204 4095 [(0x10, 4, 8), (0x14, 4, 0x105)]]) placedModel 0 1023 15 64).getD (0, 0, State.reset)).2.2 0 (fun _ => { phase := .opened, modelSlot := 1023, length := 8, maxLength := 64, priority := 0, bucket := bucketOf 8, homeRegion := 15, ptRoot := ((allocSeq (inFlight serving [pkt 0x0204 4095 [(0x10, 4, 8), (0x14, 4, 0x105)]]) placedModel 0 1023 15 64).getD (0, 0, State.reset)).2.1, tokenLog := ((allocSeq (inFlight serving [pkt 0x0204 4095 [(0x10, 4, 8), (0x14, 4, 0x105)]]) placedModel 0 1023 15 64).getD (0, 0, State.reset)).1, parent := 4095, forkPoint := 8 }))))).getD State.reset), mayBegin_of (by decide +kernel), by decide +kernel⟩⟩

set_option maxRecDepth 100000 in
theorem test_witness_SequenceStates :
  (∃ (s : State) (p : Nat) (k : Packet) (q : Nat),
    MayBegin s p 0x0205 k ∧ (q = k.context) ∧ (q < 4096) ∧ ((getSeq s q).pending = none) ∧ ((getSeq s q).phase = .opened) ∧ (∀ b ∈ s.batches, holdsSeq q b = false)) ∧
  (∃ (s : State) (p : Nat) (k : Packet) (q : Nat),
    (q = k.context) ∧ (q < 4096) ∧ ((getSeq s q).pending = none) ∧ MayBegin s p 0x0205 k ∧ ((getSeq s q).phase = .batched)) ∧
  (∃ (s : State) (p : Nat) (k : Packet) (q : Nat),
    (q = k.context) ∧ (q < 4096) ∧ ((getSeq s q).pending = none) ∧ MayBegin s p 0x0206 k ∧ ((getSeq s q).phase = .parked)) ∧
  (∃ (s : State) (p : Nat) (k : Packet) (q : Nat),
    (q = k.context) ∧ (q < 4096) ∧ ((getSeq s q).pending = none) ∧ MayBegin s p 0x0206 k ∧ ((getSeq s q).phase = .opened ∨ (getSeq s q).phase = .batched)) ∧
  (∃ (s : State) (p : Nat) (k : Packet) (q : Nat),
    MayBegin s p 0x0207 k ∧ (q = k.context) ∧ (q < 4096) ∧ ((getSeq s q).pending = none) ∧ ((getSeq s q).phase = .opened ∨ (getSeq s q).phase = .parked) ∧ ((getSeq s q).closers = [])) ∧
  (∃ (s : State) (p : Nat) (k : Packet) (q : Nat),
    (q = k.context) ∧ (q < 4096) ∧ ((getSeq s q).pending = none) ∧ MayBegin s p 0x0207 k ∧ ((getSeq s q).phase = .batched)) ∧
  (∃ (s : State) (p : Nat) (k : Packet) (q : Nat),
    (q = k.context) ∧ (q < 4096) ∧ ((getSeq s q).pending = none) ∧ MayBegin s p 0x0208 k ∧ ((getSeq s q).phase ≠ .free)) :=
 ⟨
  ⟨{ inFlight serving [pkt 0x0205 4095 []] with seqs := [(4095, { phase := .opened, modelSlot := 1023, length := 8, maxLength := 64 })] }, 1, (pkt 0x0205 4095 []), 4095, mayBegin_of (by decide +kernel), by decide +kernel⟩,
  ⟨{ inFlight serving [pkt 0x0205 4095 []] with seqs := [(4095, { phase := .batched, modelSlot := 1023, length := 8, maxLength := 64 })] }, 1, (pkt 0x0205 4095 []), 4095, by decide +kernel, by decide +kernel, by decide +kernel, mayBegin_of (by decide +kernel), by decide +kernel⟩,
  ⟨{ inFlight serving [pkt 0x0206 4095 []] with seqs := [(4095, { phase := .parked, modelSlot := 1023, length := 8, maxLength := 64 })] }, 1, (pkt 0x0206 4095 []), 4095, by decide +kernel, by decide +kernel, by decide +kernel, mayBegin_of (by decide +kernel), by decide +kernel⟩,
  ⟨{ inFlight serving [pkt 0x0206 4095 []] with seqs := [(4095, { phase := .batched, modelSlot := 1023, length := 8, maxLength := 64 })] }, 1, (pkt 0x0206 4095 []), 4095, by decide +kernel, by decide +kernel, by decide +kernel, mayBegin_of (by decide +kernel), by decide +kernel⟩,
  ⟨{ inFlight serving [pkt 0x0207 4095 []] with seqs := [(4095, { phase := .parked, modelSlot := 1023, length := 8, maxLength := 64 })] }, 1, (pkt 0x0207 4095 []), 4095, mayBegin_of (by decide +kernel), by decide +kernel⟩,
  ⟨{ inFlight serving [pkt 0x0207 4095 []] with seqs := [(4095, { phase := .batched, modelSlot := 1023, length := 8, maxLength := 64 })] }, 1, (pkt 0x0207 4095 []), 4095, by decide +kernel, by decide +kernel, by decide +kernel, mayBegin_of (by decide +kernel), by decide +kernel⟩,
  ⟨{ inFlight serving [pkt 0x0208 4095 []] with seqs := [(4095, { phase := .parked, modelSlot := 1023, length := 8, maxLength := 64 })] }, 1, (pkt 0x0208 4095 []), 4095, by decide +kernel, by decide +kernel, by decide +kernel, mayBegin_of (by decide +kernel), by decide +kernel⟩⟩

set_option maxRecDepth 100000 in
theorem test_witness_PageCommands :
  (∃ (s : State) (p : Nat) (k : Packet) (q : Nat) (count : Nat) (pairs : List (Nat × Nat)) (c : Instr) (op : Nat),
    (c, op) ∈ [(Instr.pagePin p, 0x0301), (Instr.pageUnpin p, 0x0302), (Instr.pageDrop p, 0x0303)] ∧ MayBegin s p op k ∧ (q = k.context) ∧ (count = argAt k 0x18 4) ∧ (q < 4096) ∧ (0 < count) ∧ (count ≤ 1048576) ∧ ((getSeq s q).phase ≠ .free) ∧ (namedPairs (getSlot s (getSeq s q).modelSlot) (argAt k 0x10 4) = some pairs) ∧ (∀ x ∈ pairs, (getRegion s (pairService (getSlot s (getSeq s q).modelSlot) x.1 x.2)).inReset = false) ∧ (namedKeys s q (argAt k 0x14 4) count pairs = [])) ∧
  (∃ (s : State) (p : Nat) (k : Packet) (q : Nat) (count : Nat) (pairs : List (Nat × Nat)) (key : _) (fn : _),
    MayBegin s p 0x0301 k ∧ (q = k.context) ∧ (count = argAt k 0x18 4) ∧ (q < 4096) ∧ (0 < count) ∧ (count ≤ 1048576) ∧ ((getSeq s q).phase ≠ .free) ∧ (namedPairs (getSlot s (getSeq s q).modelSlot) (argAt k 0x10 4) = some pairs) ∧ (∀ x ∈ pairs, (getRegion s (pairService (getSlot s (getSeq s q).modelSlot) x.1 x.2)).inReset = false) ∧ (namedKeys s q (argAt k 0x14 4) count pairs = [key]) ∧ (fn = (getPte s key).fn) ∧ ((getPte s key).pins < 255)) ∧
  (∃ (s : State) (p : Nat) (k : Packet) (q : Nat) (count : Nat) (pairs : List (Nat × Nat)) (key : _) (fn : _),
    MayBegin s p 0x0301 k ∧ (q = k.context) ∧ (count = argAt k 0x18 4) ∧ (q < 4096) ∧ (0 < count) ∧ (count ≤ 1048576) ∧ ((getSeq s q).phase ≠ .free) ∧ (namedPairs (getSlot s (getSeq s q).modelSlot) (argAt k 0x10 4) = some pairs) ∧ (∀ x ∈ pairs, (getRegion s (pairService (getSlot s (getSeq s q).modelSlot) x.1 x.2)).inReset = false) ∧ (namedKeys s q (argAt k 0x14 4) count pairs = [key]) ∧ (fn = (getPte s key).fn) ∧ (255 ≤ (getPte s key).pins)) ∧
  (∃ (s : State) (p : Nat) (k : Packet) (q : Nat) (count : Nat) (pairs : List (Nat × Nat)) (key : _) (fn : _),
    MayBegin s p 0x0302 k ∧ (q = k.context) ∧ (count = argAt k 0x18 4) ∧ (q < 4096) ∧ (0 < count) ∧ (count ≤ 1048576) ∧ ((getSeq s q).phase ≠ .free) ∧ (namedPairs (getSlot s (getSeq s q).modelSlot) (argAt k 0x10 4) = some pairs) ∧ (∀ x ∈ pairs, (getRegion s (pairService (getSlot s (getSeq s q).modelSlot) x.1 x.2)).inReset = false) ∧ (namedKeys s q (argAt k 0x14 4) count pairs = [key]) ∧ (fn = (getPte s key).fn) ∧ (1 ≤ (getPte s key).pins) ∧ ((frameOf s fn).allocated = true) ∧ (1 ≤ (frameOf s fn).refcount)) ∧
  (∃ (s : State) (p : Nat) (k : Packet) (q : Nat) (count : Nat) (pairs : List (Nat × Nat)) (key : _) (fn : _),
    MayBegin s p 0x0303 k ∧ (q = k.context) ∧ (count = argAt k 0x18 4) ∧ (q < 4096) ∧ (0 < count) ∧ (count ≤ 1048576) ∧ ((getSeq s q).phase ≠ .free) ∧ (namedPairs (getSlot s (getSeq s q).modelSlot) (argAt k 0x10 4) = some pairs) ∧ (∀ x ∈ pairs, (getRegion s (pairService (getSlot s (getSeq s q).modelSlot) x.1 x.2)).inReset = false) ∧ (namedKeys s q (argAt k 0x14 4) count pairs = [key]) ∧ (fn = (getPte s key).fn) ∧ (droppable s 4096 (frameOf s fn) = true) ∧ (refKeys s fn = [key])) ∧
  (∃ (s : State) (p : Nat) (k : Packet) (q : Nat) (count : Nat),
    MayBegin s p 0x0304 k ∧ (q = k.context) ∧ (count = argAt k 0x18 4) ∧ (q = 0xFFFFFFFF) ∧ ((bufA k).host = true) ∧ (1024 ≤ (bufA k).len) ∧ (s.pcie.d3hot = false) ∧ (s.pcie.busMaster = true)) :=
 ⟨
  ⟨(inFlight serving [pkt 0x0303 4095 [(0x14, 4, 1), (0x18, 4, 1)]]), 1, (pkt 0x0303 4095 [(0x14, 4, 1), (0x18, 4, 1)]), 4095, 1, [(0, 0)], (.pageDrop 1), 0x0303, by simp, mayBegin_of (by decide +kernel), by decide +kernel⟩,
  ⟨{ inFlight serving [pkt 0x0301 4095 [(0x18, 4, 1)]] with ptes := [((pteKey 4095 0 0 false 0), { state := .present, fn := 33292293, pins := 254 })] }, 1, (pkt 0x0301 4095 [(0x18, 4, 1)]), 4095, 1, [(0, 0)], (pteKey 4095 0 0 false 0), 33292293, mayBegin_of (by decide +kernel), by decide +kernel⟩,
  ⟨{ inFlight serving [pkt 0x0301 4095 [(0x18, 4, 1)]] with ptes := [((pteKey 4095 0 0 false 0), { state := .present, fn := 33292293, pins := 255 })] }, 1, (pkt 0x0301 4095 [(0x18, 4, 1)]), 4095, 1, [(0, 0)], (pteKey 4095 0 0 false 0), 33292293, mayBegin_of (by decide +kernel), by decide +kernel⟩,
  ⟨{ inFlight serving [pkt 0x0302 4095 [(0x18, 4, 1)]] with ptes := [((pteKey 4095 0 0 false 0), { state := .present, fn := 33292293, pins := 1 })] }, 1, (pkt 0x0302 4095 [(0x18, 4, 1)]), 4095, 1, [(0, 0)], (pteKey 4095 0 0 false 0), 33292293, mayBegin_of (by decide +kernel), by decide +kernel⟩,
  ⟨(inFlight serving [pkt 0x0303 4095 [(0x18, 4, 1)]]), 1, (pkt 0x0303 4095 [(0x18, 4, 1)]), 4095, 1, [(0, 0)], (pteKey 4095 0 0 false 0), 33292293, mayBegin_of (by decide +kernel), by decide +kernel⟩,
  ⟨(inFlight live [pkt 0x0304 0xFFFFFFFF [(0x10, 8, 0x1000), (0x18, 4, 1024), (0x1C, 1, 1)]]), 1, (pkt 0x0304 0xFFFFFFFF [(0x10, 8, 0x1000), (0x18, 4, 1024), (0x1C, 1, 1)]), 0xFFFFFFFF, 1024, mayBegin_of (by decide +kernel), by decide +kernel⟩⟩

set_option maxRecDepth 100000 in
theorem test_witness_PageServices :
  (∃ (s : State) (seq : Nat) (layer : Nat) (hgroup : Nat) (page : Nat) (fn : Nat) (key : Nat),
    (page < 1048576) ∧ (key = pteKey seq layer hgroup false page) ∧ ((getPte s key).state = .present) ∧ (fn = (getPte s key).fn)) ∧
  (∃ (s : State) (seq : Nat) (layer : Nat) (hgroup : Nat) (page : Nat) (key : Nat),
    (page < 1048576) ∧ (key = pteKey seq layer hgroup false page) ∧ ((getPte s key).state ≠ .present)) ∧
  (∃ (s : State) (seq : Nat) (layer : Nat) (hgroup : Nat) (page : Nat) (region : Nat) (index : Nat) (fn : Nat) (key : Nat),
    (page < 1048576) ∧ (key = pteKey seq layer hgroup false page) ∧ (fn = indexFn region index) ∧ ((frameOf s fn).allocated = true) ∧ (2 ≤ (frameOf s fn).gpins)) ∧
  (∃ (s : State) (seq : Nat) (layer : Nat) (hgroup : Nat) (page : Nat) (region : Nat) (index : Nat) (fn : Nat) (key : Nat),
    (page < 1048576) ∧ (key = pteKey seq layer hgroup false page) ∧ (fn = indexFn region index) ∧ ((frameOf s fn).allocated = true) ∧ ((frameOf s fn).gpins = 1) ∧ ((frameOf s fn).refcount = 0) ∧ ((frameOf s fn).holds = 0)) ∧
  (∃ (s : State) (seq : Nat) (layer : Nat) (hgroup : Nat) (page : Nat) (fn : Nat) (key : Nat) (offset : Nat) (core : Nat) (b : Bytes),
    RangeVerifies s (frameAddr fn + offset) b.length ∧ (page < 1048576) ∧ (key = pteKey seq layer hgroup false page) ∧ ((getPte s key).state = .present) ∧ (fn = (getPte s key).fn) ∧ (pteSeq key = seq) ∧ (homeCore (getSlot s (getSeq s seq).modelSlot) (pteLayer key) (pteHgroup key) = some core) ∧ ((frameOf s fn).refcount ≤ 1) ∧ (0 < b.length) ∧ (offset + b.length ≤ 16384)) ∧
  (∃ (s : State) (seq : Nat) (layer : Nat) (hgroup : Nat) (page : Nat) (fn : Nat) (key : Nat),
    (page < 1048576) ∧ (key = pteKey seq layer hgroup false page) ∧ ((getPte s key).state = .present) ∧ (fn = (getPte s key).fn) ∧ ((frameOf s fn).allocated = true) ∧ (2 ≤ (frameOf s fn).refcount)) ∧
  (∃ (s : State) (seq : Nat) (layer : Nat) (hgroup : Nat) (page : Nat) (fn : Nat) (key : Nat),
    (page < 1048576) ∧ (key = pteKey seq layer hgroup false page) ∧ ((getPte s key).state = .present) ∧ (fn = (getPte s key).fn) ∧ ((frameOf s fn).allocated = true) ∧ ((frameOf s fn).refcount = 1) ∧ ((frameOf s fn).gpins = 0) ∧ ((frameOf s fn).holds = (getPte s key).pins + ownerHold s (pteSeq key))) ∧
  (∃ (s : State) (seq : Nat) (layer : Nat) (hgroup : Nat) (page : Nat) (region : Nat) (key : Nat),
    (page < 1048576) ∧ (key = pteKey seq layer hgroup false page) ∧ ((getSeq s seq).phase ≠ .free) ∧ ((getSeq s seq).homeRegion ≠ region)) ∧
  (∃ (s : State) (seq : Nat) (layer : Nat) (hgroup : Nat) (page : Nat) (region : Nat) (index : Nat) (fn : Nat) (key : Nat) (e : _),
    (page < 1048576) ∧ (key = pteKey seq layer hgroup false page) ∧ (fn = indexFn region index) ∧ ((frameOf s fn).allocated = true) ∧ ((frameOf s fn).refcount = 1) ∧ ((frameOf s fn).gpins = 0) ∧ (refKeys s fn = [e]) ∧ ((frameOf s fn).holds = (getPte s e).pins + (if pteSwatch e then 0 else ownerHold s (pteSeq e))) ∧ (frameOut s fn = true)) ∧
  (∃ (s : State) (seq : Nat) (layer : Nat) (hgroup : Nat) (page : Nat) (region : Nat) (index : Nat) (fn : Nat) (key : Nat) (e : _),
    (page < 1048576) ∧ (key = pteKey seq layer hgroup false page) ∧ (fn = indexFn region index) ∧ ((frameOf s fn).allocated = true) ∧ ((frameOf s fn).refcount = 1) ∧ ((frameOf s fn).gpins = 0) ∧ (refKeys s fn = [e]) ∧ ((frameOf s fn).holds = (getPte s e).pins + (if pteSwatch e then 0 else ownerHold s (pteSeq e))) ∧ (frameOut s fn = false)) ∧
  (∃ (s : State) (seq : Nat) (layer : Nat) (hgroup : Nat) (page : Nat) (region : Nat) (index : Nat) (fn : Nat) (key : Nat) (e : _),
    (page < 1048576) ∧ (key = pteKey seq layer hgroup false page) ∧ (fn = indexFn region index) ∧ ((frameOf s fn).allocated = true) ∧ ((frameOf s fn).refcount = 1) ∧ ((frameOf s fn).gpins = 0) ∧ (refKeys s fn = [e]) ∧ ((frameOf s fn).holds = (getPte s e).pins + (if pteSwatch e then 0 else ownerHold s (pteSeq e))) ∧ (framePoisoned s fn = true) ∧ (s.errors.ringUp = false)) :=
 ⟨
  ⟨serving, 4095, 0, 0, 0, 33292293, (pteKey 4095 0 0 false 0), by decide +kernel⟩,
  ⟨serving, 4095, 0, 0, 1048575, (pteKey 4095 0 0 false 1048575), by decide +kernel⟩,
  ⟨{ serving with frames := [(frameKey 33292293, { allocated := true, refcount := 1, gpins := 2, owner := 4095, modelSlot := 1023 })] }, 4095, 0, 0, 0, 15, (33292293 - 15 * 2097152), 33292293, (pteKey 4095 0 0 false 0), by decide +kernel⟩,
  ⟨{ serving with ptes := [], frames := [(frameKey 33292293, { allocated := true, refcount := 0, gpins := 1, owner := 4095, modelSlot := 1023 })] }, 4095, 0, 0, 0, 15, (33292293 - 15 * 2097152), 33292293, (pteKey 4095 0 0 false 0), by decide +kernel⟩,
  ⟨serving, 4095, 0, 0, 0, 33292293, (pteKey 4095 0 0 false 0), 16383, 8128, [5], rangeVerifies_of (by decide +kernel), by decide +kernel⟩,
  ⟨{ serving with frames := [(frameKey 33292293, { allocated := true, refcount := 2, owner := 4095, modelSlot := 1023 })] }, 4095, 0, 0, 0, 33292293, (pteKey 4095 0 0 false 0), by decide +kernel⟩,
  ⟨serving, 4095, 0, 0, 0, 33292293, (pteKey 4095 0 0 false 0), by decide +kernel⟩,
  ⟨{ serving with dirs := [(pairKey 4095 0 0, 77)] }, 4095, 0, 0, 0, 0, (pteKey 4095 0 0 false 0), by decide +kernel⟩,
  ⟨{ serving with chans := [(65024, { bankOut := 0x1 }), (65025, { chOut := true })] }, 4095, 0, 0, 0, 15, (33292293 - 15 * 2097152), 33292293, (pteKey 4095 0 0 false 0), (pteKey 4095 0 0 false 0), by decide +kernel⟩,
  ⟨serving, 4095, 0, 0, 0, 15, (33292293 - 15 * 2097152), 33292293, (pteKey 4095 0 0 false 0), (pteKey 4095 0 0 false 0), by decide +kernel⟩,
  ⟨{ serving with mem := setTag {} (frameAddr 33292293 / 256 + 63) { poison := true } }, 4095, 0, 0, 0, 15, (33292293 - 15 * 2097152), 33292293, (pteKey 4095 0 0 false 0), (pteKey 4095 0 0 false 0), by decide +kernel⟩⟩

/-- A pending SEQ_STEP of sequence 4095, from packet 1. -/
def stepCmd : PendingCmd := { packet := 1, prefill := false, token := 77, order := 0 }
def stepPkt : Packet := { pkt 0x0203 4095 [(0x10, 4, 77)] with started := true }
def stepSeq (ph : SeqPhase) : Seq :=
  { phase := ph, modelSlot := 1023, length := 8, maxLength := 64, tokenLog := 0x85A0000000, homeRegion := 15, pending := some stepCmd }
def stepReady : State := { inFlight serving [stepPkt] with seqs := [(4095, stepSeq .opened)] }
def stepNeeds : State × List Nat × Option Nat := takeNeeds stepReady [] 4095 (growNeeds stepReady placedModel 4095 8 9)

/-- A built batch of one row. -/
def stepRow : BatchRow := { entry := { seq := 4095, newTokens := 1, length := 8 }, tokens := [77], packet := some 1 }
def stepBatch : Batch := { slot := 1023, serial := 7, path := true, bucket := 0, padTokens := 0, rows := [stepRow] }

/-- A running batch whose core has halted with an append record; page 1 of the sequence is present. -/
def stepModel : ModelSlot := { placedModel with header := toBytes 16 0 ++ toBytes 32 8, far := (0x85A0000000, 131072) }
def stepRuns : State := { inFlight serving [stepPkt] with
  slots := [(1023, stepModel)]
  seqs := [(4095, { stepSeq .batched with tokenLog := 0x85B0000000 })]
  batches := [{ stepBatch with running := true }]
  cores := [(8128, { halted := true, appends := [{ row := 0, layer := 0, hgroup := 0, addr := storeBase 8128, stride := 0, plane := 4096 }] })]
  ptes := [(pteKey 4095 0 0 false 0, { state := .present, fn := 33292293 }),
    (pteKey 4095 0 0 false 1, { state := .present, fn := 33292294 })]
  frames := [(frameKey 33292293, { allocated := true, refcount := 1, owner := 4095, modelSlot := 1023 }),
    (frameKey 33292294, { allocated := true, refcount := 1, owner := 4095, modelSlot := 1023, page := 1 })] }
def stepPieces : List (Nat × Nat × Nat) := (rowPieces stepRuns stepModel 0 stepRow).getD []

/-- A running batch that has failed, of a model without a role map. -/
def stepFailed : State := { inFlight serving [stepPkt] with
  slots := [(1023, { phase := .placed })]
  seqs := [(4095, stepSeq .batched)]
  batches := [{ stepBatch with running := true, failed := some 0x0021 }] }

set_option maxRecDepth 100000 in
theorem test_witness_StepBatches :
  (∃ (s : State) (slot : Nat) (q : Nat) (sl : ModelSlot) (c : PendingCmd) (path : Bool) (s1 : State) (s2 : State) (keys : List Nat) (sw : List Nat),
    (sl = getSlot s slot) ∧ (batchAdmitted s slot = true) ∧ (∀ b ∈ s.batches, b.slot ≠ slot) ∧ (chooseRows s slot = ([(q, c)], path)) ∧ (c.prefill = false) ∧ (missingPages s sl q = []) ∧ (takeNeeds s [] q (growNeeds s sl q (getSeq s q).length ((getSeq s q).length + 1)) = (s1, keys, none)) ∧ (takeSwatches s1 sl q keys = (s2, sw)) ∧ (s2.nextSerial = s.nextSerial) ∧ (∀ e ∈ readyRows (modSeq s2 q (fun x => { x with recomputeDue := false })) slot, missingPages (modSeq s2 q (fun x => { x with recomputeDue := false })) sl e.1 = [])) ∧
  (∃ (s : State) (slot : Nat) (sl : ModelSlot) (b : Batch),
    (sl = getSlot s slot) ∧ (firstThat (fun x => x.slot == slot && !x.running) s.batches = some b) ∧ (∀ x ∈ s.batches, x.serial = b.serial → x = b) ∧ (batchAdmitted s slot = true) ∧ (weaveIdle s slot = true) ∧ (∀ x ∈ s.batches, x.running = false) ∧ (sl.knotsToClear = false) ∧ (capOf sl 3 = false)) ∧
  (∃ (s : State) (slot : Nat) (q : Nat) (sl : ModelSlot) (b : Batch) (r : BatchRow) (c : PendingCmd) (k : Packet) (pieces : List (Nat × Nat × Nat)) (blks : List BlockRead) (tok : Nat),
    Verifies s ((sl.far.1 + 0x10000) / 256) ∧ (sl = getSlot s slot) ∧ (s.batches = [b]) ∧ (b.slot = slot) ∧ (b.running = true) ∧ (b.rows = [r]) ∧ (r.entry.seq = q) ∧ (r.entry.recompute = false) ∧ (r.struck = none) ∧ ((getSeq s q).phase = .batched) ∧ ((getSeq s q).parkAfter = false) ∧ ((getSeq s q).pending = some c) ∧ (c.prefill = false) ∧ (getPacket s c.packet = some k) ∧ (k.answer = none) ∧ (b.failed = none) ∧ (∀ x ∈ roleCores sl, (getCore s x).halted = true ∧ (getCore s x).seqr = .idle) ∧ (capOf sl 3 = true) ∧ (b.status = 0) ∧ (c.status = 0) ∧ ((getSeq s q).privileged = true ∨ filledKeys sl q r.entry.length (r.entry.length + 1) (r.entry.length + 1) = []) ∧ (r.entry.length = (getSeq s q).length) ∧ (r.entry.newTokens = 1) ∧ (r.tokens = [tok]) ∧ ((getSeq s q).tokenLog % 4 = 0) ∧ (rowPieces s sl 0 r = some pieces) ∧ (readPieces s [] (geometryOf sl) pieces = (s, blks)) ∧ (anyPoison blks = false) ∧ (∀ x ∈ pieces, (getPte s x.1).state = .present ∧ (frameOf s (getPte s x.1).fn).refcount ≤ 1)) ∧
  (∃ (s : State) (slot : Nat) (q : Nat) (sl : ModelSlot) (b : Batch) (r : BatchRow) (c : PendingCmd) (k : Packet) (status : Nat),
    (sl = getSlot s slot) ∧ (s.batches = [b]) ∧ (b.slot = slot) ∧ (b.running = true) ∧ (b.rows = [r]) ∧ (r.entry.seq = q) ∧ (r.entry.recompute = false) ∧ (r.struck = none) ∧ ((getSeq s q).phase = .batched) ∧ ((getSeq s q).parkAfter = false) ∧ ((getSeq s q).pending = some c) ∧ (c.prefill = false) ∧ (getPacket s c.packet = some k) ∧ (k.answer = none) ∧ (b.failed = some status) ∧ (roleCores sl = []) ∧ (r.newPages = []) ∧ (r.newSwatches = [])) :=
 ⟨
  ⟨stepReady, 1023, 4095, placedModel, stepCmd, ((chooseRows stepReady 1023).2), stepNeeds.1, stepNeeds.1, stepNeeds.2.1, [], by decide +kernel⟩,
  ⟨{ serving with batches := [stepBatch], seqs := [(4095, stepSeq .opened)] }, 1023, placedModel, stepBatch, by decide +kernel⟩,
  ⟨stepRuns, 1023, 4095, stepModel, { stepBatch with running := true }, stepRow, stepCmd, stepPkt, stepPieces, ((readPieces stepRuns [] (geometryOf stepModel) stepPieces).2), 77, verifies_of (by decide +kernel), by decide +kernel⟩,
  ⟨stepFailed, 1023, 4095, { phase := .placed }, { stepBatch with running := true, failed := some 0x0021 }, stepRow, stepCmd, stepPkt, 0x0021, by decide +kernel⟩⟩

set_option maxRecDepth 100000 in
theorem test_witness_Programs :
  (∃ (s : State) (core : Nat) (c : Core) (h : HeldProgram),
    (c = getCore s core) ∧ (c.program = some h) ∧ (startable s core = true) ∧ (c.queue.contains h = true)) ∧
  (∃ (s : State) (core : Nat) (slot : Nat) (c : Core),
    (c = getCore s core) ∧ (weaveIdle s slot = true)) ∧
  (∃ (s : State) (core : Nat) (c : Core) (h : HeldProgram) (d : BitVec 512) (finds : _),
    (c = getCore s core) ∧ (fetchDesc s core finds = some (s, h, d)) ∧ (dOpcode d = opLoop) ∧ (descCause h.count d = none) ∧ ((tget c.trip (lpReg d) + 1).toNat < lpCount d)) ∧
  (∃ (s : State) (core : Nat) (c : Core) (h : HeldProgram) (d : BitVec 512) (finds : _),
    (c = getCore s core) ∧ (fetchDesc s core finds = some (s, h, d)) ∧ (dOpcode d = opLoop) ∧ (descCause h.count d = none) ∧ (lpCount d ≤ (tget c.trip (lpReg d) + 1).toNat)) ∧
  (∃ (s : State) (core : Nat) (c : Core) (h : HeldProgram) (d : BitVec 512) (finds : _),
    (c = getCore s core) ∧ (fetchDesc s core finds = some (s, h, d)) ∧ (dOpcode d = opHalt) ∧ (descCause h.count d = none) ∧ (modelCause (getSlot s h.slot) d = none) ∧ (¬ (c.arraySlots = [] ∧ c.vecSlots = [] ∧ c.moveSlots = []))) ∧
  (∃ (s : State) (core : Nat) (c : Core) (h : HeldProgram) (d : BitVec 512) (finds : _),
    (c = getCore s core) ∧ (fetchDesc s core finds = some (s, h, d)) ∧ (dOpcode d = opHalt) ∧ (descCause h.count d = none) ∧ (modelCause (getSlot s h.slot) d = none) ∧ (c.arraySlots = []) ∧ (c.vecSlots = []) ∧ (c.moveSlots = []) ∧ (dSigEn d = false)) ∧
  (∃ (s : State) (core : Nat) (c : Core) (h : HeldProgram) (d : BitVec 512) (finds : _),
    (c = getCore s core) ∧ (fetchDesc s core finds = some (s, h, d)) ∧ (dOpcode d = opHalt) ∧ (descCause h.count d = none) ∧ (modelCause (getSlot s h.slot) d = none) ∧ (c.arraySlots = []) ∧ (c.vecSlots = []) ∧ (c.moveSlots = []) ∧ (dSigEn d = true) ∧ (dSigLocal d = false)) ∧
  (∃ (s : State) (core : Nat) (c : Core),
    (c = getCore s core) ∧ (c.seqr ≠ .idle) ∧ (c.selfFenced = false)) :=
 ⟨
  ⟨({ serving with cores := [(8128, { program := some heldProgram, queue := [heldProgram] })] }), 8128, (getCore ({ serving with cores := [(8128, { program := some heldProgram, queue := [heldProgram] })] }) 8128), heldProgram, by decide +kernel⟩,
  ⟨(serving), 8128, 1023, (getCore (serving) 8128), by decide +kernel⟩,
  ⟨(runs (descOf [(0, 0x3E), (96, 2), (128, 1), (144, 3), (160, 0), (192, 32)])), 8128, (getCore (runs (descOf [(0, 0x3E), (96, 2), (128, 1), (144, 3), (160, 0), (192, 32)])) 8128), heldProgram, (descOf [(0, 0x3E), (96, 2), (128, 1), (144, 3), (160, 0), (192, 32)]), [], by decide +kernel⟩,
  ⟨(runs (descOf [(0, 0x3E), (96, 2), (128, 1), (144, 3), (160, 0), (192, 32)]) { trip := [(1, 2)], xreg := [(1, 64)] }), 8128, (getCore (runs (descOf [(0, 0x3E), (96, 2), (128, 1), (144, 3), (160, 0), (192, 32)]) { trip := [(1, 2)], xreg := [(1, 64)] }) 8128), heldProgram, (descOf [(0, 0x3E), (96, 2), (128, 1), (144, 3), (160, 0), (192, 32)]), [], by decide +kernel⟩,
  ⟨(runs (descOf [(0, 0x3F)]) { moveSlots := [moveSlot] }), 8128, (getCore (runs (descOf [(0, 0x3F)]) { moveSlots := [moveSlot] }) 8128), heldProgram, (descOf [(0, 0x3F)]), [], by decide +kernel⟩,
  ⟨(runs (descOf [(0, 0x3F)])), 8128, (getCore (runs (descOf [(0, 0x3F)])) 8128), heldProgram, (descOf [(0, 0x3F)]), [], by decide +kernel⟩,
  ⟨(runs (descOf [(0, 0x3F), (14, 1), (32, 9000)])), 8128, (getCore (runs (descOf [(0, 0x3F), (14, 1), (32, 9000)])) 8128), heldProgram, (descOf [(0, 0x3F), (14, 1), (32, 9000)]), [], by decide +kernel⟩,
  ⟨(runs (descOf [(0, 0x3F)])), 8128, (getCore (runs (descOf [(0, 0x3F)])) 8128), by decide +kernel⟩⟩

set_option maxRecDepth 100000 in
theorem test_witness_DescriptorSlots :
  (∃ (s : State) (core : Nat) (c : Core) (h : HeldProgram) (d : BitVec 512) (finds : _),
    (c = getCore s core) ∧ (fetchDesc s core finds = some (s, h, d)) ∧ (c.pc < h.count) ∧ (descCause h.count d = none) ∧ (modelCause (getSlot s h.slot) d = none) ∧ (enginesOf d ≠ []) ∧ (∀ e ∈ enginesOf d, (slotsOf c e).length < 4)) ∧
  (∃ (s : State) (core : Nat) (c : Core) (h : HeldProgram) (d : BitVec 512) (finds : _) (cause : Nat),
    (c = getCore s core) ∧ (fetchDesc s core finds = some (s, h, d)) ∧ (c.pc < h.count) ∧ (descCause h.count d = some cause)) ∧
  (∃ (s : State) (core : Nat) (c : Core) (e : Engine) (before : List EngSlot) (rest : List EngSlot) (x : EngSlot),
    (c = getCore s core) ∧ (c.seqr = .running ∨ c.seqr = .draining) ∧ (slotsOf c e = before ++ x :: rest) ∧ (∀ y ∈ before, y.state ≠ .placed) ∧ (x.state = .placed) ∧ (mayIssue c e before x = true) ∧ (x.waiting = false) ∧ (issueCheck s core x = none) ∧ (headerWait x = false ∨ x.met = true)) ∧
  (∃ (s : State) (core : Nat) (c : Core) (e : Engine) (before : List EngSlot) (rest : List EngSlot) (x : EngSlot) (cause : Nat) (st : Nat),
    (c = getCore s core) ∧ (c.seqr = .running ∨ c.seqr = .draining) ∧ (slotsOf c e = before ++ x :: rest) ∧ (∀ y ∈ before, y.state ≠ .placed) ∧ (x.state = .placed) ∧ (mayIssue c e before x = true) ∧ (x.waiting = false) ∧ (issueCheck s core x = some (cause, st)) ∧ (headerWait x = false ∨ x.met = true)) ∧
  (∃ (s : State) (core : Nat) (c : Core) (e : Engine) (before : List EngSlot) (rest : List EngSlot) (x : EngSlot),
    (c = getCore s core) ∧ (c.seqr = .running ∨ c.seqr = .draining) ∧ (slotsOf c e = before ++ x :: rest) ∧ (∀ y ∈ before, y.state ≠ .placed) ∧ (x.state = .placed) ∧ (mayIssue c e before x = true) ∧ (x.waiting = false) ∧ (headerWait x = true) ∧ (x.met = false) ∧ (dWaitLocal x.desc = false) ∧ (s.waiters.length < 131072) ∧ ((tget s.knots (dWaitKnot x.desc)).value.toNat < x.target)) ∧
  (∃ (s : State) (core : Nat) (c : Core) (e : Engine) (before : List EngSlot) (rest : List EngSlot) (x : EngSlot),
    (c = getCore s core) ∧ (slotsOf c e = before ++ x :: rest) ∧ (enginesOf x.desc = [e]) ∧ (∀ y ∈ before, ¬ (y.index = x.index ∧ y.state = .executed)) ∧ (x.state = .executed) ∧ (c.haltPending = none) ∧ (dSigEn x.desc = false)) ∧
  (∃ (s : State) (core : Nat) (c : Core) (e : Engine) (before : List EngSlot) (rest : List EngSlot) (x : EngSlot),
    (c = getCore s core) ∧ (slotsOf c e = before ++ x :: rest) ∧ (enginesOf x.desc = [e]) ∧ (∀ y ∈ before, ¬ (y.index = x.index ∧ y.state = .executed)) ∧ (x.state = .executed) ∧ (c.haltPending = none) ∧ (dSigEn x.desc = true) ∧ (signalHeld c e x = false) ∧ (dSigLocal x.desc = false)) ∧
  (∃ (s : State) (core : Nat) (c : Core) (x : EngSlot) (es : List Engine),
    (c = getCore s core) ∧ (knotSlot c opKnotArrive = some (x, es)) ∧ (x.waiting = false) ∧ (remoteOf s x.desc = none) ∧ (kcLocal x.desc = false) ∧ (8192 ≤ kcKnot x.desc)) ∧
  (∃ (s : State) (core : Nat) (c : Core) (x : EngSlot) (es : List Engine),
    (c = getCore s core) ∧ (knotSlot c opKnotArrive = some (x, es)) ∧ (x.waiting = false) ∧ (remoteOf s x.desc = none) ∧ (kcLocal x.desc = true)) ∧
  (∃ (s : State) (core : Nat) (c : Core) (x : EngSlot) (e : Engine),
    (c = getCore s core) ∧ (knotSlot c opKnotWait = some (x, [e])) ∧ (x.met = true)) ∧
  (∃ (s : State) (core : Nat) (c : Core) (x : EngSlot) (e : Engine),
    (c = getCore s core) ∧ (knotSlot c opKnotWait = some (x, [e])) ∧ (x.met = false) ∧ (x.waiting = false) ∧ (remoteOf s x.desc = none) ∧ (kcLocal x.desc = false) ∧ (s.waiters.length < 131072) ∧ ((tget s.knots (kcKnot x.desc)).value.toNat < x.target)) :=
 ⟨
  ⟨(runs moveDesc), 8128, (getCore (runs moveDesc) 8128), heldProgram, moveDesc, [], by decide +kernel⟩,
  ⟨(runs (descOf [(0, 0x55)])), 8128, (getCore (runs (descOf [(0, 0x55)])) 8128), heldProgram, (descOf [(0, 0x55)]), [], 1, by decide +kernel⟩,
  ⟨(issuing { moveSlots := [moveSlot, moveSlot] }), 8128, (getCore (issuing { moveSlots := [moveSlot, moveSlot] }) 8128), .move, [], [moveSlot], (moveSlot), by decide +kernel⟩,
  ⟨(issuing { arraySlots := [{ moveSlot with desc := descOf [(0, 0x01)], addrA := 5 }, moveSlot] }), 8128, (getCore (issuing { arraySlots := [{ moveSlot with desc := descOf [(0, 0x01)], addrA := 5 }, moveSlot] }) 8128), .array, [], [moveSlot], ({ moveSlot with desc := descOf [(0, 0x01)], addrA := 5 }), 2, 0x0020, by decide +kernel⟩,
  ⟨(issuing { moveSlots := [{ moveSlot [(8, 1), (16, 9000)] with target := 5 }, moveSlot] }), 8128, (getCore (issuing { moveSlots := [{ moveSlot [(8, 1), (16, 9000)] with target := 5 }, moveSlot] }) 8128), .move, [], [moveSlot], ({ moveSlot [(8, 1), (16, 9000)] with target := 5 }), by decide +kernel⟩,
  ⟨(issuing { moveSlots := [{ moveSlot with state := .executed }, moveSlot] }), 8128, (getCore (issuing { moveSlots := [{ moveSlot with state := .executed }, moveSlot] }) 8128), .move, [], [moveSlot], ({ moveSlot with state := .executed }), by decide +kernel⟩,
  ⟨(issuing { moveSlots := [{ moveSlot [(14, 1), (32, 9000)] with state := .executed }, moveSlot] }), 8128, (getCore (issuing { moveSlots := [{ moveSlot [(14, 1), (32, 9000)] with state := .executed }, moveSlot] }) 8128), .move, [], [moveSlot], ({ moveSlot [(14, 1), (32, 9000)] with state := .executed }), by decide +kernel⟩,
  ⟨(issuing { moveSlots := [{ index := 1, desc := knotDesc 0x30 9000 3 false, state := .issued }, moveSlot] }), 8128, (getCore (issuing { moveSlots := [{ index := 1, desc := knotDesc 0x30 9000 3 false, state := .issued }, moveSlot] }) 8128), ({ index := 1, desc := knotDesc 0x30 9000 3 false, state := .issued }), [.move], by decide +kernel⟩,
  ⟨(issuing { moveSlots := [{ index := 1, desc := knotDesc 0x30 31 3 true, state := .issued }, moveSlot] }), 8128, (getCore (issuing { moveSlots := [{ index := 1, desc := knotDesc 0x30 31 3 true, state := .issued }, moveSlot] }) 8128), ({ index := 1, desc := knotDesc 0x30 31 3 true, state := .issued }), [.move], by decide +kernel⟩,
  ⟨(issuing { moveSlots := [{ index := 1, desc := knotDesc 0x31 9000 0 false, state := .issued, met := true }, moveSlot] }), 8128, (getCore (issuing { moveSlots := [{ index := 1, desc := knotDesc 0x31 9000 0 false, state := .issued, met := true }, moveSlot] }) 8128), ({ index := 1, desc := knotDesc 0x31 9000 0 false, state := .issued, met := true }), .move, by decide +kernel⟩,
  ⟨(issuing { moveSlots := [{ index := 1, desc := knotDesc 0x31 9000 0 false, state := .issued, target := 5 }, moveSlot] }), 8128, (getCore (issuing { moveSlots := [{ index := 1, desc := knotDesc 0x31 9000 0 false, state := .issued, target := 5 }, moveSlot] }) 8128), ({ index := 1, desc := knotDesc 0x31 9000 0 false, state := .issued, target := 5 }), .move, by decide +kernel⟩⟩

/-- An issued ARRAY_MM of 16 rows by 16 columns, K = 16, in BF16, in the store of core 8191. -/
def mmDesc : BitVec 512 := descOf ([(0, 1), (96, 2), (112, 0xFFFF)] ++ o20 16 (storeBase 8191) 1 16 16 1 1 16
  ++ o20 36 (storeBase 8191 + 0x1000) 1 16 16 1 1 16)
def mmSlot : EngSlot := { index := 1, state := .issued, desc := mmDesc, addrA := storeBase 8191, addrB := storeBase 8191 + 0x1000 }
def mmState : State := { live with cores := [(8191, { seqr := .running, arraySlots := [mmSlot] })] }
def mmBlocks : List BlockRead := (readOperands mmState 8191 .array [] (mmRangesA mmDesc (opd20 mmDesc 16)
  ++ mmRangesB mmDesc (opd20 mmDesc 36) ++ scaleRange 8191 (mmAscale mmDesc) (opd20 mmDesc 16)
  ++ scaleRange 8191 (mmBscale mmDesc) (opd20 mmDesc 36))).2

set_option maxRecDepth 100000 in
theorem test_witness_ArrayOperations :
  (∃ (s : State) (core : Nat) (c : Core) (x : EngSlot) (a : Opd) (b : Opd) (per : Nat) (isInt : Bool) (blks : List BlockRead) (old : Accumulator),
    (c = getCore s core) ∧ (issuedSlot c .array opArrayMm = some x) ∧ (a = { opd20 x.desc 16 with addr := x.addrA }) ∧ (b = { opd20 x.desc 36 with addr := x.addrB }) ∧ (mmPass x.desc = 0) ∧ (mmClass 0 a.fmt b.fmt = some (per, isInt)) ∧ (rangesWait s (mmRangesA x.desc a ++ mmRangesB x.desc b ++ scaleRange core (mmAscale x.desc) a ++ scaleRange core (mmBscale x.desc) b) = false) ∧ (engineOrder s core .array x (mmRangesA x.desc a ++ mmRangesB x.desc b ++ scaleRange core (mmAscale x.desc) a ++ scaleRange core (mmBscale x.desc) b) = false) ∧ ((frozenColumns c).any (bitOf (dOpx x.desc)) = false) ∧ (readOperands s core .array [] (mmRangesA x.desc a ++ mmRangesB x.desc b ++ scaleRange core (mmAscale x.desc) a ++ scaleRange core (mmBscale x.desc) b) = (s, blks)) ∧ (anyPoison blks = false) ∧ (old = (if mmAcc x.desc = 0 then c.acc0 else c.acc1))) ∧
  (∃ (s : State) (core : Nat) (c : Core) (x : EngSlot),
    (c = getCore s core) ∧ (issuedSlot c .array opArrayDrain = some x) ∧ (c.drains = [])) ∧
  (∃ (s : State) (core : Nat) (c : Core) (column : Nat) (k : DrainColumn),
    RangeVerifies s k.addr (16 * elemSize k.fmt) ∧ (c = getCore s core) ∧ (c.drains = [(column, k)]) ∧ (k.poisoned = false) ∧ (k.values.length = 16) ∧ (k.fmt = 0 ∨ k.fmt = 1 ∨ k.fmt = 2 ∨ k.fmt = 0xB)) ∧
  (∃ (s : State) (core : Nat) (c : Core) (late : Nat),
    (c = getCore s core) ∧ (late ≤ 16)) ∧
  (∃ (s : State) (core : Nat) (c : Core) (late : Nat),
    (c = getCore s core) ∧ (16 < late)) ∧
  (∃ (s : State) (core : Nat) (c : Core),
    (c = getCore s core) ∧ (runningMask c = 0xFFFF) ∧ (c.elastic = {}) ∧ (c.stalls = none)) :=
 ⟨
  ⟨mmState, 8191, (getCore mmState 8191), mmSlot, { opd20 mmDesc 16 with addr := storeBase 8191 }, { opd20 mmDesc 36 with addr := storeBase 8191 + 0x1000 }, 1, false, mmBlocks, {}, by decide +kernel⟩,
  ⟨{ live with cores := [(8191, { seqr := .running, arraySlots := [{ index := 1, state := .issued, desc := descOf ([(0, 2), (96, 2)] ++ o16 16 0 0 16 16 1), addrC := storeBase 8191 }] })] }, 8191, (getCore ({ live with cores := [(8191, { seqr := .running, arraySlots := [{ index := 1, state := .issued, desc := descOf ([(0, 2), (96, 2)] ++ o16 16 0 0 16 16 1), addrC := storeBase 8191 }] })] }) 8191), { index := 1, state := .issued, desc := descOf ([(0, 2), (96, 2)] ++ o16 16 0 0 16 16 1), addrC := storeBase 8191 }, by decide +kernel⟩,
  ⟨{ live with cores := [(8191, { drains := [(15, { values := List.replicate 16 0x3F800000, addr := storeBase 8191 + 64, fmt := 0, sat := false, poisoned := false })] })] }, 8191, (getCore ({ live with cores := [(8191, { drains := [(15, { values := List.replicate 16 0x3F800000, addr := storeBase 8191 + 64, fmt := 0, sat := false, poisoned := false })] })] }) 8191), 15, { values := List.replicate 16 0x3F800000, addr := storeBase 8191 + 64, fmt := 0, sat := false, poisoned := false }, rangeVerifies_of (by decide +kernel), by decide +kernel⟩,
  ⟨{ live with cores := [(8191, {})] }, 8191, (getCore ({ live with cores := [(8191, {})] }) 8191), 16, by decide +kernel⟩,
  ⟨{ live with cores := [(8191, {})] }, 8191, (getCore ({ live with cores := [(8191, {})] }) 8191), 17, by decide +kernel⟩,
  ⟨{ live with cores := [(8191, {})] }, 8191, (getCore ({ live with cores := [(8191, {})] }) 8191), by decide +kernel⟩⟩

set_option maxRecDepth 100000 in
theorem test_witness_VectorOperations :
  (∃ (s : State) (core : Nat) (x : EngSlot) (n : Nat),
    VecRow s core 0x00 n n x) ∧
  (∃ (s : State) (core : Nat) (x : EngSlot) (n : Nat),
    VecRow s core 0x01 n n x) ∧
  (∃ (s : State) (core : Nat) (x : EngSlot) (n : Nat),
    VecRow s core 0x02 n n x) ∧
  (∃ (s : State) (core : Nat) (x : EngSlot) (n : Nat),
    VecRow s core 0x03 n n x) ∧
  (∃ (s : State) (core : Nat) (x : EngSlot) (n : Nat),
    VecRow s core 0x04 n n x) ∧
  (∃ (s : State) (core : Nat) (x : EngSlot) (n : Nat),
    VecRow s core 0x05 n n x) ∧
  (∃ (s : State) (core : Nat) (x : EngSlot) (n : Nat),
    VecRow s core 0x08 n n x) ∧
  (∃ (s : State) (core : Nat) (x : EngSlot) (n : Nat),
    VecRow s core 0x09 n n x) ∧
  (∃ (s : State) (core : Nat) (x : EngSlot) (n : Nat),
    VecRow s core 0x0A n n x) ∧
  (∃ (s : State) (core : Nat) (x : EngSlot) (n : Nat),
    VecRow s core 0x0B n n x) ∧
  (∃ (s : State) (core : Nat) (x : EngSlot) (n : Nat),
    VecRow s core 0x0C n n x) ∧
  (∃ (a : Word) (b : Word),
    (isNan (valOf a) = true ∨ isNan (valOf b) = true)) ∧
  (∃ (a : Word) (b : Word) (c : Word),
    (isNan (valOf a) = true ∨ isNan (valOf b) = true ∨ isNan (valOf c) = true)) ∧
  (∃ (s : State) (core : Nat) (x : EngSlot) (n : Nat),
    VecRow s core 0x10 n 1 x) ∧
  (∃ (s : State) (core : Nat) (x : EngSlot) (n : Nat),
    VecRow s core 0x11 n 1 x) ∧
  (∃ (s : State) (core : Nat) (x : EngSlot) (n : Nat),
    VecRow s core 0x18 n n x) ∧
  (∃ (s : State) (core : Nat) (x : EngSlot) (n : Nat),
    VecRow s core 0x19 n n x) ∧
  (∃ (s : State) (core : Nat) (x : EngSlot) (n : Nat),
    VecRow s core 0x1A n n x) ∧
  (∃ (s : State) (core : Nat) (x : EngSlot) (n : Nat),
    VecRow s core 0x20 n n x ∧ ((opd16 x.desc 16).scaled = false) ∧ ((opd16 x.desc 48).scaled = false) ∧ (dOpx x.desc % 4 ≠ 1)) ∧
  (∃ (s : State) (core : Nat) (x : EngSlot) (n : Nat),
    StoreRow s core x.addrA 0 n ∧ StoreRow s core x.addrC 1 (2 * n) ∧ (issuedVec (getCore s core) 0x21 = some x) ∧ (0 < n) ∧ ((opd16 x.desc 16).fmt = 0) ∧ ((opd16 x.desc 16).e0 = n) ∧ ((opd16 x.desc 16).e1 = 1) ∧ ((opd16 x.desc 16).e2 = 1) ∧ ((opd16 x.desc 16).s0 = 0) ∧ ((opd16 x.desc 48).fmt = 1) ∧ ((opd16 x.desc 48).s0 = 0) ∧ ((opd16 x.desc 48).s2 = 2 * (n : Int))) ∧
  (∃ (s : State) (core : Nat) (x : EngSlot) (n : Nat),
    StoreRow s core x.addrA 0 n ∧ StoreRow s core x.addrC 0 (dOpx x.desc) ∧ (issuedSlot (getCore s core) .vector opTopk = some x) ∧ (0 < n) ∧ (0 < dOpx x.desc) ∧ ((opd16 x.desc 16).fmt = 0) ∧ ((opd16 x.desc 16).e0 = n) ∧ ((opd16 x.desc 16).e1 = 1) ∧ ((opd16 x.desc 16).e2 = 1) ∧ ((opd16 x.desc 16).s0 = 0) ∧ ((opd16 x.desc 48).fmt = 0) ∧ ((opd16 x.desc 48).e0 = dOpx x.desc) ∧ ((opd16 x.desc 48).e1 = 1) ∧ ((opd16 x.desc 48).e2 = 1) ∧ ((opd16 x.desc 48).s0 = 0)) ∧
  (∃ (a : Word),
    (isNan (valOf a) = true)) :=
 ⟨
  ⟨(vecState (vecSlot 0x10 0x00 4 1)), 8191, (vecSlot 0x10 0x00 4 1), 4, vecRow_of (by decide +kernel)⟩,
  ⟨(vecState (vecSlot 0x10 0x01 4 1)), 8191, (vecSlot 0x10 0x01 4 1), 4, vecRow_of (by decide +kernel)⟩,
  ⟨(vecState (vecSlot 0x10 0x02 4 1)), 8191, (vecSlot 0x10 0x02 4 1), 4, vecRow_of (by decide +kernel)⟩,
  ⟨(vecState (vecSlot 0x10 0x03 4 1)), 8191, (vecSlot 0x10 0x03 4 1), 4, vecRow_of (by decide +kernel)⟩,
  ⟨(vecState (vecSlot 0x10 0x04 4 1)), 8191, (vecSlot 0x10 0x04 4 1), 4, vecRow_of (by decide +kernel)⟩,
  ⟨(vecState (vecSlot 0x10 0x05 4 1)), 8191, (vecSlot 0x10 0x05 4 1), 4, vecRow_of (by decide +kernel)⟩,
  ⟨(vecState (vecSlot 0x10 0x08 4 1)), 8191, (vecSlot 0x10 0x08 4 1), 4, vecRow_of (by decide +kernel)⟩,
  ⟨(vecState (vecSlot 0x10 0x09 4 1)), 8191, (vecSlot 0x10 0x09 4 1), 4, vecRow_of (by decide +kernel)⟩,
  ⟨(vecState (vecSlot 0x10 0x0A 4 1)), 8191, (vecSlot 0x10 0x0A 4 1), 4, vecRow_of (by decide +kernel)⟩,
  ⟨(vecState (vecSlot 0x10 0x0B 4 1)), 8191, (vecSlot 0x10 0x0B 4 1), 4, vecRow_of (by decide +kernel)⟩,
  ⟨(vecState (vecSlot 0x10 0x0C 4 1)), 8191, (vecSlot 0x10 0x0C 4 1), 4, vecRow_of (by decide +kernel)⟩,
  ⟨0x7FC00001, 1, by decide +kernel⟩,
  ⟨0x7FC00001, 1, 1, by decide +kernel⟩,
  ⟨(vecState (vecSlot 0x10 0x10 1 1)), 8191, (vecSlot 0x10 0x10 1 1), 4, vecRow_of (by decide +kernel)⟩,
  ⟨(vecState (vecSlot 0x10 0x11 1 1)), 8191, (vecSlot 0x10 0x11 1 1), 4, vecRow_of (by decide +kernel)⟩,
  ⟨(vecState (vecSlot 0x10 0x18 4 1)), 8191, (vecSlot 0x10 0x18 4 1), 4, vecRow_of (by decide +kernel)⟩,
  ⟨(vecState (vecSlot 0x10 0x19 4 1)), 8191, (vecSlot 0x10 0x19 4 1), 4, vecRow_of (by decide +kernel)⟩,
  ⟨(vecState (vecSlot 0x10 0x1A 4 2)), 8191, (vecSlot 0x10 0x1A 4 2), 4, vecRow_of (by decide +kernel)⟩,
  ⟨(vecState (vecSlot 0x10 0x20 4 1)), 8191, (vecSlot 0x10 0x20 4 1), 4, vecRow_of (by decide +kernel), by decide +kernel⟩,
  ⟨(vecState ({ vecSlot 0x10 0x21 4 1 with desc := descOf ([(0, 0x10), (96, 2), (105, 0x21)] ++ o16 16 0 0 4 1 1 ++ o16 48 0x2000 1 4 1 2 ++ [(490, 8)]) })), 8191, ({ vecSlot 0x10 0x21 4 1 with desc := descOf ([(0, 0x10), (96, 2), (105, 0x21)] ++ o16 16 0 0 4 1 1 ++ o16 48 0x2000 1 4 1 2 ++ [(490, 8)]) }), 4, vecStore _ (by decide +kernel), vecStore _ (by decide +kernel), by decide +kernel⟩,
  ⟨(vecState (vecSlot 0x11 0x00 4 1)), 8191, (vecSlot 0x11 0x00 4 1), 4, vecStore _ (by decide +kernel), vecStore _ (by decide +kernel), by decide +kernel⟩,
  ⟨0x7FC00001, by decide +kernel⟩⟩

set_option maxRecDepth 100000 in
theorem test_witness_BobbinControl :
  (∃ (s : State) (ch : Nat) (slot : Nat) (bank : Nat) (r : BobRun) (b : Bobbin) (u : Word64),
    UopDue s ch slot r bank b u ∧ (uCode u = 0x00)) ∧
  (∃ (s : State) (ch : Nat) (slot : Nat) (bank : Nat) (r : BobRun) (b : Bobbin) (u : Word64),
    UopDue s ch slot r bank b u ∧ (uCode u = 0x01) ∧ (∀ e ∈ r.banks, e.2.state ≠ .ready)) ∧
  (∃ (s : State) (ch : Nat) (slot : Nat) (bank : Nat) (r : BobRun) (b : Bobbin) (u : Word64) (n : Nat),
    UopDue s ch slot r bank b u ∧ (uCode u = 0x02) ∧ (n = (if uCounter u = 0 then b.lc0 else b.lc1) + 1) ∧ (n < uCount u)) ∧
  (∃ (s : State) (ch : Nat) (slot : Nat) (bank : Nat) (r : BobRun) (b : Bobbin) (u : Word64) (n : Nat),
    UopDue s ch slot r bank b u ∧ (uCode u = 0x02) ∧ (n = (if uCounter u = 0 then b.lc0 else b.lc1) + 1) ∧ (uCount u ≤ n)) ∧
  (∃ (s : State) (ch : Nat) (slot : Nat) (bank : Nat) (r : BobRun) (b : Bobbin) (u : Word64),
    UopDue s ch slot r bank b u ∧ (uCode u = 0x03) ∧ (uPointer u < 3)) ∧
  (∃ (s : State) (ch : Nat) (slot : Nat) (bank : Nat) (r : BobRun) (b : Bobbin) (u : Word64),
    UopDue s ch slot r bank b u ∧ (uCode u = 0x05) ∧ (uPointer u < 3)) ∧
  (∃ (s : State) (ch : Nat) (slot : Nat) (bank : Nat) (r : BobRun) (b : Bobbin) (u : Word64) (c : Instr) (code : Nat) (g : Word → Word × Exc),
    UopDue s ch slot r bank b u ∧ (c, code, g) ∈ [(Instr.expt ch slot, 0x10, exptWord), (Instr.rsq ch slot, 0x11, rsqWord)] ∧ (uCode u = code) ∧ (b.typeI = false)) ∧
  (∃ (s : State) (ch : Nat) (slot : Nat) (bank : Nat) (r : BobRun) (b : Bobbin) (u : Word64) (c : Instr) (code : Nat) (g : Word → Word × Exc),
    UopDue s ch slot r bank b u ∧ (c, code, g) ∈ [(Instr.expt ch slot, 0x10, exptWord), (Instr.rsq ch slot, 0x11, rsqWord)] ∧ (uCode u = code) ∧ (b.typeI = true)) :=
 ⟨
  ⟨(uopState (oneUop (uop [(0, 0x00)]) {})), 65535, 0, 15, (oneUop (uop [(0, 0x00)]) {}), { ({} : Bobbin) with state := .active }, (uop [(0, 0x00)]), uopDue_of (by decide +kernel), by decide +kernel⟩,
  ⟨(uopState (oneUop (uop [(0, 0x01)]) {})), 65535, 0, 15, (oneUop (uop [(0, 0x01)]) {}), { ({} : Bobbin) with state := .active }, (uop [(0, 0x01)]), uopDue_of (by decide +kernel), by decide +kernel⟩,
  ⟨(uopState (oneUop (uop [(0, 0x02), (16, 2), (8, 1)]) { lc1 := 1 })), 65535, 0, 15, (oneUop (uop [(0, 0x02), (16, 2), (8, 1)]) { lc1 := 1 }), { ({ lc1 := 1 } : Bobbin) with state := .active }, (uop [(0, 0x02), (16, 2), (8, 1)]), 2, uopDue_of (by decide +kernel), by decide +kernel⟩,
  ⟨(uopState (oneUop (uop [(0, 0x02), (16, 2)]) { lc0 := 2 })), 65535, 0, 15, (oneUop (uop [(0, 0x02), (16, 2)]) { lc0 := 2 }), { ({ lc0 := 2 } : Bobbin) with state := .active }, (uop [(0, 0x02), (16, 2)]), 3, uopDue_of (by decide +kernel), by decide +kernel⟩,
  ⟨(uopState (oneUop (uop [(0, 0x03), (8, 2), (16, 0x3FFF)]) {})), 65535, 0, 15, (oneUop (uop [(0, 0x03), (8, 2), (16, 0x3FFF)]) {}), { ({} : Bobbin) with state := .active }, (uop [(0, 0x03), (8, 2), (16, 0x3FFF)]), uopDue_of (by decide +kernel), by decide +kernel⟩,
  ⟨(uopState (oneUop (uop [(0, 0x05), (8, 2)]) {})), 65535, 0, 15, (oneUop (uop [(0, 0x05), (8, 2)]) {}), { ({} : Bobbin) with state := .active }, (uop [(0, 0x05), (8, 2)]), uopDue_of (by decide +kernel), by decide +kernel⟩,
  ⟨(uopState (oneUop (uop [(0, 0x11)]) { acc := List.replicate 32 0x40800000 })), 65535, 0, 15, (oneUop (uop [(0, 0x11)]) { acc := List.replicate 32 0x40800000 }), { ({ acc := List.replicate 32 0x40800000 } : Bobbin) with state := .active }, (uop [(0, 0x11)]), (.rsq 65535 0), 0x11, rsqWord, uopDue_of (by decide +kernel), by simp, by decide +kernel⟩,
  ⟨(uopState (oneUop (uop [(0, 0x11)]) { typeI := true })), 65535, 0, 15, (oneUop (uop [(0, 0x11)]) { typeI := true }), { ({ typeI := true } : Bobbin) with state := .active }, (uop [(0, 0x11)]), (.rsq 65535 0), 0x11, rsqWord, uopDue_of (by decide +kernel), by simp, by decide +kernel⟩⟩

set_option maxRecDepth 100000 in
theorem test_witness_BobbinReads_0 :
  (∃ (s : State) (ch : Nat) (slot : Nat) (bank : Nat) (r : BobRun) (b : Bobbin) (u : Word64) (x : UopCtx) (w : Nat) (m : Nat) (f : Nat),
    UopDue s ch slot r bank b u ∧ (x = uopCtx s ch bank r b u) ∧ WordsRead s x w (2 * m) ∧ (uCode u = 0x04) ∧ (w = 32 * uRow u + 2 * uFirst u) ∧ (m = uRegs u) ∧ (f = uFirst u) ∧ (f + m ≤ 16) ∧ (b.v = [] ∨ b.v.length = 512)) :=
  ⟨(uopState (oneUop (uop [(0, 0x04), (8, 2), (12, 1)]) { v := (List.range 512).map (fun i => BitVec.ofNat 16 (i * 131 + 0x3F80)) })), 65535, 0, 15, (oneUop (uop [(0, 0x04), (8, 2), (12, 1)]) { v := (List.range 512).map (fun i => BitVec.ofNat 16 (i * 131 + 0x3F80)) }), { ({ v := (List.range 512).map (fun i => BitVec.ofNat 16 (i * 131 + 0x3F80)) } : Bobbin) with state := .active }, (uop [(0, 0x04), (8, 2), (12, 1)]), _, 4, 2, 2, uopDue_of (by decide +kernel), rfl, ⟨by decide +kernel, by decide +kernel, uopRange rfl (by decide +kernel)⟩, by decide +kernel⟩

set_option maxRecDepth 100000 in
theorem test_witness_BobbinReads_1 :
  (∃ (s : State) (ch : Nat) (slot : Nat) (bank : Nat) (r : BobRun) (b : Bobbin) (u : Word64) (x : UopCtx) (n : Nat) (ls : List (Word × BobFlags)) (k : Nat),
    UopDue s ch slot r bank b u ∧ (x = uopCtx s ch bank r b u) ∧ (uCode u = 0x06) ∧ (n = uN u) ∧ (typesMatch b = true) ∧ (uElem u + n ≤ 512) ∧ WordsRead s x b.p0 (2 * n) ∧ (ls = lanes b n (fun l i acc => laneStep b (cfmtCode b.cfmt) (nearField s x (b.p0 + 2 * i + l / 16) (2 * (l % 16)) 2) (uElem u + i) none acc)) ∧ Ends k (2 * n)) :=
  ⟨(uopState (oneUop (uop [(0, 0x06), (16, 1), (32, 3)]) { v := (List.range 512).map (fun i => BitVec.ofNat 16 (i * 131 + 0x3F80)) })), 65535, 0, 15, (oneUop (uop [(0, 0x06), (16, 1), (32, 3)]) { v := (List.range 512).map (fun i => BitVec.ofNat 16 (i * 131 + 0x3F80)) }), { ({ v := (List.range 512).map (fun i => BitVec.ofNat 16 (i * 131 + 0x3F80)) } : Bobbin) with state := .active }, (uop [(0, 0x06), (16, 1), (32, 3)]), _, 2, _, 1, uopDue_of (by decide +kernel), rfl, by decide +kernel, by decide +kernel, by decide +kernel, by decide +kernel, ⟨by decide +kernel, by decide +kernel, uopRange rfl (by decide +kernel)⟩, rfl, .inr (by decide)⟩

set_option maxRecDepth 100000 in
theorem test_witness_BobbinReads_2 :
  (∃ (s : State) (ch : Nat) (slot : Nat) (bank : Nat) (r : BobRun) (b : Bobbin) (u : Word64) (x : UopCtx) (k : Nat) (ls : List (Word × BobFlags)),
    UopDue s ch slot r bank b u ∧ (x = uopCtx s ch bank r b u) ∧ WordsRead s x b.p0 (64 * k) ∧ (ls = lanes b (32 * k) (fun l i acc => laneStep b (cfmtCode b.cfmt) (nearField s x (b.p0 + 2 * i + l / 16) (2 * (l % 16)) 2) (uElem u + i) none acc)) ∧ (uCode u = 0x06) ∧ (0 < k) ∧ (32 * k < uN u) ∧ (typesMatch b = true) ∧ (uElem u + uN u ≤ 512)) :=
  ⟨(uopState (oneUop (uop [(0, 0x06), (16, 40), (32, 3)]) { v := (List.range 512).map (fun i => BitVec.ofNat 16 (i * 131 + 0x3F80)) })), 65535, 0, 15, (oneUop (uop [(0, 0x06), (16, 40), (32, 3)]) { v := (List.range 512).map (fun i => BitVec.ofNat 16 (i * 131 + 0x3F80)) }), { ({ v := (List.range 512).map (fun i => BitVec.ofNat 16 (i * 131 + 0x3F80)) } : Bobbin) with state := .active }, (uop [(0, 0x06), (16, 40), (32, 3)]), _, 1, _, uopDue_of (by decide +kernel), rfl, ⟨by decide +kernel, by decide +kernel, uopRange rfl (by decide +kernel)⟩, rfl, by decide +kernel⟩

set_option maxRecDepth 100000 in
theorem test_witness_BobbinReads_3 :
  (∃ (s : State) (ch : Nat) (slot : Nat) (bank : Nat) (r : BobRun) (b : Bobbin) (u : Word64) (x : UopCtx),
    UopDue s ch slot r bank b u ∧ (x = uopCtx s ch bank r b u) ∧ (uCode u = 0x06) ∧ (512 < uElem u + uN u)) :=
  ⟨(uopState (oneUop (uop [(0, 0x06), (16, 5), (32, 511)]) { v := (List.range 512).map (fun i => BitVec.ofNat 16 (i * 131 + 0x3F80)) })), 65535, 0, 15, (oneUop (uop [(0, 0x06), (16, 5), (32, 511)]) { v := (List.range 512).map (fun i => BitVec.ofNat 16 (i * 131 + 0x3F80)) }), { ({ v := (List.range 512).map (fun i => BitVec.ofNat 16 (i * 131 + 0x3F80)) } : Bobbin) with state := .active }, (uop [(0, 0x06), (16, 5), (32, 511)]), _, uopDue_of (by decide +kernel), rfl, by decide +kernel⟩

set_option maxRecDepth 100000 in
theorem test_witness_BobbinReads_4 :
  (∃ (s : State) (ch : Nat) (slot : Nat) (bank : Nat) (r : BobRun) (b : Bobbin) (u : Word64) (x : UopCtx) (k : Nat),
    UopDue s ch slot r bank b u ∧ (x = uopCtx s ch bank r b u) ∧ (uCode u = 0x06) ∧ Ends k (2 * uN u) ∧ (typesMatch b = true) ∧ (uElem u + uN u ≤ 512) ∧ (32 * x.nearRows < b.p0 + 2 * uN u)) :=
  ⟨(uopState (oneUop (uop [(0, 0x06), (16, 5), (32, 3)]) { p0 := 16380 })), 65535, 0, 15, (oneUop (uop [(0, 0x06), (16, 5), (32, 3)]) { p0 := 16380 }), { ({ p0 := 16380 } : Bobbin) with state := .active }, (uop [(0, 0x06), (16, 5), (32, 3)]), _, 0, uopDue_of (by decide +kernel), rfl, by decide +kernel, .inl rfl, by decide +kernel⟩

set_option maxRecDepth 100000 in
theorem test_witness_BobbinReads_5 :
  (∃ (s : State) (ch : Nat) (slot : Nat) (bank : Nat) (r : BobRun) (b : Bobbin) (u : Word64) (x : UopCtx) (n : Nat) (fmt : Nat) (ls : List (Word × BobFlags)) (k : Nat),
    UopDue s ch slot r bank b u ∧ (x = uopCtx s ch bank r b u) ∧ (WordsRead s x b.p0 (if fmt = 9 then (n + 1) / 2 else n)) ∧ (ls = lanes b n (fun l i acc => laneStep b fmt (if fmt = 9 then (if i % 2 = 1 then nearField s x (b.p0 + i / 2) l 1 / 16 else nearField s x (b.p0 + i / 2) l 1 % 16) else nearField s x (b.p0 + i) l 1) (uElem u + i) none acc)) ∧ Ends k n ∧ (uCode u = 0x07) ∧ (n = uN u) ∧ (fmt = uFmt u) ∧ (uScaled u = false) ∧ (typesMatch b = true) ∧ (macwOk b.cfmt fmt false = true) ∧ (uElem u + n ≤ 512)) :=
  ⟨(uopState (oneUop (uop [(0, 0x07), (8, 9), (16, 2), (32, 3)]) { cfmt := .int16, typeI := true, v := (List.range 512).map (fun i => BitVec.ofNat 16 (i * 131 + 0x3F80)) })), 65535, 0, 15, (oneUop (uop [(0, 0x07), (8, 9), (16, 2), (32, 3)]) { cfmt := .int16, typeI := true, v := (List.range 512).map (fun i => BitVec.ofNat 16 (i * 131 + 0x3F80)) }), { ({ cfmt := .int16, typeI := true, v := (List.range 512).map (fun i => BitVec.ofNat 16 (i * 131 + 0x3F80)) } : Bobbin) with state := .active }, (uop [(0, 0x07), (8, 9), (16, 2), (32, 3)]), _, 3, 9, _, 0, uopDue_of (by decide +kernel), rfl, ⟨by decide +kernel, by decide +kernel, uopRange rfl (by decide +kernel)⟩, rfl, .inl rfl, by decide +kernel⟩

set_option maxRecDepth 100000 in
theorem test_witness_BobbinReads_6 :
  (∃ (s : State) (ch : Nat) (slot : Nat) (bank : Nat) (r : BobRun) (b : Bobbin) (u : Word64) (x : UopCtx) (n : Nat) (fmt : Nat) (per : Nat) (words : Nat) (ls : List (Word × BobFlags)) (k : Nat),
    UopDue s ch slot r bank b u ∧ (x = uopCtx s ch bank r b u) ∧ WordsRead s x b.p0 words ∧ (ls = lanes b n (fun l i acc => laneStep b fmt (if fmt = 7 then (if i % 2 = 1 then nearField s x (b.p0 + per * (i / 32) + 1 + i % 32 / 2) l 1 / 16 else nearField s x (b.p0 + per * (i / 32) + 1 + i % 32 / 2) l 1 % 16) else nearField s x (b.p0 + per * (i / 32) + 1 + i % 32) l 1) (uElem u + i) (some (nearField s x (b.p0 + per * (i / 32)) l 1)) acc)) ∧ (Ends k (if fmt = 7 then n else n + n / 32)) ∧ (uCode u = 0x07) ∧ (n = uN u) ∧ (fmt = uFmt u) ∧ (uScaled u = true) ∧ (typesMatch b = true) ∧ (macwOk b.cfmt fmt true = true) ∧ (uElem u + n ≤ 512) ∧ (uElem u % 32 = 0) ∧ (n % 32 = 0) ∧ (per = (if fmt = 7 then 17 else 33)) ∧ (words = per * (n / 32)) ∧ (onScaleWord s x per = true)) :=
  ⟨({ uopState (oneUop (uop [(0, 0x07), (8, 7), (12, 1), (16, 31), (32, 32)]) { v := (List.range 512).map (fun i => BitVec.ofNat 16 (i * 131 + 0x3F80)) }) with slots := [(1023, { phase := .placed, header := toBytes 58 0 ++ toBytes 2 512, tiles := [{ kind := 1, core := 8191, layer := 7, bank := 15, length := 1024, fmt := 7 }] })] }), 65535, 0, 15, (oneUop (uop [(0, 0x07), (8, 7), (12, 1), (16, 31), (32, 32)]) { v := (List.range 512).map (fun i => BitVec.ofNat 16 (i * 131 + 0x3F80)) }), { ({ v := (List.range 512).map (fun i => BitVec.ofNat 16 (i * 131 + 0x3F80)) } : Bobbin) with state := .active }, (uop [(0, 0x07), (8, 7), (12, 1), (16, 31), (32, 32)]), _, 32, 7, 17, 17, _, 0, uopDue_of (by decide +kernel), rfl, ⟨by decide +kernel, by decide +kernel, uopRange rfl (by decide +kernel)⟩, rfl, .inl rfl, by decide +kernel⟩

set_option maxRecDepth 100000 in
theorem test_witness_BobbinReads_7 :
  (∃ (s : State) (ch : Nat) (slot : Nat) (bank : Nat) (r : BobRun) (b : Bobbin) (u : Word64) (x : UopCtx) (c : Instr) (code : Nat) (ty : Bool) (g : Bool → Word → Word → Word × BobFlags) (ls : List (Word × BobFlags)),
    UopDue s ch slot r bank b u ∧ (x = uopCtx s ch bank r b u) ∧ (c, code, ty, g) ∈ [(Instr.scl ch slot [], 0x08, false, sclLane), (Instr.uopAdd ch slot [], 0x09, b.typeI, addLane), (Instr.mul ch slot [], 0x0A, b.typeI, mulLane), (Instr.max ch slot [], 0x0B, b.typeI, maxLane)] ∧ (uCode u = code) ∧ WordsRead s x b.p0 4 ∧ (ls = (List.range 32).map (fun l => g b.typeI (laneAcc b l) (BitVec.ofNat 32 (nearField s x (b.p0 + l / 8) (4 * (l % 8)) 4))))) :=
  ⟨(uopState (oneUop (uop [(0, 0x0A)]) { acc := List.replicate 32 0x40800000 })), 65535, 0, 15, (oneUop (uop [(0, 0x0A)]) { acc := List.replicate 32 0x40800000 }), { ({ acc := List.replicate 32 0x40800000 } : Bobbin) with state := .active }, (uop [(0, 0x0A)]), _, (.mul 65535 0 []), 0x0A, false, mulLane, _, uopDue_of (by decide +kernel), rfl, by simp, by decide +kernel, ⟨by decide +kernel, by decide +kernel, uopRange rfl (by decide +kernel)⟩, rfl⟩

set_option maxRecDepth 100000 in
theorem test_witness_BobbinReads_8 :
  (∃ (s : State) (ch : Nat) (slot : Nat) (bank : Nat) (r : BobRun) (b : Bobbin) (u : Word64) (x : UopCtx) (n : Nat) (k : Nat),
    UopDue s ch slot r bank b u ∧ (x = uopCtx s ch bank r b u) ∧ (uCode u = 0x12) ∧ (n = uN u) ∧ Ends k n ∧ (typesMatch b = true) ∧ WordsRead s x b.p0 n) :=
  ⟨(uopState (oneUop (uop [(0, 0x12), (16, 2)]) { v := (List.range 512).map (fun i => BitVec.ofNat 16 (i * 131 + 0x3F80)) })), 65535, 0, 15, (oneUop (uop [(0, 0x12), (16, 2)]) { v := (List.range 512).map (fun i => BitVec.ofNat 16 (i * 131 + 0x3F80)) }), { ({ v := (List.range 512).map (fun i => BitVec.ofNat 16 (i * 131 + 0x3F80)) } : Bobbin) with state := .active }, (uop [(0, 0x12), (16, 2)]), _, 3, 0, uopDue_of (by decide +kernel), rfl, by decide +kernel, by decide +kernel, .inl rfl, by decide +kernel, ⟨by decide +kernel, by decide +kernel, uopRange rfl (by decide +kernel)⟩⟩

/-- The words of an EMUL whose P1 is P0 + 1: its second word reads what its first wrote. -/
def emulField (j : Nat) : Nat := nearField (uopState (oneUop (uop [(0, 0x14), (16, 1)]) { p1 := 1, p2 := 8 })) (uopCtx (uopState (oneUop (uop [(0, 0x14), (16, 1)]) { p1 := 1, p2 := 8 })) 65535 15 (oneUop (uop [(0, 0x14), (16, 1)]) { p1 := 1, p2 := 8 }) { ({ p1 := 1, p2 := 8 } : Bobbin) with state := .active } (uop [(0, 0x14), (16, 1)])) (j / 16) (2 * (j % 16)) 2
def emulFirst : List (Nat × BobFlags) := (List.range 16).map (fun j => elemOp true .bf16 0 (emulField j) (emulField (128 + j)))
def emulCodes : List (Nat × BobFlags) := emulFirst ++ (List.range 16).map (fun j =>
  elemOp true .bf16 0 (emulFirst.getD j (0, {})).1 (emulField (144 + j)))
def emulY (p j : Nat) : Nat := if 1 ≤ p + j / 16 ∧ p < 1 then (emulCodes.getD (16 * (p + j / 16 - 1) + j % 16) (0, {})).1 % 65536
  else nearField (uopState (oneUop (uop [(0, 0x14), (16, 1)]) { p1 := 1, p2 := 8 })) (uopCtx (uopState (oneUop (uop [(0, 0x14), (16, 1)]) { p1 := 1, p2 := 8 })) 65535 15 (oneUop (uop [(0, 0x14), (16, 1)]) { p1 := 1, p2 := 8 }) { ({ p1 := 1, p2 := 8 } : Bobbin) with state := .active } (uop [(0, 0x14), (16, 1)])) (p + j / 16) (2 * (j % 16)) 2
/-- The codes of an RMSN of two words. -/
def rmsnField (p j : Nat) : Nat := nearField (uopState (oneUop (uop [(0, 0x15), (16, 1)]) { p1 := 32, p2 := 8, released := true })) (uopCtx (uopState (oneUop (uop [(0, 0x15), (16, 1)]) { p1 := 32, p2 := 8, released := true })) 65535 15 (oneUop (uop [(0, 0x15), (16, 1)]) { p1 := 32, p2 := 8, released := true }) { ({ p1 := 32, p2 := 8, released := true } : Bobbin) with state := .active } (uop [(0, 0x15), (16, 1)])) (p + j / 16) (2 * (j % 16)) 2
def rmsnCodes : List Nat := (List.range 32).map (fun j => (rmsnElem .bf16 0 (rmsnField 0 j) (rmsnField 8 j)).1)
def rmsnY (p j : Nat) : Nat := if 32 ≤ p + j / 16 ∧ p < 32 then rmsnCodes.getD (16 * (p + j / 16 - 32) + j % 16) 0 % 65536
  else rmsnField p j

set_option maxRecDepth 100000 in
theorem test_witness_BobbinWrites :
  (∃ (s : State) (ch : Nat) (slot : Nat) (bank : Nat) (r : BobRun) (b : Bobbin) (u : Word64) (x : UopCtx),
    UopDue s ch slot r bank b u ∧ (x = uopCtx s ch bank r b u) ∧ (uCode u = 0x0D) ∧ (r.retAddr = none) ∧ (b.p1 + 4 ≤ 32 * x.nearRows) ∧ (b.p1 + 4 ≤ 16384) ∧ (∀ w, w < 4 → weightRow s ch bank (x.rowBase + (b.p1 + w) / 32) = false)) ∧
  (∃ (s : State) (ch : Nat) (slot : Nat) (bank : Nat) (r : BobRun) (b : Bobbin) (u : Word64) (x : UopCtx) (a : Nat),
    UopDue s ch slot r bank b u ∧ (x = uopCtx s ch bank r b u) ∧ (uCode u = 0x0D) ∧ (r.retAddr = some a) ∧ (32 * ((b.returned : Int) + 4) ≤ r.retS1) ∧ (0 ≤ r.retS2) ∧ ((a : Int) + (ch % 8 : Nat) * r.retS2 + bank * r.retS1 + 32 * b.returned + 128 ≤ storeBase (ch / 8) + 0x38000) ∧ (storeBase (ch / 8) ≤ a)) ∧
  (∃ (s : State) (ch : Nat) (slot : Nat) (bank : Nat) (r : BobRun) (b : Bobbin) (u : Word64) (x : UopCtx),
    UopDue s ch slot r bank b u ∧ (x = uopCtx s ch bank r b u) ∧ (uCode u = 0x0D) ∧ (r.retAddr = none) ∧ (b.p1 + 4 ≤ 32 * x.nearRows) ∧ (b.p1 + 4 ≤ 16384) ∧ (weightRow s ch bank (x.rowBase + b.p1 / 32) = true)) ∧
  (∃ (s : State) (ch : Nat) (slot : Nat) (bank : Nat) (r : BobRun) (b : Bobbin) (u : Word64) (x : UopCtx),
    UopDue s ch slot r bank b u ∧ (x = uopCtx s ch bank r b u) ∧ (uCode u = 0x0C) ∧ (r.retAddr = none) ∧ (b.typeI = false) ∧ (uFmt u = 1 ∨ uFmt u = 2) ∧ (b.p1 + 2 ≤ 32 * x.nearRows) ∧ (b.p1 + 2 ≤ 16384) ∧ (∀ w, w < 2 → weightRow s ch bank (x.rowBase + (b.p1 + w) / 32) = false)) ∧
  (∃ (s : State) (ch : Nat) (slot : Nat) (bank : Nat) (r : BobRun) (b : Bobbin) (u : Word64) (x : UopCtx) (k : Nat) (c : Instr) (code : Nat) (isMul : Bool) (n : Nat) (cs : List (Nat × BobFlags)) (y : Nat → Nat → Nat),
    UopDue s ch slot r bank b u ∧ (x = uopCtx s ch bank r b u) ∧ (c, code, isMul) ∈ [(Instr.eadd ch slot [] k, 0x13, false), (Instr.emul ch slot [] k, 0x14, true)] ∧ Ends k (3 * n) ∧ WordsRead s x b.p0 n ∧ WordsRead s x b.p2 n ∧ (∀ p j, y p j = if b.p1 ≤ p + j / 16 ∧ p < b.p1 then (cs.getD (16 * (p + j / 16 - b.p1) + j % 16) (0, {})).1 % 65536 else nearField s x (p + j / 16) (2 * (j % 16)) 2) ∧ (uCode u = code) ∧ (n = uN u) ∧ (r.retAddr = none) ∧ (b.p1 + n ≤ 32 * x.nearRows) ∧ (b.p1 + n ≤ 16384) ∧ (∀ w, w < n → weightRow s ch bank (x.rowBase + (b.p1 + w) / 32) = false) ∧ (cs.length = 16 * n) ∧ (∀ j, j < 16 * n → cs.getD j (0, {}) = elemOp isMul b.cfmt (Config.freeBits 16 (s.free + j)) (y b.p0 j) (y b.p2 j))) ∧
  (∃ (s : State) (ch : Nat) (slot : Nat) (bank : Nat) (r : BobRun) (b : Bobbin) (u : Word64) (x : UopCtx),
    UopDue s ch slot r bank b u ∧ (x = uopCtx s ch bank r b u) ∧ (uCode u = 0x15) ∧ (b.typeI = false) ∧ (b.cfmt ≠ .int16) ∧ (b.released = false) ∧ (∀ e ∈ r.banks, e.2.state ≠ .ready)) ∧
  (∃ (s : State) (ch : Nat) (slot : Nat) (bank : Nat) (r : BobRun) (b : Bobbin) (u : Word64) (x : UopCtx) (n : Nat) (k : Nat) (cs : List Nat) (y : Nat → Nat → Nat),
    UopDue s ch slot r bank b u ∧ (x = uopCtx s ch bank r b u) ∧ Ends k (3 * n) ∧ WordsRead s x b.p0 n ∧ WordsRead s x b.p2 n ∧ (∀ p j, y p j = if b.p1 ≤ p + j / 16 ∧ p < b.p1 then cs.getD (16 * (p + j / 16 - b.p1) + j % 16) 0 % 65536 else nearField s x (p + j / 16) (2 * (j % 16)) 2) ∧ (uCode u = 0x15) ∧ (n = uN u) ∧ (b.typeI = false) ∧ (b.cfmt ≠ .int16) ∧ (b.released = true) ∧ (r.retAddr = none) ∧ (b.p1 + n ≤ 32 * x.nearRows) ∧ (b.p1 + n ≤ 16384) ∧ (∀ w, w < n → weightRow s ch bank (x.rowBase + (b.p1 + w) / 32) = false) ∧ (cs.length = 16 * n) ∧ (∀ j, j < 16 * n → cs.getD j 0 = (toCfmt b.cfmt ((mulVal (mulVal (decodeElem (cfmtCode b.cfmt) (y b.p0 j)) (valOf (laneAcc b 0))).1 (decodeElem (cfmtCode b.cfmt) (y b.p2 j))).1, (mulVal (decodeElem (cfmtCode b.cfmt) (y b.p0 j)) (valOf (laneAcc b 0))).2 || (mulVal (mulVal (decodeElem (cfmtCode b.cfmt) (y b.p0 j)) (valOf (laneAcc b 0))).1 (decodeElem (cfmtCode b.cfmt) (y b.p2 j))).2)).1)) ∧
  (∃ (s : State) (ch : Nat) (q : BobRun) (first : Nat × Bobbin) (rest : Table Bobbin),
    ((getChan s ch).run = some q) ∧ (q.banks = first :: rest) ∧ ((q.banks.map (·.1)).Pairwise (· < ·)) ∧ (∀ e ∈ q.banks, e.2.state = .atBarrier ∧ e.2.upc = first.2.upc)) :=
 ⟨
  ⟨(uopState (oneUop (uop [(0, 0x0D)]) { acc := List.replicate 32 0x40800000, p1 := 32 })), 65535, 0, 15, (oneUop (uop [(0, 0x0D)]) { acc := List.replicate 32 0x40800000, p1 := 32 }), { ({ acc := List.replicate 32 0x40800000, p1 := 32 } : Bobbin) with state := .active }, (uop [(0, 0x0D)]), _, uopDue_of (by decide +kernel), rfl, by decide +kernel⟩,
  ⟨(uopState (oneUop (uop [(0, 0x0D)]) { acc := List.replicate 32 0x40800000, p1 := 32 } (some (storeBase 8191)))), 65535, 0, 15, (oneUop (uop [(0, 0x0D)]) { acc := List.replicate 32 0x40800000, p1 := 32 } (some (storeBase 8191))), { ({ acc := List.replicate 32 0x40800000, p1 := 32 } : Bobbin) with state := .active }, (uop [(0, 0x0D)]), _, (storeBase 8191), uopDue_of (by decide +kernel), rfl, by decide +kernel⟩,
  ⟨({ uopState (oneUop (uop [(0, 0x0D)]) { acc := List.replicate 32 0x40800000, p1 := 32 }) with slots := [(1023, { phase := .placed, header := toBytes 58 0 ++ toBytes 2 512, tiles := [{ kind := 0, core := 8191, layer := 7, bank := 15, row := 1, rows := 1 }] })] }), 65535, 0, 15, (oneUop (uop [(0, 0x0D)]) { acc := List.replicate 32 0x40800000, p1 := 32 }), { ({ acc := List.replicate 32 0x40800000, p1 := 32 } : Bobbin) with state := .active }, (uop [(0, 0x0D)]), _, uopDue_of (by decide +kernel), rfl, by decide +kernel⟩,
  ⟨(uopState (oneUop (uop [(0, 0x0C), (8, 1)]) { acc := List.replicate 32 0x40800000, p1 := 32 })), 65535, 0, 15, (oneUop (uop [(0, 0x0C), (8, 1)]) { acc := List.replicate 32 0x40800000, p1 := 32 }), { ({ acc := List.replicate 32 0x40800000, p1 := 32 } : Bobbin) with state := .active }, (uop [(0, 0x0C), (8, 1)]), _, uopDue_of (by decide +kernel), rfl, by decide +kernel⟩,
  ⟨(uopState (oneUop (uop [(0, 0x14), (16, 1)]) { p1 := 1, p2 := 8 })), 65535, 0, 15, (oneUop (uop [(0, 0x14), (16, 1)]) { p1 := 1, p2 := 8 }), { ({ p1 := 1, p2 := 8 } : Bobbin) with state := .active }, (uop [(0, 0x14), (16, 1)]), _, 0, (.emul 65535 0 [] 0), 0x14, true, 2, emulCodes, emulY, uopDue_of (by decide +kernel), rfl, by simp, .inl rfl, ⟨by decide +kernel, by decide +kernel, uopRange rfl (by decide +kernel)⟩, ⟨by decide +kernel, by decide +kernel, uopRange rfl (by decide +kernel)⟩, fun _ _ => rfl, by decide +kernel⟩,
  ⟨(uopState (oneUop (uop [(0, 0x15), (16, 1)]) { v := (List.range 512).map (fun i => BitVec.ofNat 16 (i * 131 + 0x3F80)) })), 65535, 0, 15, (oneUop (uop [(0, 0x15), (16, 1)]) { v := (List.range 512).map (fun i => BitVec.ofNat 16 (i * 131 + 0x3F80)) }), { ({ v := (List.range 512).map (fun i => BitVec.ofNat 16 (i * 131 + 0x3F80)) } : Bobbin) with state := .active }, (uop [(0, 0x15), (16, 1)]), _, uopDue_of (by decide +kernel), rfl, by decide +kernel⟩,
  ⟨(uopState (oneUop (uop [(0, 0x15), (16, 1)]) { p1 := 32, p2 := 8, released := true })), 65535, 0, 15, (oneUop (uop [(0, 0x15), (16, 1)]) { p1 := 32, p2 := 8, released := true }), { ({ p1 := 32, p2 := 8, released := true } : Bobbin) with state := .active }, (uop [(0, 0x15), (16, 1)]), _, 2, 1, rmsnCodes, rmsnY, uopDue_of (by decide +kernel), rfl, .inr (by decide), ⟨by decide +kernel, by decide +kernel, uopRange rfl (by decide +kernel)⟩, ⟨by decide +kernel, by decide +kernel, uopRange rfl (by decide +kernel)⟩, fun _ _ => rfl, by decide +kernel⟩,
  ⟨{ live with chans := [(65535, { run := some { core := 8191, slotIndex := 1, bankMask := 0xC000, uops := [uop [(0, 0x15), (16, 1)]], banks := [(14, { state := .atBarrier, acc := List.replicate 32 0x40800000 }), (15, { state := .atBarrier, acc := List.replicate 32 0x3F800000 })] } })] }, 65535, { core := 8191, slotIndex := 1, bankMask := 0xC000, uops := [uop [(0, 0x15), (16, 1)]], banks := [(14, { state := .atBarrier, acc := List.replicate 32 0x40800000 }), (15, { state := .atBarrier, acc := List.replicate 32 0x3F800000 })] }, (14, { state := .atBarrier, acc := List.replicate 32 0x40800000 }), [(15, { state := .atBarrier, acc := List.replicate 32 0x3F800000 })], by decide +kernel⟩⟩

/-- A gather of all pages of layer 0 and head group 0 in the store of core 8128, for row 0. -/
def gather : BitVec 512 := descOf ([(0, 0x21), (96, 2), (112, 1), (128, 7), (156, 3)] ++ o20 24 (storeBase 8128) 1 512 8 2 32 2304)
def gatherSlot : EngSlot := { index := 1, state := .issued, desc := gather, addrC := storeBase 8128 }
def gatherTable : RowTable := { path := true, rows := [{ seq := 7, newTokens := 1, length := 8 }] }
def gatherState : State := { issuing { moveSlots := [gatherSlot], rowTable := some gatherTable } with
  seqs := [(7, { phase := .opened, modelSlot := 1023, length := 8, maxLength := 64 })]
  ptes := [(pteKey 7 0 0 false 0, { state := .present, fn := 33292293 })]
  frames := [(frameKey 33292293, { allocated := true, refcount := 1, owner := 7, modelSlot := 1023 })] }

set_option maxRecDepth 100000 in
theorem test_witness_MoveAndGather :
  (∃ (s : State) (core : Nat) (x : EngSlot) (a : Opd) (c : Opd) (n : _),
    RangeVerifies s x.addrA (elemSize a.fmt * n) ∧ RangeVerifies s x.addrC (elemSize a.fmt * n) ∧ (issuedSlot (getCore s core) .move opMove = some x) ∧ (a = { opd20 x.desc 16 with addr := x.addrA }) ∧ (c = { opd20 x.desc 36 with addr := x.addrC }) ∧ (elemBits a.fmt ≠ 4) ∧ (c.fmt = a.fmt) ∧ (0 < n) ∧ (a.e0 = n) ∧ (c.e0 = n) ∧ (a.e1 = 1) ∧ (a.e2 = 1) ∧ (c.e1 = 1) ∧ (c.e2 = 1) ∧ (a.s0 = 0) ∧ (c.s0 = 0) ∧ (x.addrA + elemSize a.fmt * n ≤ 0xE200000000) ∧ (x.addrC + elemSize a.fmt * n ≤ 0xE200000000) ∧ (x.addrA + elemSize a.fmt * n ≤ x.addrC ∨ x.addrC + elemSize a.fmt * n ≤ x.addrA) ∧ (rangesWait s (opdRanges a ++ opdRanges c) = false) ∧ (engineOrder s core .move x (opdRanges a ++ opdRanges c) = false)) ∧
  (∃ (s : State) (core : Nat) (x : EngSlot) (a : Opd) (c : Opd),
    (issuedSlot (getCore s core) .move opMove = some x) ∧ (a = { opd20 x.desc 16 with addr := x.addrA }) ∧ (c = { opd20 x.desc 36 with addr := x.addrC }) ∧ (engineOrder s core .move x (opdRanges a ++ opdRanges c) = true)) ∧
  (∃ (s : State) (core : Nat) (x : EngSlot),
    (issuedSlot (getCore s core) .move opGather = some x) ∧ (scList x.desc = false) ∧ (engineOrder s core .move x (cutRanges x) = true)) ∧
  (∃ (s : State) (core : Nat) (x : EngSlot) (c : Opd) (e : RowEntry),
    RangeVerifies s (biasAddr c) (4 * (c.e1 + 64)) ∧ (issuedSlot (getCore s core) .move opGather = some x) ∧ (c = { opd20 x.desc 24 with addr := x.addrC }) ∧ (engineOrder s core .move x (cutRanges x ++ (if scList x.desc then [(((storeBase core + scFirst x.desc % 2 ^ 18 : Nat) : Int), 4 * dOpx x.desc)] else [])) = false) ∧ (e = rowEntryOf (getCore s core) x.row) ∧ (appliesTo x.desc e = false)) ∧
  (∃ (s : State) (core : Nat) (x : EngSlot) (c : Opd) (e : RowEntry) (g : Geometry) (pg : Nat) (key : Nat) (fn : Nat) (k : Nat),
    (∀ tab, (getCore s core).rowTable = some tab → tab.path = true) ∧ RangeVerifies s (frameAddr fn) 16384 ∧ RangeVerifies s x.addrC (biasAddr c + 4 * (c.e1 + 64) - x.addrC) ∧ (issuedSlot (getCore s core) .move opGather = some x) ∧ (c = { opd20 x.desc 24 with addr := x.addrC }) ∧ (engineOrder s core .move x (cutRanges x ++ (if scList x.desc then [(((storeBase core + scFirst x.desc % 2 ^ 18 : Nat) : Int), 4 * dOpx x.desc)] else [])) = false) ∧ (e = rowEntryOf (getCore s core) x.row) ∧ (appliesTo x.desc e = true) ∧ (scList x.desc = false) ∧ (scKv x.desc = 3) ∧ (g = geometryOf (getSlot s (getSeq s e.seq).modelSlot)) ∧ (namedPages x.desc (pagesBelow g e.length) = [pg]) ∧ (pg < pagesBelow g e.length) ∧ (key = pteKey e.seq (scLayer x.desc) (scHgroup x.desc) false pg) ∧ ((getPte s key).state = .present) ∧ (fn = (getPte s key).fn) ∧ ((frameOf s fn).allocated = true) ∧ (1 ≤ (frameOf s fn).refcount) ∧ (frameOut s fn = false) ∧ (frameAddr fn + 16384 ≤ 0xE000000000) ∧ (k = Nat.min g.tpp (e.length - pg * g.tpp)) ∧ (k ≤ c.e1) ∧ (c.s1 = keyBytes g) ∧ (c.e2 = 2) ∧ (c.s2 = ((c.e1 + 64 : Nat) : Int) * c.s1) ∧ (g.tpp * keyBytes g ≤ 8192) ∧ (0 < keyBytes g) ∧ ((getCore s core).rowTable.isSome = true) ∧ (rangesWait s [(((frameAddr fn : Nat) : Int), 16384)] = false) ∧ (engineOrder s core .move x ([(((frameAddr fn : Nat) : Int), 16384)] ++ cutRanges x) = false) ∧ (core < 8192) ∧ (storeBase core ≤ x.addrC) ∧ (biasAddr c + 4 * (c.e1 + 64) ≤ storeBase core + 0x38000) ∧ ((getCore s core).appends = [])) :=
 ⟨
  ⟨(issuing { moveSlots := [{ moveSlot with state := .issued }] }), 8128, ({ moveSlot with state := .issued }), { opd20 moveDesc 16 with addr := storeBase 8128 }, { opd20 moveDesc 36 with addr := storeBase 8128 + 4096 }, 8, zero_range rfl (by decide +kernel), zero_range rfl (by decide +kernel), by decide +kernel⟩,
  ⟨(issuing { moveSlots := [{ gatherSlot with index := 0 }, { moveSlot with state := .issued }] }), 8128, ({ moveSlot with state := .issued }), { opd20 moveDesc 16 with addr := storeBase 8128 }, { opd20 moveDesc 36 with addr := storeBase 8128 + 4096 }, by decide +kernel⟩,
  ⟨(issuing { moveSlots := [{ moveSlot with state := .issued, index := 0, addrC := storeBase 8128 }, gatherSlot] }), 8128, gatherSlot, by decide +kernel⟩,
  ⟨(issuing { moveSlots := [gatherSlot] }), 8128, gatherSlot, { opd20 gather 24 with addr := storeBase 8128 }, {}, zero_range rfl (by decide +kernel), by decide +kernel⟩,
  ⟨gatherState, 8128, gatherSlot, { opd20 gather 24 with addr := storeBase 8128 }, { seq := 7, newTokens := 1, length := 8 }, (geometryOf placedModel), 0, (pteKey 7 0 0 false 0), 33292293, 8, fun tab h => by
    have h2 : some gatherTable = some tab := h
    cases h2; rfl, zero_range rfl (by decide +kernel), zero_range rfl (by decide +kernel), by decide +kernel⟩⟩

/-- A BOBBIN_SEQ and a SWATCH_SCORE of core 8191. -/
def seqSlot (chans : List Nat) : EngSlot :=
  { index := 1, state := .issued, desc := descOf [(0, 0x22), (128, 0x81), (136, 0), (154, 1), (160, 0x8001)], chans := chans }
def scoreSlot : EngSlot :=
  { index := 1, state := .issued, addrC := storeBase 8191
    desc := descOf ([(0, 0x23), (112, 8), (128, 0xFFF)] ++ o20 44 (storeBase 8191) 0 8 1 1 1 1) }
def seqState (x : EngSlot) : State := { live with
  cores := [(8191, { seqr := .running, program := some heldProgram, moveSlots := [x] })]
  mem := stored {} (storeBase 8191) (toBytes 8 1) }

set_option maxRecDepth 100000 in
theorem test_witness_ProcessorMode :
  (∃ (s : State) (core : Nat) (x : EngSlot),
    (firstThat (newSlot opBobbin) (getCore s core).moveSlots = some x) ∧ (engineOrder s core .move x (cutRanges x ++ [(((storeBase core + bcOffset x.desc : Nat) : Int), 8 * bcLen x.desc)] ++ ((maskChans core (bcMask x.desc)).map (fun m => (((m * 0x800000 : Nat) : Int), 0x800000)))) = false)) ∧
  (∃ (s : State) (core : Nat) (x : EngSlot) (c : Opd),
    RangeVerifies s x.addrC (4 * dOpx x.desc) ∧ (c = { opd20 x.desc 44 with addr := x.addrC }) ∧ (firstThat (newSlot opScore) (getCore s core).moveSlots = some x) ∧ (engineOrder s core .move x (cutRanges x ++ opdRanges { opd20 x.desc 24 with addr := x.addrA } ++ ((scoreCandidates s core x).map (fun y => y.2.2)).eraseDups.map (fun fn => (((frameAddr fn : Nat) : Int), 16384))) = false) ∧ (0 < dOpx x.desc) ∧ (c.e0 = dOpx x.desc) ∧ (c.e1 = 1) ∧ (c.e2 = 1) ∧ (c.s0 = 0) ∧ (c.fmt = 0)) ∧
  (∃ (s : State) (region : Nat),
    (admitLimit (getRegion s region).admitLevel.toNat ≤ (getRegion s region).active)) ∧
  (∃ (s : State) (core : Nat) (ch : Nat) (region : Nat) (x : EngSlot) (index : Nat) (rest : List (Nat × Nat)) (uops : List Word64),
    RangeVerifies s (storeBase core + bcOffset x.desc) (8 * bcLen x.desc) ∧ (uops = (List.range (bcLen x.desc)).map (fun i => BitVec.ofNat 64 (leNat (readBytes s.mem (storeBase core + bcOffset x.desc + 8 * i) 8)))) ∧ (∀ ril, ril = (getCore s core).program.any (fun p => rilavanik (getSlot s p.slot)) → sequenceOk ril uops = true) ∧ ((getRegion s region).inReset = false) ∧ ((getRegion s region).active < admitLimit (getRegion s region).admitLevel.toNat) ∧ (firstThat (grantable s) (getRegion s region).admitQueue = some ch) ∧ ((getChan s ch).waitAdmit = (core, index) :: rest) ∧ (firstThat (holdsChan index ch) (getCore s core).moveSlots = some x) ∧ (dOpcode x.desc = opBobbin) ∧ (core < 8192) ∧ (0 < bcLen x.desc) ∧ (bcOffset x.desc + 8 * bcLen x.desc ≤ 0x38000)) ∧
  (∃ (s : State) (core : Nat) (ch : Nat) (region : Nat) (x : EngSlot) (index : Nat) (rest : List (Nat × Nat)),
    ((getRegion s region).inReset = false) ∧ ((getRegion s region).active < admitLimit (getRegion s region).admitLevel.toNat) ∧ (firstThat (grantable s) (getRegion s region).admitQueue = some ch) ∧ ((getChan s ch).waitAdmit = (core, index) :: rest) ∧ (firstThat (holdsChan index ch) (getCore s core).moveSlots = some x) ∧ (dOpcode x.desc = opScore)) ∧
  (∃ (s : State) (core : Nat) (ch : Nat) (x : EngSlot) (r : BobRun),
    ((getChan s ch).run = some r) ∧ (r.score = false) ∧ (allEnded r = true) ∧ (∀ e ∈ r.banks, e.2.olds = []) ∧ (r.core = core) ∧ (firstThat (holdsChan r.slotIndex ch) (getCore s core).moveSlots = some x) ∧ (x.chans = [ch]) ∧ (r.poisoned = false) ∧ (x.poisoned = false)) ∧
  (∃ (s : State) (ch : Nat) (r : BobRun) (bank : Nat) (blk : Nat) (b : Bobbin) (old : Bytes) (tag : Tag),
    Verifies s blk ∧ ((getChan s ch).run = some r) ∧ (r.score = false) ∧ (allEnded r = true) ∧ (r.banks = [(bank, b)]) ∧ (b.olds = [(blk, old, tag)]) ∧ (r.poisoned = false)) :=
 ⟨
  ⟨(seqState (seqSlot [])), 8191, (seqSlot []), by decide +kernel⟩,
  ⟨(seqState scoreSlot), 8191, scoreSlot, { opd20 scoreSlot.desc 44 with addr := storeBase 8191 }, rangeVerifies_of (by decide +kernel), by decide +kernel⟩,
  ⟨{ live with regions := [(15, { active := 2048 })] }, 15, by decide +kernel⟩,
  ⟨{ seqState (seqSlot [65535]) with regions := [(15, { active := 2047, admitQueue := [65535] })], chans := [(65535, { waitAdmit := [(8191, 1)] })] }, 8191, 65535, 15, (seqSlot [65535]), 1, [], _, rangeVerifies_of (by decide +kernel), rfl, by
    intro ril h
    cases h
    decide +kernel, by decide +kernel⟩,
  ⟨{ seqState { scoreSlot with chans := [65535] } with regions := [(15, { active := 2047, admitQueue := [65535] })], chans := [(65535, { waitAdmit := [(8191, 1)] })] }, 8191, 65535, 15, { scoreSlot with chans := [65535] }, 1, [], by decide +kernel⟩,
  ⟨{ seqState (seqSlot [65535]) with regions := [(15, { active := 2047 })], chans := [(65535, { run := some { core := 8191, slotIndex := 1, banks := [(0, { state := .ended }), (15, { state := .ended })] } })] }, 8191, 65535, (seqSlot [65535]), { core := 8191, slotIndex := 1, banks := [(0, { state := .ended }), (15, { state := .ended })] }, by decide +kernel⟩,
  ⟨{ seqState (seqSlot [65535]) with regions := [(15, { active := 2047 })], chans := [(65535, { run := some { core := 8191, slotIndex := 1, banks := [(15, { state := .ended, olds := [(0x7FFFF800, List.replicate 256 0, makeTag 0x7FFFF800 (List.replicate 256 0) true false)] })] } })] }, 65535, { core := 8191, slotIndex := 1, banks := [(15, { state := .ended, olds := [(0x7FFFF800, List.replicate 256 0, makeTag 0x7FFFF800 (List.replicate 256 0) true false)] })] }, 15, 0x7FFFF800, { state := .ended, olds := [(0x7FFFF800, List.replicate 256 0, makeTag 0x7FFFF800 (List.replicate 256 0) true false)] }, (List.replicate 256 0), (makeTag 0x7FFFF800 (List.replicate 256 0) true false), verifies_of (by decide +kernel), by decide +kernel⟩⟩

set_option maxRecDepth 100000 in
theorem test_witness_PowerCommands :
  (∃ (s : State) (p : Nat) (k : Packet),
    MayBegin s p 0x0803 k ∧ (argAt k 0x10 4 < 600)) ∧
  (∃ (s : State) (p : Nat) (k : Packet),
    MayBegin s p 0x0803 k ∧ (600 ≤ argAt k 0x10 4) ∧ (licenceMax s < argAt k 0x10 4)) ∧
  (∃ (s : State) (p : Nat) (k : Packet),
    MayBegin s p 0x0803 k ∧ (600 ≤ argAt k 0x10 4) ∧ (argAt k 0x10 4 ≤ licenceMax s)) ∧
  (∃ (s : State) (p : Nat) (k : Packet),
    (managerUp s = true) ∧ (s.pcie.phase ≠ 2) ∧ (s.power.capPending = [p]) ∧ (getPacket s p = some k) ∧ (k.answer = none)) ∧
  (∃ (s : State),
    (managerUp s = true) ∧ (s.pcie.phase ≠ 2)) ∧
  (∃ (s : State),
    (managerUp s = true) ∧ (s.pcie.phase = 2)) ∧
  (∃ (s : State) (p : Nat) (k : Packet),
    MayBegin s p 0x0804 k) ∧
  (∃ (s : State) (p : Nat) (k : Packet) (b : Bytes),
    MayBegin s p 0x0801 k ∧ (argAt k 0x10 4 < 256) ∧ (b = telemRecord s (argAt k 0x10 4)) ∧ ((bufB k).host = true) ∧ (s.pcie.d3hot = false) ∧ (s.pcie.busMaster = true) ∧ (b.length ≤ (bufB k).len)) ∧
  (∃ (s : State) (p : Nat) (k : Packet) (b : Bytes),
    MayBegin s p 0x0801 k ∧ (argAt k 0x10 4 < 256) ∧ (b = telemRecord s (argAt k 0x10 4)) ∧ ((bufB k).host = true) ∧ (s.pcie.d3hot = false) ∧ (s.pcie.busMaster = true) ∧ ((bufB k).len < b.length)) ∧
  (∃ (s : State) (p : Nat) (k : Packet),
    MayBegin s p 0x0802 k ∧ (argAt k 0x10 4 < 256)) ∧
  (∃ (s : State) (len : _),
    RangeVerifies s (0xE01EE00000 + s.errors.tlmTail.toNat % 2097152) len ∧ (managerUp s = true) ∧ (0 < s.power.streamPeriod) ∧ (len = ((telemRecord s s.power.streamMask.toNat).length + 63) / 64 * 64) ∧ (s.errors.tlmTail.toNat % 2097152 + len ≤ 2097152) ∧ ((s.errors.tlmTail - s.errors.tlmHead).toNat + len ≤ 2097152)) ∧
  (∃ (s : State) (len : _),
    (managerUp s = true) ∧ (0 < s.power.streamPeriod) ∧ (len = ((telemRecord s s.power.streamMask.toNat).length + 63) / 64 * 64) ∧ (s.errors.tlmTail.toNat % 2097152 + len ≤ 2097152) ∧ (2097152 < (s.errors.tlmTail - s.errors.tlmHead).toNat + len)) :=
 ⟨
  ⟨(inFlight live [pkt 0x0803 0 [(0x10, 4, 599)]]), 1, (pkt 0x0803 0 [(0x10, 4, 599)]), mayBegin_of (by decide +kernel), by decide +kernel⟩,
  ⟨(inFlight live [pkt 0x0803 0 [(0x10, 4, 901)]]), 1, (pkt 0x0803 0 [(0x10, 4, 901)]), mayBegin_of (by decide +kernel), by decide +kernel⟩,
  ⟨(inFlight live [pkt 0x0803 0 [(0x10, 4, 900)]]), 1, (pkt 0x0803 0 [(0x10, 4, 900)]), mayBegin_of (by decide +kernel), by decide +kernel⟩,
  ⟨{ inFlight live [{ pkt 0x0803 0 [(0x10, 4, 600)] with started := true }] with power := { capPending := [1] } }, 1, { pkt 0x0803 0 [(0x10, 4, 600)] with started := true }, by decide +kernel⟩,
  ⟨{ inFlight live [{ pkt 0x0803 0 [(0x10, 4, 600)] with started := true }] with power := { capPending := [1] } }, by decide +kernel⟩,
  ⟨{ live with pcie := { live.pcie with phase := 2, ready := false } }, by decide +kernel⟩,
  ⟨(inFlight live [pkt 0x0804 0 []]), 1, (pkt 0x0804 0 []), mayBegin_of (by decide +kernel)⟩,
  ⟨(inFlight live [pkt 0x0801 0 [(0x10, 4, 255), (0x20, 8, 0x1000), (0x28, 4, 65536), (0x2C, 1, 1)]]), 1, (pkt 0x0801 0 [(0x10, 4, 255), (0x20, 8, 0x1000), (0x28, 4, 65536), (0x2C, 1, 1)]), (telemRecord (inFlight live [pkt 0x0801 0 [(0x10, 4, 255), (0x20, 8, 0x1000), (0x28, 4, 65536), (0x2C, 1, 1)]]) 255), mayBegin_of (by decide +kernel), by decide +kernel⟩,
  ⟨(inFlight live [pkt 0x0801 0 [(0x10, 4, 255), (0x20, 8, 0x1000), (0x28, 4, 0), (0x2C, 1, 1)]]), 1, (pkt 0x0801 0 [(0x10, 4, 255), (0x20, 8, 0x1000), (0x28, 4, 0), (0x2C, 1, 1)]), (telemRecord (inFlight live [pkt 0x0801 0 [(0x10, 4, 255), (0x20, 8, 0x1000), (0x28, 4, 0), (0x2C, 1, 1)]]) 255), mayBegin_of (by decide +kernel), by decide +kernel⟩,
  ⟨(inFlight live [pkt 0x0802 0 [(0x10, 4, 255), (0x14, 4, 5)]]), 1, (pkt 0x0802 0 [(0x10, 4, 255), (0x14, 4, 5)]), mayBegin_of (by decide +kernel), by decide +kernel⟩,
  ⟨{ live with power := { streamPeriod := 1, streamMask := 255 }, errors := { tlmTail := 0x1FF000, tlmHead := 0x1FF000 } }, (((telemRecord ({ live with power := { streamPeriod := 1, streamMask := 255 }, errors := { tlmTail := 0x1FF000, tlmHead := 0x1FF000 } } : State) 255).length + 63) / 64 * 64), zero_range rfl (by decide +kernel), by decide +kernel⟩,
  ⟨{ live with power := { streamPeriod := 1, streamMask := 255 }, errors := { tlmTail := 0x200000, tlmHead := 0 } }, (((telemRecord ({ live with power := { streamPeriod := 1, streamMask := 255 }, errors := { tlmTail := 0x200000, tlmHead := 0 } } : State) 255).length + 63) / 64 * 64), by decide +kernel⟩⟩

set_option maxRecDepth 100000 in
theorem test_witness_PowerTimers :
  (∃ (s : State) (pos : Nat) (layer : Nat) (v : _),
    (managerUp s = true) ∧ (pos < 4) ∧ (layer < 8) ∧ (v = tget s.thermal.bands (pos * 8 + layer)) ∧ (0 < v) ∧ (40 ≤ tget s.thermal.bandBelow (pos * 8 + layer))) ∧
  (∃ (s : State) (pos : Nat) (layer : Nat) (n : Nat) (k : Stack),
    (managerUp s = true) ∧ (pos < 4) ∧ (layer < 8) ∧ (k = tget s.hbmStacks n) ∧ (k.out = false) ∧ (k.held = false) ∧ (40 ≤ k.below) ∧ (0 < k.step)) ∧
  (∃ (s : State) (pos : Nat) (layer : Nat) (n : Nat) (k : Stack),
    (managerUp s = true) ∧ (pos < 4) ∧ (layer < 8) ∧ (k = tget s.hbmStacks n) ∧ (k.out = false) ∧ (k.held = false) ∧ (4 ≤ k.missing)) ∧
  (∃ (s : State) (pos : Nat) (layer : Nat),
    (managerUp s = true) ∧ (pos < 4) ∧ (layer < 8) ∧ (dieServes s pos = true) ∧ ((tget s.dies pos).clocksStopped = false)) ∧
  (∃ (s : State) (pos : Nat) (layer : Nat),
    (managerUp s = true) ∧ (pos < 4) ∧ (layer < 8) ∧ (dieServes s pos = true)) ∧
  (∃ (s : State) (pos : Nat) (layer : Nat),
    (managerUp s = true) ∧ (pos < 4) ∧ (layer < 8) ∧ (4 ≤ (tget s.dies pos).misses)) ∧
  (∃ (s : State) (pos : Nat) (layer : Nat),
    (managerUp s = true) ∧ (pos < 4) ∧ (layer < 8) ∧ (s.thermal.stop = 0) ∧ (s.thermal.clockOrdered = false) ∧ (40 ≤ (tget s.dies pos).misses)) ∧
  (∃ (s : State) (pos : Nat) (layer : Nat),
    (managerUp s = true) ∧ (pos < 4) ∧ (layer < 8) ∧ (s.thermal.stop = 0) ∧ (s.thermal.clockOrdered = false) ∧ (40 ≤ s.power.inletHot)) ∧
  (∃ (s : State) (pos : Nat) (layer : Nat) (n : Nat) (x : Sensor),
    (x = getSensor s n) ∧ (managerUp s = true) ∧ (pos < 4) ∧ (layer < 8) ∧ (x.faulty = false) ∧ ((512 ≤ n ∧ n < 530 ∧ 4 ≤ x.missing) ∨ (s.thermal.hold = true ∧ n < 512 ∧ 40 ≤ x.missing ∧ dieServes s (n % 256 / 64) = true))) ∧
  (∃ (s : State) (pos : Nat) (layer : Nat) (n : Nat) (x : Sensor),
    (x = getSensor s n) ∧ (managerUp s = true) ∧ (pos < 4) ∧ (layer < 8) ∧ (x.faulty = false) ∧ (x.suspect = true) ∧ (40 ≤ x.clearFor)) ∧
  (∃ (s : State) (pos : Nat) (layer : Nat) (n : Nat) (x : Sensor),
    (x = getSensor s n) ∧ (managerUp s = true) ∧ (pos < 4) ∧ (layer < 8) ∧ (x.faulty = false) ∧ (x.suspect = true) ∧ (4000 ≤ x.suspectFor)) ∧
  (∃ (s : State) (pos : Nat) (layer : Nat) (a : Nat) (b : Nat),
    (managerUp s = true) ∧ (pos < 4) ∧ (layer < 8) ∧ (a < b) ∧ (nodePairs.contains (a, b) = true) ∧ (8 ≤ tget s.power.disagree (a * 1024 + b)) ∧ (standsAlone s a b = true) ∧ (standsAlone s b a = false)) ∧
  (∃ (s : State) (pos : Nat) (layer : Nat) (g : Nat),
    (managerUp s = true) ∧ (pos < 4) ∧ (layer < 8) ∧ (regionOn s g = true) ∧ (s.thermal.stop = 0) ∧ (4 ≤ (getRegion s g).belowCount) ∧ (¬ (4 ≤ (tget s.dies (g / 4)).misses ∧ 2 ≤ (getRegion s g).rung))) ∧
  (∃ (s : State) (pos : Nat) (layer : Nat),
    (managerUp s = true) ∧ (pos < 4) ∧ (layer < 8) ∧ (s.thermal.stop = 0) ∧ (s.power.stepWait = 0) ∧ (4 ≤ s.power.overCount) ∧ (halfLow s = true) ∧ (s.power.step < 3)) ∧
  (∃ (s : State) (pos : Nat) (layer : Nat),
    (managerUp s = true) ∧ (pos < 4) ∧ (layer < 8) ∧ (s.thermal.stop = 0) ∧ (s.power.stepWait = 0) ∧ (40 ≤ s.power.underCount) ∧ (0 < s.power.step) ∧ (s.power.stepTarget = none) ∧ (∀ r ∈ regionsOn s, 6 ≤ (getRegion s r).rung) ∧ (∀ d, d < 4 → (tget s.dies d).misses < 4)) ∧
  (∃ (s : State) (pos : Nat) (layer : Nat) (k : Nat),
    (managerUp s = true) ∧ (pos < 4) ∧ (layer < 8) ∧ (s.power.stepTarget = some k) ∧ (s.thermal.stop = 0) ∧ (∀ d, d < 4 → dieServes s d = true → voltageShown s d = true)) ∧
  (∃ (s : State) (pos : Nat) (layer : Nat) (k : Nat),
    (managerUp s = true) ∧ (pos < 4) ∧ (layer < 8) ∧ (s.power.stepTarget = some k) ∧ (4 ≤ s.power.upSamples) ∧ (s.power.oldSetpoints.length = 4)) :=
 ⟨
  ⟨{ live with thermal := { bands := [(31, 1)], bandBelow := [(31, 40)] } }, 3, 7, 1, by decide +kernel⟩,
  ⟨{ live with hbmStacks := [(7, { step := 3, below := 40 })] }, 3, 7, 7, { step := 3, below := 40 }, by decide +kernel⟩,
  ⟨{ live with hbmStacks := [(7, { step := 2, missing := 4 })] }, 3, 7, 7, { step := 2, missing := 4 }, by decide +kernel⟩,
  ⟨live, 3, 7, by decide +kernel⟩,
  ⟨live, 3, 7, by decide +kernel⟩,
  ⟨{ live with dies := [(3, { misses := 4 })] }, 3, 7, by decide +kernel⟩,
  ⟨{ live with dies := [(3, { misses := 40 })] }, 3, 7, by decide +kernel⟩,
  ⟨{ live with power := { inletHot := 40 } }, 3, 7, by decide +kernel⟩,
  ⟨{ live with sensors := [(511, { missing := 40 })], thermal := { hold := true } }, 3, 7, 511, { missing := 40 }, rfl, by decide +kernel⟩,
  ⟨{ live with sensors := [(511, { suspect := true, clearFor := 40 })] }, 3, 7, 511, { suspect := true, clearFor := 40 }, rfl, by decide +kernel⟩,
  ⟨{ live with sensors := [(511, { suspect := true, suspectFor := 4000 })] }, 3, 7, 511, { suspect := true, suspectFor := 4000 }, rfl, by decide +kernel⟩,
  ⟨{ live with sensors := (List.range 512).map (fun n => (n, { reading := some (if n = 0 then 900 else 0) })), power := { disagree := [(1, 8)] } }, 3, 7, 0, 1, by decide +kernel⟩,
  ⟨{ live with regions := [(15, { enabled := true, belowCount := 4, rung := 10 })] }, 3, 7, 15, by decide +kernel⟩,
  ⟨{ live with power := { overCount := 4, step := 2 }, regions := [(0, { enabled := true, rung := 3 }), (15, { enabled := true })] }, 3, 7, by decide +kernel⟩,
  ⟨{ live with power := { underCount := 40, step := 3 } }, 3, 7, by decide +kernel⟩,
  ⟨{ live with power := { stepTarget := some 1, step := 2 }, dies := (List.range 4).map (fun d => (d, { heldOut := true })) }, 3, 7, 1, by decide +kernel⟩,
  ⟨{ live with power := { stepTarget := some 1, step := 2, upSamples := 4, oldSetpoints := [700, 701, 702, 703] } }, 3, 7, 1, by decide +kernel⟩⟩

set_option maxRecDepth 100000 in
theorem test_witness_BringUpImageAndDies (img : Bytes) (hi : imgReason State.reset img = 0) :
  (∃ (s : State),
    (powered s = true) ∧ (hubRuns s = true) ∧ (s.pcie.phase = 0) ∧ (s.pcie.rescueOnly = false) ∧ (s.flash.darnValid = true) ∧ (s.pcie.doeHeld = none) ∧ (∀ o ∈ s.boot.order, o.cause ≠ .watchdog) ∧ (s.pins.straps.bootSrc = 1)) ∧
  (∃ (s : State),
    (powered s = true) ∧ (hubRuns s = true) ∧ (s.pcie.phase = 0) ∧ (s.pcie.rescueOnly = false) ∧ (s.flash.darnValid = true) ∧ (s.pcie.doeHeld = none) ∧ (∀ o ∈ s.boot.order, o.cause ≠ .watchdog) ∧ (s.pins.straps.bootSrc ≠ 1) ∧ (s.flash.pending = none) ∧ (s.flash.try? = none) ∧ (s.flash.fallback = false) ∧ (imgReason s (flashImage s s.flash.active) = 0)) ∧
  (∃ (s : State),
    (powered s = true) ∧ (hubRuns s = true) ∧ (s.pcie.phase = 0) ∧ (s.pcie.rescueOnly = false) ∧ (s.flash.darnValid = true) ∧ (s.pcie.doeHeld = none) ∧ (∀ o ∈ s.boot.order, o.cause ≠ .watchdog) ∧ (s.pins.straps.bootSrc ≠ 1) ∧ (s.flash.pending = none) ∧ (s.flash.try? = none) ∧ (s.flash.fallback = false) ∧ (imgReason s (flashImage s s.flash.active) ≠ 0) ∧ (imgReason s (flashImage s (1 - s.flash.active)) = 0)) ∧
  (∃ (s : State),
    (powered s = true) ∧ (hubRuns s = true) ∧ (s.pcie.phase = 0) ∧ (s.pcie.rescueOnly = false) ∧ (s.flash.darnValid = true) ∧ (s.pcie.doeHeld = none) ∧ (∀ o ∈ s.boot.order, o.cause ≠ .watchdog) ∧ (s.pins.straps.bootSrc ≠ 1) ∧ (s.flash.pending = none) ∧ (s.flash.try? = none) ∧ (s.flash.fallback = false) ∧ (imgReason s (flashImage s s.flash.active) ≠ 0) ∧ (imgReason s (flashImage s (1 - s.flash.active)) ≠ 0)) ∧
  (∃ (s : State) (b : Bytes),
    (powered s = true) ∧ (hubRuns s = true) ∧ (s.pcie.phase = 1) ∧ (s.pcie.rescueOnly = true ∨ s.pins.straps.bootSrc = 1) ∧ (s.pcie.doeHeld = none) ∧ (hostOpen s = true) ∧ (imgReason s b = 0)) ∧
  (∃ (s : State) (b : Bytes),
    (powered s = true) ∧ (hubRuns s = true) ∧ (s.pcie.phase = 1) ∧ (s.pcie.rescueOnly = true ∨ s.pins.straps.bootSrc = 1) ∧ (s.pcie.doeHeld = none) ∧ (hostOpen s = true) ∧ (imgReason s b ≠ 0)) ∧
  (∃ (s : State),
    (powered s = true) ∧ (hubRuns s = true) ∧ (s.pcie.phase = 1) ∧ (s.pcie.rescueOnly = true ∨ s.pins.straps.bootSrc = 1) ∧ (s.pcie.doeHeld = none) ∧ (hostOpen s = false)) ∧
  (∃ (s : State) (dies : List DieAnswer) (good : Nat → Prop),
    (∀ d, good d ↔ d < 4 ∧ ∃ a, dies[d]? = some a ∧ a.responds = true ∧ a.dieType = 0 ∧ a.pos.toNat = d ∧ a.capSent = true ∧ commonTable a ≠ 0 ∧ (∀ b, b < 10 → bitOf a.caps.toNat b = true) ∧ a.modulesTrained = 0xFFFF) ∧ (powered s = true) ∧ (hubRuns s = true) ∧ (s.pcie.phase = 2) ∧ (s.errors.ringUp = false) ∧ (darnOf s 9 = []) ∧ (∀ d, d < 4 → (tget s.dies d).heldOut = false)) ∧
  (∃ (s : State),
    (∃ d, d < 4 ∧ (tget s.dies d).tableVersion ≠ 0 ∧ (tget s.dies d).heldOut = false) ∧ (powered s = true) ∧ (hubRuns s = true) ∧ (s.pcie.phase = 2) ∧ (s.errors.ringUp = true) ∧ (s.thermal.hold = true) ∧ (holdOver s = true)) :=
 ⟨
  ⟨{ State.reset with pins := { pwrok := true, straps := { bootSrc := 1, refclkMode := false, i3cAddr := 0 } } }, by decide +kernel⟩,
  ⟨{ State.reset with pins := { pwrok := true }, flash := { image0 := img } }, by first | rfl | exact of_decide_eq_true rfl, by first | rfl | exact of_decide_eq_true rfl, by first | rfl | exact of_decide_eq_true rfl, by first | rfl | exact of_decide_eq_true rfl, by first | rfl | exact of_decide_eq_true rfl, by first | rfl | exact of_decide_eq_true rfl, by first | rfl | exact of_decide_eq_true rfl, by first | rfl | exact of_decide_eq_true rfl, by first | rfl | exact of_decide_eq_true rfl, by first | rfl | exact of_decide_eq_true rfl, by first | rfl | exact of_decide_eq_true rfl, hi⟩,
  ⟨{ State.reset with pins := { pwrok := true }, flash := { image1 := img } }, by first | rfl | exact of_decide_eq_true rfl, by first | rfl | exact of_decide_eq_true rfl, by first | rfl | exact of_decide_eq_true rfl, by first | rfl | exact of_decide_eq_true rfl, by first | rfl | exact of_decide_eq_true rfl, by first | rfl | exact of_decide_eq_true rfl, by first | rfl | exact of_decide_eq_true rfl, by first | rfl | exact of_decide_eq_true rfl, by first | rfl | exact of_decide_eq_true rfl, by first | rfl | exact of_decide_eq_true rfl, by first | rfl | exact of_decide_eq_true rfl, by first | rfl | exact of_decide_eq_true rfl, hi⟩,
  ⟨{ State.reset with pins := { pwrok := true } }, by decide +kernel⟩,
  ⟨{ State.reset with pins := { pwrok := true }, pcie := { phase := 1, rescueOnly := true, busMaster := true } }, img, by first | rfl | exact of_decide_eq_true rfl, by first | rfl | exact of_decide_eq_true rfl, by first | rfl | exact of_decide_eq_true rfl, by first | rfl | exact of_decide_eq_true rfl, by first | rfl | exact of_decide_eq_true rfl, by first | rfl | exact of_decide_eq_true rfl, hi⟩,
  ⟨{ State.reset with pins := { pwrok := true }, pcie := { phase := 1, rescueOnly := true, busMaster := true } }, [], by decide +kernel⟩,
  ⟨{ State.reset with pins := { pwrok := true }, pcie := { phase := 1, rescueOnly := true } }, by decide +kernel⟩,
  ⟨{ State.reset with pins := { pwrok := true }, pcie := { phase := 2 } }, [{ responds := true, dieType := 0, pos := 0, stepMajor := 11, stepMinor := 1, capSent := true, caps := 0x3FF, revision := 0x0B01, tableVersion := 3, modulesTrained := 0xFFFF }], _, fun _ => Iff.rfl, by decide +kernel⟩,
  ⟨{ State.reset with pins := { pwrok := true }, pcie := { phase := 2 }, errors := { ringUp := true }, thermal := { hold := true }, dies := [(3, { tableVersion := 1 })], sensors := (List.range 530).map (fun n => (n, { reading := some 300 })) }, ⟨3, by decide, by decide +kernel, by decide +kernel⟩, by decide +kernel⟩⟩

set_option maxRecDepth 100000 in
theorem test_witness_BringUpMemoriesAndLicence (lic : Bytes) (hl : licStatus State.reset lic = 0) (hc : (licOf lic).chiplet = true)
    (hw : (licOf lic).weftLinks = 0xFFFF) :
  (∃ (s : State),
    (powered s = true) ∧ (hubRuns s = true) ∧ (s.pcie.phase = 3)) ∧
  (∃ (s : State),
    (powered s = true) ∧ (hubRuns s = true) ∧ (s.pcie.phase = 4)) ∧
  (∃ (s : State),
    (powered s = true) ∧ (hubRuns s = true) ∧ (s.pcie.phase = 5)) ∧
  (∃ (s : State) (l : Licence),
    (powered s = true) ∧ (hubRuns s = true) ∧ (s.pcie.phase = 6) ∧ (s.pcie.warm = false) ∧ (s.flash.licPending = none) ∧ (s.flash.licActive ≠ []) ∧ (licStatus s s.flash.licActive = 0) ∧ (l = licOf s.flash.licActive) ∧ (s.weft.discrepancies = []) ∧ (s.flash.pending = none) ∧ (∀ n, n < 16 → bitOf l.weftLinks.toNat n = true ∨ (getLink s n).disabled = true) ∧ (l.chiplet = true) ∧ (s.flash.manager = true → l.manager = true)) ∧
  (∃ (s : State),
    (powered s = true) ∧ (hubRuns s = true) ∧ (s.pcie.phase = 6) ∧ (s.pcie.warm = false) ∧ (s.flash.licPending = none) ∧ (s.flash.licActive = [])) ∧
  (∃ (s : State) (pos : _) (layer : _),
    (reweaveOpen s = true) ∧ (pos < 4) ∧ (layer < 8) ∧ (s.boot.reweave = none) ∧ (layerTroubled s pos layer = true) ∧ ((getChan s (chanOf (2048 * pos) layer)).chOut = false)) ∧
  (∃ (s : State) (pos : _) (layer : _) (n : _),
    (reweaveOpen s = true) ∧ (s.boot.reweave = some (pos, layer, n)) ∧ (n < 16777216)) ∧
  (∃ (s : State) (pos : _) (layer : _) (n : _) (m : _),
    (reweaveOpen s = true) ∧ (s.boot.reweave = some (pos, layer, n)) ∧ (m < 1024) ∧ ((getSlot s m).phase = .placed) ∧ (∃ x ∈ (getSlot s m).tiles, x.kind ≠ 3 ∧ dieOfCore x.core = pos ∧ x.layer = layer) ∧ (∀ b ∈ s.batches, b.slot ≠ m) ∧ (weaveInReset s (getSlot s m).weave = false) ∧ (((eligibleBlocks s (getSlot s m) 0).filter (fun b => b / 32 != pos)).length < (getSlot s m).weave.length)) ∧
  (∃ (s : State) (pos : _) (layer : _) (n : _) (fn : _) (new : _) (f : Frame),
    RangeVerifies s (frameAddr fn) 16384 ∧ (reweaveOpen s = true) ∧ (s.boot.reweave = some (pos, layer, n)) ∧ (frameOf s fn = f) ∧ (f.allocated = true) ∧ (f.kind ≠ 1) ∧ (f.gpins = 0) ∧ (fn < 33554432) ∧ (fn / 4096 / 2048 = pos) ∧ (fn / 512 % 8 = layer) ∧ ((getRegion s (regionOfCore (fn / 4096))).inReset = false) ∧ ((freeNear s (fn / 4096)).head? = some new) ∧ (accessWaits s (frameAddr fn) 16384 = false) ∧ (accessWaits s (frameAddr new) 16384 = false)) ∧
  (∃ (s : State) (pos : _) (layer : _) (n : _),
    (reweaveOpen s = true) ∧ (s.boot.reweave = some (pos, layer, n)) ∧ (pos < 4) ∧ (layer < 8) ∧ (layerEmptied s pos layer = true)) :=
 ⟨
  ⟨{ State.reset with pins := { pwrok := true }, pcie := { phase := 3 } }, by decide +kernel⟩,
  ⟨{ State.reset with pins := { pwrok := true }, pcie := { phase := 4 } }, by decide +kernel⟩,
  ⟨{ State.reset with pins := { pwrok := true }, pcie := { phase := 5 } }, by decide +kernel⟩,
  ⟨{ State.reset with pins := { pwrok := true }, pcie := { phase := 6 }, flash := { licActive := lic } }, _, by first | rfl | exact of_decide_eq_true rfl, by first | rfl | exact of_decide_eq_true rfl, by first | rfl | exact of_decide_eq_true rfl, by first | rfl | exact of_decide_eq_true rfl, by first | rfl | exact of_decide_eq_true rfl, by
      intro h
      have h0 : licStatus State.reset [] = 0 := h ▸ hl
      exact absurd h0 (by decide +kernel), hl, rfl, by first | rfl | exact of_decide_eq_true rfl, by first | rfl | exact of_decide_eq_true rfl, fun n hn => .inl (by rw [hw]; revert n; decide), hc, fun h => absurd (show false = true from h) (by decide)⟩,
  ⟨{ State.reset with pins := { pwrok := true }, pcie := { phase := 6 } }, by decide +kernel⟩,
  ⟨{ live with chans := (List.range 8).map (fun i => (49159 + 8 * i, { bankOutAt := [(0, 0)] })) }, 3, 7, by decide +kernel⟩,
  ⟨{ live with boot := { live.boot with reweave := some (3, 7, 5) } }, 3, 7, 5, by decide +kernel⟩,
  ⟨{ serving with boot := { live.boot with reweave := some (3, 7, 5) }, seqs := [], slots := [(1023, { placedModel with weave := List.range 97, tiles := [{ kind := 0, core := 8128, layer := 7 }] })] }, 3, 7, 5, 1023, by decide +kernel⟩,
  ⟨{ serving with boot := { live.boot with reweave := some (3, 0, 5) } }, 3, 0, 5, 33292293, 33292800, { allocated := true, refcount := 1, owner := 4095, modelSlot := 1023 }, zero_range rfl (by decide +kernel), by decide +kernel⟩,
  ⟨{ live with boot := { live.boot with reweave := some (3, 7, 5) } }, 3, 7, 5, by decide +kernel⟩⟩

set_option maxRecDepth 100000 in
theorem test_witness_TrafficGenerators :
  (∃ (s : State) (ch : Nat) (g : TrafficGen),
    (g = (getChan s ch).tg) ∧ (g.running = true)) ∧
  (∃ (s : State) (ch : Nat) (v : Word) (g : TrafficGen),
    (g = (getChan s ch).tg) ∧ (g.running = false) ∧ (bitOf v.toNat 5 = true ∨ (bitsOf v.toNat 4 2 < 6 ∧ tgAllowed s ch (tgFields g v.toNat) = true))) ∧
  (∃ (s : State) (ch : Nat) (v : Word) (g : TrafficGen),
    (g = (getChan s ch).tg) ∧ (g.running = false) ∧ (bitOf v.toNat 5 = false) ∧ (6 ≤ bitsOf v.toNat 4 2 ∨ tgAllowed s ch (tgFields g v.toNat) = false)) ∧
  (∃ (s : State) (ch : Nat) (g : TrafficGen),
    (g = (getChan s ch).tg)) ∧
  (∃ (s : State) (ch : Nat) (r : TgResult) (g : TrafficGen),
    (g = (getChan s ch).tg) ∧ (g.running = true) ∧ (g.packet = none) ∧ (g.cur.readOnly = false) ∧ ((getChan s ch).queue = []) ∧ (∀ b ∈ r.banks, bitOf g.cur.bankMask b = false)) ∧
  (∃ (s : State) (ch : Nat) (r : TgResult) (g : TrafficGen) (b : _),
    (g = (getChan s ch).tg) ∧ (g.running = true) ∧ (g.cur.readOnly = false) ∧ ((getChan s ch).queue = []) ∧ (r.banks = [b]) ∧ (bitOf g.cur.bankMask b = true)) ∧
  (∃ (s : State) (ch : Nat) (p : Nat) (k : Packet) (r : TgResult) (g : TrafficGen),
    (g = (getChan s ch).tg) ∧ (g.running = true) ∧ (g.cur.readOnly = false) ∧ (g.packet = some p) ∧ (getPacket s p = some k) ∧ (k.answer = none) ∧ ((getChan s ch).queue = []) ∧ (r.banks = []) ∧ (0 < r.errors)) ∧
  (∃ (s : State) (ch : Nat) (p : Nat) (k : Packet) (g : TrafficGen) (l : List Nat),
    (∀ b ∈ l, Verifies s b) ∧ (g = (getChan s ch).tg) ∧ (g.running = true) ∧ (g.cur.readOnly = true) ∧ (nearHeld s ch = false) ∧ ((layerOf s ch).inReset = false) ∧ (ch < 65536) ∧ (g.cur.last < 512) ∧ (l = (nearBlocks ch g.cur.bankMask g.cur.first g.cur.last).filter (fun b => !bankMappedOut s (b / 2048))) ∧ (g.packet = some p) ∧ (getPacket s p = some k) ∧ (k.answer = none)) ∧
  (∃ (s : State) (ch : Nat) (g : TrafficGen) (l : List Nat) (b : _),
    (∀ x ∈ l, x ≠ b → Verifies s x) ∧ (g = (getChan s ch).tg) ∧ (g.running = true) ∧ (g.cur.readOnly = true) ∧ (nearHeld s ch = false) ∧ ((layerOf s ch).inReset = false) ∧ (ch < 65536) ∧ (g.cur.last < 512) ∧ (l = (nearBlocks ch g.cur.bankMask g.cur.first g.cur.last).filter (fun b => !bankMappedOut s (b / 2048))) ∧ b ∈ l ∧ (checkTag b (blockBytes s b) (tagOf s.mem b) = none)) ∧
  (∃ (s : State) (pc : Nat) (v : Word) (g : TrafficGen),
    (g = (getPc s pc).tg) ∧ (g.running = false) ∧ (bitOf v.toNat 5 = true ∨ (bitsOf v.toNat 4 2 < 6 ∧ farTgAllowed s pc = true))) ∧
  (∃ (s : State) (pc : Nat) (v : Word) (g : TrafficGen),
    (g = (getPc s pc).tg) ∧ (g.running = false) ∧ (bitOf v.toNat 5 = false) ∧ (6 ≤ bitsOf v.toNat 4 2 ∨ farTgAllowed s pc = false)) ∧
  (∃ (s : State) (pc : Nat) (g : TrafficGen),
    (g = (getPc s pc).tg)) ∧
  (∃ (s : State) (pc : Nat) (r : TgResult) (g : TrafficGen),
    (g = (getPc s pc).tg) ∧ (g.running = true) ∧ (g.packet = none) ∧ (g.cur.readOnly = false) ∧ ((getPc s pc).queue = []) ∧ (r.errors = 0)) ∧
  (∃ (s : State) (pc : Nat) (r : TgResult) (g : TrafficGen),
    (g = (getPc s pc).tg) ∧ (g.running = true) ∧ (g.cur.readOnly = false) ∧ ((getPc s pc).queue = []) ∧ (0 < r.errors) ∧ ((getPc s pc).out = false)) ∧
  (∃ (s : State) (pc : Nat) (g : TrafficGen),
    (∀ b ∈ farBlocks s pc g.cur.first g.cur.last, Verifies s b) ∧ (g = (getPc s pc).tg) ∧ (g.running = true) ∧ (g.packet = none) ∧ (g.cur.readOnly = true) ∧ (pcHeld s pc = false)) ∧
  (∃ (s : State) (p : Nat) (k : Packet) (u : _),
    (u = argAt k 0x14 4) ∧ MayBegin s p 0x0B01 k ∧ (tgRefusal s k ≠ 0)) ∧
  (∃ (s : State) (p : Nat) (k : Packet) (u : _),
    (u = argAt k 0x14 4) ∧ MayBegin s p 0x0B01 k ∧ (tgRefusal s k = 0) ∧ (bitOf (argAt k 0x10 1) 0 = false) ∧ (bitOf (argAt k 0x18 1) 3 = true ∨ (argAt k 0x18 1 % 8 < 6 ∧ tgAllowed s u (tgOf (getChan s u).tg k true) = true))) ∧
  (∃ (s : State) (p : Nat) (k : Packet) (u : _),
    MayBegin s p 0x0B01 k ∧ (u = argAt k 0x14 4) ∧ (tgRefusal s k = 0) ∧ (bitOf (argAt k 0x10 1) 0 = false) ∧ (bitOf (argAt k 0x18 1) 3 = false) ∧ (6 ≤ argAt k 0x18 1 % 8 ∨ tgAllowed s u (tgOf (getChan s u).tg k true) = false)) ∧
  (∃ (s : State) (p : Nat) (k : Packet) (u : _),
    (u = argAt k 0x14 4) ∧ MayBegin s p 0x0B01 k ∧ (tgRefusal s k = 0) ∧ (bitOf (argAt k 0x10 1) 0 = true) ∧ (bitOf (argAt k 0x18 1) 3 = true)) ∧
  (∃ (s : State) (p : Nat) (k : Packet) (l : List Bytes),
    MayBegin s p 0x0A03 k ∧ (l = logRange s (argAt k 0x10 4) (argAt k 0x14 4)) ∧ ((bufB k).host = true) ∧ (s.pcie.d3hot = false) ∧ (s.pcie.busMaster = true) ∧ ((bufB k).len < 32 * argAt k 0x14 4)) ∧
  (∃ (s : State) (p : Nat) (k : Packet) (l : List Bytes),
    MayBegin s p 0x0A03 k ∧ (l = logRange s (argAt k 0x10 4) (argAt k 0x14 4)) ∧ ((bufB k).host = true) ∧ (s.pcie.d3hot = false) ∧ (s.pcie.busMaster = true) ∧ (32 * argAt k 0x14 4 ≤ (bufB k).len)) :=
 ⟨
  ⟨{ live with chans := [(65535, { tg := { running := true } })] }, 65535, { running := true }, by decide +kernel⟩,
  ⟨{ live with chans := [(65535, { tg := { } })] }, 65535, 0xFFFF14, { }, by decide +kernel⟩,
  ⟨{ live with chans := [(65535, { tg := { } })] }, 65535, 0x18, { }, by decide +kernel⟩,
  ⟨{ live with chans := [(65535, { tg := { running := true } })] }, 65535, { running := true }, by decide +kernel⟩,
  ⟨{ live with chans := [(65535, { tg := { running := true, cur := { bankMask := 0x8000, first := 3, last := 511 } } })] }, 65535, { errors := 3, firstAddr := 5, firstInfo := 6, banks := [] }, { running := true, cur := { bankMask := 0x8000, first := 3, last := 511 } }, by decide +kernel⟩,
  ⟨{ live with chans := [(65535, { tg := { running := true, cur := { bankMask := 0x8000, first := 3, last := 511 } } })] }, 65535, { errors := 3, firstAddr := 5, firstInfo := 6, banks := [15] }, { running := true, cur := { bankMask := 0x8000, first := 3, last := 511 } }, 15, by decide +kernel⟩,
  ⟨{ live with chans := [(65535, { tg := { running := true, packet := some 1, cur := { bankMask := 0x8000, first := 3, last := 511 } } })], packets := [{ pkt 0x0B01 0 [] with started := true }] }, 65535, 1, { pkt 0x0B01 0 [] with started := true }, { errors := 3, firstAddr := 5, firstInfo := 6, banks := [] }, { running := true, packet := some 1, cur := { bankMask := 0x8000, first := 3, last := 511 } }, by decide +kernel⟩,
  ⟨{ live with chans := [(65535, { tg := { running := true, packet := some 1, cur := { readOnly := true, bankMask := 0x8000, first := 511, last := 511 } } })], packets := [{ pkt 0x0B01 0 [] with started := true }] }, 65535, 1, { pkt 0x0B01 0 [] with started := true }, { running := true, packet := some 1, cur := { readOnly := true, bankMask := 0x8000, first := 511, last := 511 } }, ((nearBlocks 65535 0x8000 511 511).filter (fun b => !bankMappedOut { live with chans := [(65535, { tg := { running := true, packet := some 1, cur := { readOnly := true, bankMask := 0x8000, first := 511, last := 511 } } })], packets := [{ pkt 0x0B01 0 [] with started := true }] } (b / 2048))), all_verify (by decide +kernel), by decide +kernel⟩,
  ⟨{ live with chans := [(65535, { tg := { running := true, cur := { readOnly := true, bankMask := 0x8000, first := 511, last := 511 } } })], mem := setTag {} 0x7FFFFFFF { stored := 3, restarted := false } }, 65535, { running := true, cur := { readOnly := true, bankMask := 0x8000, first := 511, last := 511 } }, ((nearBlocks 65535 0x8000 511 511).filter (fun b => !bankMappedOut { live with chans := [(65535, { tg := { running := true, cur := { readOnly := true, bankMask := 0x8000, first := 511, last := 511 } } })], mem := setTag {} 0x7FFFFFFF { stored := 3, restarted := false } } (b / 2048))), 0x7FFFFFFF, others_verify (by decide +kernel), by decide +kernel⟩,
  ⟨{ live with pcs := [(511, { tg := { } })] }, 511, 0x14, { }, by decide +kernel⟩,
  ⟨{ live with pcs := [(511, { tg := { } })] }, 511, 0x18, { }, by decide +kernel⟩,
  ⟨{ live with pcs := [(511, { tg := { running := true } })] }, 511, { running := true }, by decide +kernel⟩,
  ⟨{ live with pcs := [(511, { tg := { running := true, cur := { bankMask := 0x8000, first := 3, last := 511 } } })] }, 511, { errors := 0, firstAddr := 5, firstInfo := 6, banks := [] }, { running := true, cur := { bankMask := 0x8000, first := 3, last := 511 } }, by decide +kernel⟩,
  ⟨{ live with pcs := [(511, { tg := { running := true, cur := { bankMask := 0x8000, first := 3, last := 511 } } })] }, 511, { errors := 3, firstAddr := 5, firstInfo := 6, banks := [] }, { running := true, cur := { bankMask := 0x8000, first := 3, last := 511 } }, by decide +kernel⟩,
  ⟨{ live with pcs := [(511, { tg := { running := true, cur := { readOnly := true, first := 16383, last := 16383 } } })] }, 511, { running := true, cur := { readOnly := true, first := 16383, last := 16383 } }, zero_all rfl (by decide +kernel), by decide +kernel⟩,
  ⟨(inFlight live [pkt 0x0B01 0 [(0x14, 4, 70000)]]), 1, (pkt 0x0B01 0 [(0x14, 4, 70000)]), 70000, by decide +kernel, mayBegin_of (by decide +kernel), by decide +kernel⟩,
  ⟨(inFlight live [pkt 0x0B01 0 [(0x10, 1, 0), (0x14, 4, 65535), (0x18, 1, 5), (0x1A, 2, 0x8000), (0x1C, 4, 77), (0x20, 2, 3), (0x22, 2, 511)]]), 1, (pkt 0x0B01 0 [(0x10, 1, 0), (0x14, 4, 65535), (0x18, 1, 5), (0x1A, 2, 0x8000), (0x1C, 4, 77), (0x20, 2, 3), (0x22, 2, 511)]), 65535, by decide +kernel, mayBegin_of (by decide +kernel), by decide +kernel⟩,
  ⟨(inFlight live [pkt 0x0B01 0 [(0x10, 1, 0), (0x14, 4, 65535), (0x18, 1, 6), (0x1A, 2, 0x8000), (0x1C, 4, 77), (0x20, 2, 3), (0x22, 2, 511)]]), 1, (pkt 0x0B01 0 [(0x10, 1, 0), (0x14, 4, 65535), (0x18, 1, 6), (0x1A, 2, 0x8000), (0x1C, 4, 77), (0x20, 2, 3), (0x22, 2, 511)]), 65535, mayBegin_of (by decide +kernel), by decide +kernel⟩,
  ⟨(inFlight live [pkt 0x0B01 0 [(0x10, 1, 1), (0x14, 4, 511), (0x18, 1, 8), (0x1A, 2, 0x8000), (0x1C, 4, 0), (0x20, 2, 3), (0x22, 2, 511)]]), 1, (pkt 0x0B01 0 [(0x10, 1, 1), (0x14, 4, 511), (0x18, 1, 8), (0x1A, 2, 0x8000), (0x1C, 4, 0), (0x20, 2, 3), (0x22, 2, 511)]), 511, by decide +kernel, mayBegin_of (by decide +kernel), by decide +kernel⟩,
  ⟨{ inFlight live [pkt 0x0A03 0 [(0x10, 4, 2), (0x14, 4, 5), (0x20, 8, 0x1000), (0x28, 4, 64), (0x2C, 1, 1)]] with errors := { logNext := 9, log := [(3, List.replicate 32 1), (8, List.replicate 32 2)] } }, 1, (pkt 0x0A03 0 [(0x10, 4, 2), (0x14, 4, 5), (0x20, 8, 0x1000), (0x28, 4, 64), (0x2C, 1, 1)]), (logRange { inFlight live [pkt 0x0A03 0 [(0x10, 4, 2), (0x14, 4, 5), (0x20, 8, 0x1000), (0x28, 4, 64), (0x2C, 1, 1)]] with errors := { logNext := 9, log := [(3, List.replicate 32 1), (8, List.replicate 32 2)] } } (argAt (pkt 0x0A03 0 [(0x10, 4, 2), (0x14, 4, 5), (0x20, 8, 0x1000), (0x28, 4, 64), (0x2C, 1, 1)]) 0x10 4) (argAt (pkt 0x0A03 0 [(0x10, 4, 2), (0x14, 4, 5), (0x20, 8, 0x1000), (0x28, 4, 64), (0x2C, 1, 1)]) 0x14 4)), mayBegin_of (by decide +kernel), by decide +kernel⟩,
  ⟨{ inFlight live [pkt 0x0A03 0 [(0x10, 4, 2), (0x14, 4, 8), (0x20, 8, 0x1000), (0x28, 4, 4096), (0x2C, 1, 1)]] with errors := { logNext := 9, log := [(3, List.replicate 32 1), (8, List.replicate 32 2)] } }, 1, (pkt 0x0A03 0 [(0x10, 4, 2), (0x14, 4, 8), (0x20, 8, 0x1000), (0x28, 4, 4096), (0x2C, 1, 1)]), (logRange { inFlight live [pkt 0x0A03 0 [(0x10, 4, 2), (0x14, 4, 8), (0x20, 8, 0x1000), (0x28, 4, 4096), (0x2C, 1, 1)]] with errors := { logNext := 9, log := [(3, List.replicate 32 1), (8, List.replicate 32 2)] } } (argAt (pkt 0x0A03 0 [(0x10, 4, 2), (0x14, 4, 8), (0x20, 8, 0x1000), (0x28, 4, 4096), (0x2C, 1, 1)]) 0x10 4) (argAt (pkt 0x0A03 0 [(0x10, 4, 2), (0x14, 4, 8), (0x20, 8, 0x1000), (0x28, 4, 4096), (0x2C, 1, 1)]) 0x14 4)), mayBegin_of (by decide +kernel), by decide +kernel⟩⟩

/-- Mailbox 1 serves a request. -/
def rescues (op : Nat) (args : List (Nat × Nat × Nat)) : State :=
  { live with mailboxes := [(1, { request := wirePacket op args, busy := true })], rescueOrder := [1] }

set_option maxRecDepth 100000 in
theorem test_witness_RescueMailboxes :
  (∃ (s : State) (m : Nat),
    (m < 2) ∧ (rescueServed s = true) ∧ ((getMailbox s m).busy = true)) ∧
  (∃ (s : State) (m : Nat),
    (m < 2) ∧ (rescueServed s = true) ∧ ((getMailbox s m).busy = false) ∧ (s.rescueOrder = []) ∧ (rescueRefusal s m = 0)) ∧
  (∃ (s : State) (m : Nat),
    (m < 2) ∧ (rescueServed s = true) ∧ ((getMailbox s m).busy = false) ∧ (s.rescueOrder = []) ∧ (rescueRefusal s m ≠ 0)) ∧
  (∃ (s : State) (m : Nat),
    (m < 2) ∧ (rescueServed s = true) ∧ RescueServes s m 0xF001) ∧
  (∃ (s : State) (m : Nat) (k : Packet),
    RescueServes s m 0xF002 ∧ (m < 2) ∧ (rescueServed s = true) ∧ (k = rescuePacket s m) ∧ (0 < argAt k 0x14 4) ∧ (argAt k 0x14 4 ≤ 120)) ∧
  (∃ (s : State) (m : Nat) (k : Packet),
    (m < 2) ∧ (rescueServed s = true) ∧ (k = rescuePacket s m) ∧ RescueServes s m 0xF002 ∧ (argAt k 0x14 4 = 0 ∨ 120 < argAt k 0x14 4)) ∧
  (∃ (s : State) (m : Nat) (k : Packet),
    RescueServes s m 0xF003 ∧ (m < 2) ∧ (rescueServed s = true) ∧ (k = rescuePacket s m) ∧ (argAt k 0x10 4 < 256) ∧ ((telemRecord s (argAt k 0x10 4)).length ≤ 3840)) ∧
  (∃ (s : State) (m : Nat) (k : Packet),
    RescueServes s m 0xF004 ∧ (m < 2) ∧ (rescueServed s = true) ∧ (k = rescuePacket s m) ∧ (∀ o ∈ s.resets, o.mailbox ≠ some m) ∧ (16 ≤ argAt k 0x10 4)) ∧
  (∃ (s : State) (m : Nat) (k : Packet),
    RescueServes s m 0xF004 ∧ (m < 2) ∧ (rescueServed s = true) ∧ (k = rescuePacket s m) ∧ (∀ o ∈ s.resets, o.mailbox ≠ some m) ∧ (argAt k 0x10 4 < 16) ∧ (regionRefusal s (argAt k 0x10 4) = 0)) ∧
  (∃ (s : State) (m : Nat) (k : Packet),
    (m < 2) ∧ (rescueServed s = true) ∧ (k = rescuePacket s m) ∧ RescueServes s m 0xF005) ∧
  (∃ (s : State) (m : Nat) (k : Packet),
    (m < 2) ∧ (rescueServed s = true) ∧ (k = rescuePacket s m) ∧ RescueServes s m 0xF006 ∧ (16 ≤ argAt k 0x10 4)) ∧
  (∃ (s : State) (m : Nat) (k : Packet),
    (m < 2) ∧ (rescueServed s = true) ∧ (k = rescuePacket s m) ∧ RescueServes s m 0xF006 ∧ (argAt k 0x10 4 < 16)) ∧
  (∃ (s : State) (m : Nat) (k : Packet),
    RescueServes s m 0xF007 ∧ (m < 2) ∧ (rescueServed s = true) ∧ (k = rescuePacket s m) ∧ (s.thermal.stop = 0) ∧ (s.thermal.clockOrdered = false) ∧ (bitOf (argAt k 0x10 1) 0 = false)) ∧
  (∃ (s : State) (m : Nat) (k : Packet),
    RescueServes s m 0xF007 ∧ (m < 2) ∧ (rescueServed s = true) ∧ (k = rescuePacket s m) ∧ (s.thermal.stop = 0) ∧ (s.thermal.clockOrdered = false) ∧ (bitOf (argAt k 0x10 1) 0 = true)) ∧
  (∃ (s : State) (m : Nat) (op : Nat),
    (m < 2) ∧ (rescueServed s = true) ∧ RescueServes s m op) :=
 ⟨
  ⟨(rescues 0xF001 []), 1, by decide +kernel⟩,
  ⟨{ rescues 0xF001 [] with mailboxes := [(1, { request := wirePacket 0xF001 [] })], rescueOrder := [] }, 1, by decide +kernel⟩,
  ⟨{ rescues 0xF001 [] with mailboxes := [(1, { request := 9 :: (wirePacket 0xF001 []).tail })], rescueOrder := [] }, 1, by decide +kernel⟩,
  ⟨(rescues 0xF001 []), 1, by decide +kernel, by decide +kernel, ⟨⟨[], by decide +kernel, by decide +kernel⟩, by decide +kernel, by decide +kernel⟩⟩,
  ⟨(rescues 0xF002 [(0x10, 4, 2), (0x14, 4, 120)]), 1, (rescuePacket (rescues 0xF002 [(0x10, 4, 2), (0x14, 4, 120)]) 1), ⟨⟨[], by decide +kernel, by decide +kernel⟩, by decide +kernel, by decide +kernel⟩, by decide +kernel⟩,
  ⟨(rescues 0xF002 [(0x14, 4, 121)]), 1, (rescuePacket (rescues 0xF002 [(0x14, 4, 121)]) 1), by decide +kernel, by decide +kernel, by decide +kernel, ⟨⟨[], by decide +kernel, by decide +kernel⟩, by decide +kernel, by decide +kernel⟩, by decide +kernel⟩,
  ⟨(rescues 0xF003 [(0x10, 4, 1)]), 1, (rescuePacket (rescues 0xF003 [(0x10, 4, 1)]) 1), ⟨⟨[], by decide +kernel, by decide +kernel⟩, by decide +kernel, by decide +kernel⟩, by decide +kernel⟩,
  ⟨(rescues 0xF004 [(0x10, 4, 16)]), 1, (rescuePacket (rescues 0xF004 [(0x10, 4, 16)]) 1), ⟨⟨[], by decide +kernel, by decide +kernel⟩, by decide +kernel, by decide +kernel⟩, by decide +kernel⟩,
  ⟨(rescues 0xF004 [(0x10, 4, 15)]), 1, (rescuePacket (rescues 0xF004 [(0x10, 4, 15)]) 1), ⟨⟨[], by decide +kernel, by decide +kernel⟩, by decide +kernel, by decide +kernel⟩, by decide +kernel⟩,
  ⟨(rescues 0xF005 []), 1, (rescuePacket (rescues 0xF005 []) 1), by decide +kernel, by decide +kernel, by decide +kernel, ⟨⟨[], by decide +kernel, by decide +kernel⟩, by decide +kernel, by decide +kernel⟩⟩,
  ⟨(rescues 0xF006 [(0x10, 4, 16)]), 1, (rescuePacket (rescues 0xF006 [(0x10, 4, 16)]) 1), by decide +kernel, by decide +kernel, by decide +kernel, ⟨⟨[], by decide +kernel, by decide +kernel⟩, by decide +kernel, by decide +kernel⟩, by decide +kernel⟩,
  ⟨(rescues 0xF006 [(0x10, 4, 15)]), 1, (rescuePacket (rescues 0xF006 [(0x10, 4, 15)]) 1), by decide +kernel, by decide +kernel, by decide +kernel, ⟨⟨[], by decide +kernel, by decide +kernel⟩, by decide +kernel, by decide +kernel⟩, by decide +kernel⟩,
  ⟨(rescues 0xF007 []), 1, (rescuePacket (rescues 0xF007 []) 1), ⟨⟨[], by decide +kernel, by decide +kernel⟩, by decide +kernel, by decide +kernel⟩, by decide +kernel⟩,
  ⟨(rescues 0xF007 [(0x10, 1, 1)]), 1, (rescuePacket (rescues 0xF007 [(0x10, 1, 1)]) 1), ⟨⟨[], by decide +kernel, by decide +kernel⟩, by decide +kernel, by decide +kernel⟩, by decide +kernel⟩,
  ⟨(rescues 0xF002 []), 1, 0xF002, by decide +kernel, by decide +kernel, ⟨⟨[], by decide +kernel, by decide +kernel⟩, by decide +kernel, by decide +kernel⟩⟩⟩

set_option maxRecDepth 100000 in
theorem test_witness_I3cTarget :
  (∃ (s : State) (b : Bytes),
    (s.pins.pwrok = true) ∧ (s.pins.refclkLost = false) ∧ (s.i3c.dynamic ≠ none) ∧ (rescueServed s = true) ∧ (2 < b.length) ∧ (0x40 ≤ fieldAt b 0 2) ∧ (fieldAt b 0 2 + (b.length - 2) ≤ 0x80) ∧ ((getMailbox s 1).busy = false)) ∧
  (∃ (s : State) (b : Bytes),
    (s.pins.pwrok = true) ∧ (s.pins.refclkLost = false) ∧ (s.i3c.dynamic ≠ none) ∧ (rescueServed s = true) ∧ (b.length = 2)) ∧
  (∃ (s : State) (n : Nat),
    (s.pins.pwrok = true) ∧ (s.pins.refclkLost = false) ∧ (s.i3c.dynamic ≠ none) ∧ (rescueServed s = true) ∧ (s.i3c.offset + n ≤ 0x1000)) ∧
  (∃ (s : State),
    (s.pins.pwrok = true) ∧ (s.pins.refclkLost = false) ∧ (s.i3c.dynamic = none)) ∧
  (∃ (s : State) (st : BitVec 7),
    (s.pins.pwrok = true) ∧ (s.pins.refclkLost = false) ∧ (s.i3c.dynamic = none) ∧ (st.toNat = 0x2C + s.pins.straps.i3cAddr.toNat)) ∧
  (∃ (s : State) (st : BitVec 7),
    (s.pins.pwrok = true) ∧ (s.pins.refclkLost = false) ∧ (s.i3c.dynamic = none) ∧ (st.toNat ≠ 0x2C + s.pins.straps.i3cAddr.toNat)) ∧
  (∃ (s : State),
    (s.pins.pwrok = true) ∧ (s.pins.refclkLost = false)) ∧
  (∃ (s : State),
    (s.pins.pwrok = true) ∧ (s.pins.refclkLost = false)) ∧
  (∃ (s : State),
    (s.pins.pwrok = true) ∧ (s.pins.refclkLost = false) ∧ (s.i3c.dynamic ≠ none)) :=
 ⟨
  ⟨{ live with i3c := { dynamic := some 0x11 } }, (toBytes 2 0x7F ++ [9]), by decide +kernel⟩,
  ⟨{ live with i3c := { dynamic := some 0x11 } }, (toBytes 2 0x7F), by decide +kernel⟩,
  ⟨{ live with i3c := { dynamic := some 0x11 } }, 0x1000, by decide +kernel⟩,
  ⟨live, by decide +kernel⟩,
  ⟨live, 0x2C, by decide +kernel⟩,
  ⟨live, 0x30, by decide +kernel⟩,
  ⟨{ live with i3c := { dynamic := some 0x11 } }, by decide +kernel⟩,
  ⟨{ live with i3c := { dynamic := some 0x11 } }, by decide +kernel⟩,
  ⟨{ live with i3c := { dynamic := some 0x11 } }, by decide +kernel⟩⟩

set_option maxRecDepth 100000 in
theorem test_witness_WeftLinkLayer :
  (∃ (s : State) (l : Nat) (k : WeftLink) (b : Bytes) (h : Nat) (vc : Nat),
    (k = getLink s l) ∧ (h = fieldAt b 0 6) ∧ (vc = bitsOf h 5 4) ∧ GoodFlit s l 1 b ∧ (bitsOf h 17 6 = k.expected)) ∧
  (∃ (s : State) (l : Nat) (k : WeftLink) (b : Bytes) (h : Nat) (vc : Nat),
    (k = getLink s l) ∧ (h = fieldAt b 0 6) ∧ (vc = bitsOf h 5 4) ∧ (linkRuns s l = true) ∧ (b.length = 256) ∧ (crc32 (b.take 248) ≠ fieldAt b 248 4 ∨ (bitsOf h 3 0 = 1 ∧ bitsOf h 17 6 ≠ k.expected))) ∧
  (∃ (s : State) (l : Nat) (k : WeftLink) (b : Bytes) (h : Nat) (vc : Nat) (cw : Bytes) (pre : List (Nat × Bytes)) (f : Bytes) (post : List (Nat × Bytes)),
    GoodFlit s l 0 b ∧ (k = getLink s l) ∧ (h = fieldAt b 0 6) ∧ (vc = bitsOf h 5 4) ∧ (cw = b.drop 252) ∧ (k.queued = []) ∧ (crc8 (cw.take 3) = fieldAt cw 3 1) ∧ (bitOf (leNat (cw.take 3)) 12 = true) ∧ (bitOf (leNat (cw.take 3)) 13 = false) ∧ (k.replay = pre ++ (bitsOf (leNat (cw.take 3)) 11 0, f) :: post) ∧ (∀ e ∈ pre, e.1 ≠ bitsOf (leNat (cw.take 3)) 11 0) ∧ (k.credits.length = 4)) ∧
  (∃ (s : State) (l : Nat) (k : WeftLink) (ws : List (List (BitVec 10))),
    (k = getLink s l) ∧ (linkRuns s l = true) ∧ (ws.length = 4) ∧ (∀ w ∈ ws, w.length = 272) ∧ (∃ w ∈ ws, rsDecode (w.map (·.toNat)) = none)) ∧
  (∃ (s : State) (l : Nat) (k : WeftLink) (ws : List (List (BitVec 10))) (ns : List Nat),
    (k = getLink s l) ∧ (linkRuns s l = true) ∧ (ws.length = 4) ∧ (∀ w ∈ ws, w.length = 272) ∧ ((ws.map (fun w => (rsDecode (w.map (·.toNat))).map (·.2))) = ns.map some)) ∧
  (∃ (s : State) (l : Nat) (k : WeftLink),
    (k = getLink s l) ∧ (linkRuns s l = true) ∧ (k.got = true)) ∧
  (∃ (s : State) (l : Nat) (k : WeftLink),
    (k = getLink s l) ∧ (linkRuns s l = true) ∧ (k.got = false)) ∧
  (∃ (s : State) (l : Nat) (k : WeftLink),
    (k = getLink s l) ∧ (linkRuns s l = true) ∧ (k.replay = [])) ∧
  (∃ (s : State) (l : Nat) (k : WeftLink),
    (k = getLink s l) ∧ (linkRuns s l = true) ∧ (k.replay ≠ [])) ∧
  (∃ (s : State) (l : Nat) (k : WeftLink) (vc : Nat),
    (k = getLink s l) ∧ (linkRuns s l = true) ∧ ((∃ m ∈ k.rxMsgs, m.vc = vc) ∨ tget k.rxPart vc ≠ [])) ∧
  (∃ (s : State) (l : Nat) (k : WeftLink) (vc : Nat),
    (k = getLink s l) ∧ (linkRuns s l = true) ∧ (∀ m ∈ k.rxMsgs, m.vc ≠ vc) ∧ (tget k.rxPart vc = [])) :=
 ⟨
  ⟨(mesh { meshLink with expected := 5 }), 15, { meshLink with expected := 5 }, (wireFlit 262497 [0, 0, 0, 0]), 262497, 2, by decide +kernel, by decide +kernel, by decide +kernel, ⟨by decide +kernel, by decide +kernel, by decide +kernel, by decide +kernel⟩, by decide +kernel⟩,
  ⟨(mesh { meshLink with expected := 6 }), 15, { meshLink with expected := 6 }, (wireFlit 262497 [0, 0, 0, 0]), 262497, 2, by decide +kernel⟩,
  ⟨(mesh { meshLink with replay := [(4, [1]), (5, [2]), (6, [3])] }), 15, { meshLink with replay := [(4, [1]), (5, [2]), (6, [3])] }, (wireFlit 40894464 (let c := toBytes 3 (5 + 4096); c ++ toBytes 1 (crc8 c))), 40894464, 0, (let c := toBytes 3 (5 + 4096); c ++ toBytes 1 (crc8 c)), [(4, [1])], [2], [(6, [3])], ⟨by decide +kernel, by decide +kernel, by decide +kernel, by decide +kernel⟩, by decide +kernel⟩,
  ⟨(mesh meshLink), 15, meshLink, ((List.range 272).map (fun i => BitVec.ofNat 10 (if i % 20 = 3 then i + 1 else 0)) :: List.replicate 3 (List.replicate 272 (0 : BitVec 10))), by decide +kernel⟩,
  ⟨(mesh meshLink), 15, meshLink, (List.replicate 4 (List.replicate 272 (0 : BitVec 10))), [0, 0, 0, 0], by decide +kernel⟩,
  ⟨(mesh { meshLink with got := true }), 15, { meshLink with got := true }, by decide +kernel⟩,
  ⟨(mesh meshLink), 15, meshLink, by decide +kernel⟩,
  ⟨(mesh meshLink), 15, meshLink, by decide +kernel⟩,
  ⟨(mesh { meshLink with replay := [(4, List.replicate 256 1)] }), 15, { meshLink with replay := [(4, List.replicate 256 1)] }, by decide +kernel⟩,
  ⟨(mesh { meshLink with rxMsgs := [meshMsg 1 0] }), 15, { meshLink with rxMsgs := [meshMsg 1 0] }, 0, by decide +kernel⟩,
  ⟨(mesh { meshLink with rxMsgs := [meshMsg 1 0] }), 15, { meshLink with rxMsgs := [meshMsg 1 0] }, 2, by decide +kernel⟩⟩

set_option maxRecDepth 100000 in
theorem test_witness_WeftTraining :
  (∃ (s : State) (l : Nat) (k : WeftLink) (lanes : BitVec 8) (w : BitVec 2) (m : BitVec 8),
    (k = getLink s l) ∧ (linkRuns s l = true) ∧ (narrowerWidth k.width lanes = some (w, m)) ∧ ((k.retrainAt.filter (fun x => decide (since (counterOf s (l / 4)) x < countsPerSecond))).length < 2)) ∧
  (∃ (s : State) (l : Nat) (k : WeftLink),
    (k = getLink s l) ∧ (linkRuns s l = true) ∧ (k.width = 3) ∧ (k.retrainAt = [])) ∧
  (∃ (s : State) (l : Nat) (k : WeftLink) (lanes : BitVec 8),
    (k = getLink s l) ∧ (linkRuns s l = true) ∧ (narrowerWidth k.width lanes = none ∨ 2 ≤ (k.retrainAt.filter (fun x => decide (since (counterOf s (l / 4)) x < countsPerSecond))).length)) ∧
  (∃ (s : State) (l : Nat) (k : WeftLink),
    (k = getLink s l) ∧ (linkRuns s l = true)) ∧
  (∃ (s : State) (l : Nat) (k : WeftLink) (i : WeftIdentity) (tb : Bytes),
    (k = getLink s l) ∧ (linkRuns s l = true) ∧ (s.weft.table = some tb) ∧ (s.pcie.ready = true) ∧ (judge (modLink s l (fun x => { x with remote := some i })) tb l = 0)) ∧
  (∃ (s : State) (l : Nat) (k : WeftLink) (i : WeftIdentity) (tb : Bytes),
    (k = getLink s l) ∧ (linkRuns s l = true) ∧ (s.weft.table = some tb) ∧ (s.pcie.ready = true) ∧ (judge (modLink s l (fun x => { x with remote := some i })) tb l ≠ 0)) ∧
  (∃ (s : State) (l : Nat) (k : WeftLink) (tr : WeftTraining) (w : BitVec 2) (m : BitVec 8),
    (k = getLink s l) ∧ (mayTrain s l = true) ∧ (s.weft.table = none) ∧ (k.state ≠ 2) ∧ (widthFor tr.lanes = some (w, m))) ∧
  (∃ (s : State) (l : Nat) (k : WeftLink) (tr : WeftTraining),
    (k = getLink s l) ∧ (mayTrain s l = true) ∧ (s.weft.table = none) ∧ (k.state ≠ 2) ∧ (widthFor tr.lanes = none)) :=
 ⟨
  ⟨(mesh { meshLink with retrainAt := [3] }), 15, { meshLink with retrainAt := [3] }, 0xF3, 2, 0xF0, by decide +kernel⟩,
  ⟨(mesh meshLink), 15, meshLink, by decide +kernel⟩,
  ⟨(mesh { meshLink with retrainAt := [0, 0] }), 15, { meshLink with retrainAt := [0, 0] }, 0xF3, by decide +kernel⟩,
  ⟨(mesh meshLink), 15, meshLink, by decide +kernel⟩,
  ⟨(mesh meshLink), 15, meshLink, { device := 9, unnumbered := false, link := 2, manager := false, generation := 1 }, meshTable, by decide +kernel⟩,
  ⟨(mesh meshLink), 15, meshLink, { device := 8, unnumbered := false, link := 2, manager := false, generation := 1 }, meshTable, by decide +kernel⟩,
  ⟨live, 15, { }, { lanes := 0x0F, identity := { device := 9, unnumbered := false, link := 2, manager := false, generation := 1 } }, 2, 0x0F, by decide +kernel⟩,
  ⟨live, 15, { }, { lanes := 0x12, identity := { device := 9, unnumbered := false, link := 2, manager := false, generation := 1 } }, by decide +kernel⟩⟩

set_option maxRecDepth 100000 in
theorem test_witness_WeftMessages :
  (∃ (s : State) (u : State) (l : Nat) (m : Msg) (src : Source),
    Arrives s l 1 m u ∧ (bitOf m.spec.toNat 17 = false) ∧ (bitOf m.spec.toNat 48 = false) ∧ (m.linkLocal = false) ∧ (s.weft.ownManager = some m.src) ∧ (bitOf m.spec.toNat 16 = false) ∧ (src = .manager m.src (bitsOf m.spec.toNat 15 0) false) ∧ (packetStatus src m.body = 0) ∧ (deviceStatus s (fieldAt m.body 0 2) = 0) ∧ (∀ k ∈ s.packets, k.id ≠ s.nextPacket)) ∧
  (∃ (s : State) (u : State) (l : Nat) (m : Msg) (ahead : Nat),
    Arrives s l 1 m u ∧ (bitOf m.spec.toNat 17 = false) ∧ (bitOf m.spec.toNat 48 = false) ∧ (m.linkLocal = false) ∧ (s.weft.ownManager = some m.src) ∧ (bitOf m.spec.toNat 16 = true) ∧ (ahead = (bitsOf m.spec.toNat 15 0 + 65536 - s.weft.expectNum) % 65536) ∧ (ahead = 0) ∧ (s.weft.early = [])) ∧
  (∃ (s : State) (u : State) (l : Nat) (m : Msg) (ahead : Nat),
    Arrives s l 1 m u ∧ (bitOf m.spec.toNat 17 = false) ∧ (bitOf m.spec.toNat 48 = false) ∧ (m.linkLocal = false) ∧ (s.weft.ownManager = some m.src) ∧ (bitOf m.spec.toNat 16 = true) ∧ (ahead = (bitsOf m.spec.toNat 15 0 + 65536 - s.weft.expectNum) % 65536) ∧ (0 < ahead) ∧ (ahead ≤ 255) ∧ (∀ e ∈ s.weft.early, e.1 ≠ bitsOf m.spec.toNat 15 0)) ∧
  (∃ (s : State) (u : State) (l : Nat) (m : Msg) (ahead : Nat),
    Arrives s l 1 m u ∧ (bitOf m.spec.toNat 17 = false) ∧ (bitOf m.spec.toNat 48 = false) ∧ (m.linkLocal = false) ∧ (s.weft.ownManager = some m.src) ∧ (bitOf m.spec.toNat 16 = true) ∧ (ahead = (bitsOf m.spec.toNat 15 0 + 65536 - s.weft.expectNum) % 65536) ∧ (255 < ahead)) ∧
  (∃ (s : State) (u : State) (l : Nat) (m : Msg),
    Arrives s l 1 m u ∧ (bitOf m.spec.toNat 17 = false) ∧ (m.linkLocal = false) ∧ (s.weft.ownManager ≠ some m.src) ∧ (s.weft.table ≠ none) ∧ (fieldAt m.body 0 2 / 256 ≠ 5) ∧ (packetStatus (.manager m.src (bitsOf m.spec.toNat 15 0) false) m.body ≠ 0x0030)) ∧
  (∃ (s : State) (u : State) (l : Nat) (m : Msg) (o : RemoteOp) (p : Nat) (k : Packet),
    Arrives s l 2 m u ∧ (bitOf m.spec.toNat 16 = false) ∧ (bitOf m.spec.toNat 17 = false) ∧ (s.weft.remoteOps = [o]) ∧ (o.sent = true) ∧ (o.num = bitsOf m.spec.toNat 15 0) ∧ (o.device = m.src) ∧ (o.issuer = .command p) ∧ (getPacket s p = some k) ∧ (k.answer = none)) ∧
  (∃ (s : State) (u : State) (l : Nat) (m : Msg) (a : Nat) (n : Nat) (tok : Nat) (w : Nat → Msg) (x : Nat) (y : Msg),
    Arrives s l 3 m u ∧ (w = (fun st => { dest := m.src, src := (ownDevice s).getD 0, kind := 4, vc := 1, spec := BitVec.ofNat 128 (tok + st * 65536) : Msg })) ∧ (a = bitsOf m.spec.toNat 39 0) ∧ (n = bitsOf m.spec.toNat 43 40 + 1) ∧ (tok = bitsOf m.spec.toNat 79 64) ∧ (a % 256 = 0) ∧ (n ≤ 15) ∧ (256 * n ≤ m.body.length) ∧ (0xE008000000 ≤ a) ∧ (a + 256 * n ≤ 0xE018000000) ∧ (routeOf u (w 0) = .link x y)) ∧
  (∃ (s : State) (u : State) (l : Nat) (m : Msg) (a : Nat) (n : Nat) (tok : Nat) (w : Nat → Msg) (x : Nat) (y : Msg),
    Arrives s l 3 m u ∧ (w = (fun st => { dest := m.src, src := (ownDevice s).getD 0, kind := 4, vc := 1, spec := BitVec.ofNat 128 (tok + st * 65536) : Msg })) ∧ (a = bitsOf m.spec.toNat 39 0) ∧ (n = bitsOf m.spec.toNat 43 40 + 1) ∧ (tok = bitsOf m.spec.toNat 79 64) ∧ (a % 256 ≠ 0 ∨ n = 16 ∨ m.body.length < 256 * n ∨ a < 0xE008000000 ∨ 0xE018000000 < a + 256 * n) ∧ (routeOf u (w 0x0021) = .link x y)) ∧
  (∃ (s : State) (u : State) (l : Nat) (m : Msg) (w : WriteOut) (p : Nat),
    Arrives s l 4 m u ∧ (s.weft.writes = [w]) ∧ (w.token = bitsOf m.spec.toNat 15 0) ∧ (w.device = m.src) ∧ (w.issuer = .command p) ∧ (s.weft.remoteOps = [])) ∧
  (∃ (s : State) (u : State) (l : Nat) (m : Msg) (code : Nat),
    Arrives s l 5 m u ∧ (code = bitsOf m.spec.toNat 7 0) ∧ (s.weft.manager = true) ∧ (code = 1 ∨ code = 2) ∧ (trackedCount s < 4096)) ∧
  (∃ (s : State) (u : State) (l : Nat) (m : Msg) (code : Nat),
    Arrives s l 5 m u ∧ (code = bitsOf m.spec.toNat 7 0) ∧ (s.weft.manager = false ∨ code = 0 ∨ 8 < code)) ∧
  (∃ (s : State) (u : State) (l : Nat) (m : Msg) (ack : Nat),
    Arrives s l 6 m u ∧ (ack = bitsOf m.spec.toNat 15 0) ∧ (s.weft.ownManager = some m.src)) ∧
  (∃ (s : State) (u : State) (l : Nat) (m : Msg) (ack : Nat),
    Arrives s l 6 m u ∧ (ack = bitsOf m.spec.toNat 15 0) ∧ (s.weft.ownManager ≠ some m.src)) ∧
  (∃ (s : State) (u : State) (l : Nat) (m : Msg) (x : Nat) (y : Msg) (z : Msg),
    (l < 16) ∧ (inputRuns s l = true) ∧ (takeMsg s l (fun z => !forHere s l z) = some (m, u)) ∧ (routeOf u m ≠ .here) ∧ (m.hops < 31) ∧ (routeOf u m = .link x z) ∧ (routeOf u { m with hops := m.hops + 1 } = .link x y) ∧ (transitOpen u (l / 4) (x / 4) = true)) ∧
  (∃ (s : State) (u : State) (l : Nat) (m : Msg) (x : Nat) (y : Msg) (z : Msg),
    (l < 16) ∧ (inputRuns s l = true) ∧ (takeMsg s l (fun z => !forHere s l z) = some (m, u)) ∧ (routeOf u m ≠ .here) ∧ (m.hops < 31) ∧ (routeOf u m = .link x z) ∧ (routeOf u { m with hops := m.hops + 1 } = .link x y) ∧ (transitOpen u (l / 4) (x / 4) = false)) ∧
  (∃ (s : State) (u : State) (l : Nat) (m : Msg),
    (l < 16) ∧ (inputRuns s l = true) ∧ (takeMsg s l (fun z => !forHere s l z) = some (m, u)) ∧ (routeOf u m ≠ .here) ∧ (31 ≤ m.hops) ∧ (m.kind = 5)) :=
 ⟨
  ⟨(gets (meshMsg 1 5 (wirePacket 0x0804 []))), (taken (gets (meshMsg 1 5 (wirePacket 0x0804 []))) 1), 15, (meshMsg 1 5 (wirePacket 0x0804 [])), (.manager 9 5 false), ⟨by decide +kernel, by decide +kernel, by decide +kernel⟩, by decide +kernel⟩,
  ⟨({ gets (meshMsg 1 (65536 + 5) (wirePacket 0x0804 [])) with weft := { (gets (meshMsg 1 (65536 + 5) (wirePacket 0x0804 []))).weft with expectNum := 5 } }), (taken ({ gets (meshMsg 1 (65536 + 5) (wirePacket 0x0804 [])) with weft := { (gets (meshMsg 1 (65536 + 5) (wirePacket 0x0804 []))).weft with expectNum := 5 } }) 1), 15, (meshMsg 1 (65536 + 5) (wirePacket 0x0804 [])), 0, ⟨by decide +kernel, by decide +kernel, by decide +kernel⟩, by decide +kernel⟩,
  ⟨({ gets (meshMsg 1 (65536 + 5) (wirePacket 0x0804 [])) with weft := { (gets (meshMsg 1 (65536 + 5) (wirePacket 0x0804 []))).weft with expectNum := 65286 } }), (taken ({ gets (meshMsg 1 (65536 + 5) (wirePacket 0x0804 [])) with weft := { (gets (meshMsg 1 (65536 + 5) (wirePacket 0x0804 []))).weft with expectNum := 65286 } }) 1), 15, (meshMsg 1 (65536 + 5) (wirePacket 0x0804 [])), 255, ⟨by decide +kernel, by decide +kernel, by decide +kernel⟩, by decide +kernel⟩,
  ⟨({ gets (meshMsg 1 (65536 + 5) (wirePacket 0x0804 [])) with weft := { (gets (meshMsg 1 (65536 + 5) (wirePacket 0x0804 []))).weft with expectNum := 65285 } }), (taken ({ gets (meshMsg 1 (65536 + 5) (wirePacket 0x0804 [])) with weft := { (gets (meshMsg 1 (65536 + 5) (wirePacket 0x0804 []))).weft with expectNum := 65285 } }) 1), 15, (meshMsg 1 (65536 + 5) (wirePacket 0x0804 [])), 256, ⟨by decide +kernel, by decide +kernel, by decide +kernel⟩, by decide +kernel⟩,
  ⟨({ gets (meshMsg 1 5 (wirePacket 0x0804 [])) with weft := { (gets (meshMsg 1 5 (wirePacket 0x0804 []))).weft with ownManager := some 8 } }), (taken ({ gets (meshMsg 1 5 (wirePacket 0x0804 [])) with weft := { (gets (meshMsg 1 5 (wirePacket 0x0804 []))).weft with ownManager := some 8 } }) 1), 15, (meshMsg 1 5 (wirePacket 0x0804 [])), ⟨by decide +kernel, by decide +kernel, by decide +kernel⟩, by decide +kernel⟩,
  ⟨({ gets (meshMsg 2 5 (toBytes 4 1 ++ toBytes 2 0x0031 ++ List.replicate 26 7)) with weft := { (gets (meshMsg 2 5 (toBytes 4 1 ++ toBytes 2 0x0031 ++ List.replicate 26 7))).weft with remoteOps := [{ num := 5, issuer := .command 1, device := 9, knot := 8192, op := .set 3, sent := true }] }, packets := [{ pkt 0x0501 8192 [] with started := true }] }), (taken ({ gets (meshMsg 2 5 (toBytes 4 1 ++ toBytes 2 0x0031 ++ List.replicate 26 7)) with weft := { (gets (meshMsg 2 5 (toBytes 4 1 ++ toBytes 2 0x0031 ++ List.replicate 26 7))).weft with remoteOps := [{ num := 5, issuer := .command 1, device := 9, knot := 8192, op := .set 3, sent := true }] }, packets := [{ pkt 0x0501 8192 [] with started := true }] }) 2), 15, (meshMsg 2 5 (toBytes 4 1 ++ toBytes 2 0x0031 ++ List.replicate 26 7)), { num := 5, issuer := .command 1, device := 9, knot := 8192, op := .set 3, sent := true }, 1, { pkt 0x0501 8192 [] with started := true }, ⟨by decide +kernel, by decide +kernel, by decide +kernel⟩, by decide +kernel⟩,
  ⟨(gets (meshMsg 3 (0xE008000100 + 2^44 + 77 * 2^64) (List.replicate 256 3))), (taken (gets (meshMsg 3 (0xE008000100 + 2^44 + 77 * 2^64) (List.replicate 256 3))) 3), 15, (meshMsg 3 (0xE008000100 + 2^44 + 77 * 2^64) (List.replicate 256 3)), 0xE008000100, 1, 77, _, ((linkOf (routeOf (taken (gets (meshMsg 3 (0xE008000100 + 2^44 + 77 * 2^64) (List.replicate 256 3))) 3) (wackMsg 0))).1), ((linkOf (routeOf (taken (gets (meshMsg 3 (0xE008000100 + 2^44 + 77 * 2^64) (List.replicate 256 3))) 3) (wackMsg 0))).2), ⟨by decide +kernel, by decide +kernel, by decide +kernel⟩, rfl, by decide +kernel⟩,
  ⟨(gets (meshMsg 3 (0xE008000100 + 2^40 + 77 * 2^64) (List.replicate 256 3))), (taken (gets (meshMsg 3 (0xE008000100 + 2^40 + 77 * 2^64) (List.replicate 256 3))) 3), 15, (meshMsg 3 (0xE008000100 + 2^40 + 77 * 2^64) (List.replicate 256 3)), 0xE008000100, 2, 77, _, ((linkOf (routeOf (taken (gets (meshMsg 3 (0xE008000100 + 2^40 + 77 * 2^64) (List.replicate 256 3))) 3) (wackMsg 0x0021))).1), ((linkOf (routeOf (taken (gets (meshMsg 3 (0xE008000100 + 2^40 + 77 * 2^64) (List.replicate 256 3))) 3) (wackMsg 0x0021))).2), ⟨by decide +kernel, by decide +kernel, by decide +kernel⟩, rfl, by decide +kernel⟩,
  ⟨({ gets (meshMsg 4 77 []) with weft := { (gets (meshMsg 4 77 [])).weft with writes := [{ token := 77, issuer := .command 1, device := 9 }] } }), (taken ({ gets (meshMsg 4 77 []) with weft := { (gets (meshMsg 4 77 [])).weft with writes := [{ token := 77, issuer := .command 1, device := 9 }] } }) 4), 15, (meshMsg 4 77 []), { token := 77, issuer := .command 1, device := 9 }, 1, ⟨by decide +kernel, by decide +kernel, by decide +kernel⟩, by decide +kernel⟩,
  ⟨({ gets (meshMsg 5 1 []) with weft := { (gets (meshMsg 5 1 [])).weft with manager := true } }), (taken ({ gets (meshMsg 5 1 []) with weft := { (gets (meshMsg 5 1 [])).weft with manager := true } }) 5), 15, (meshMsg 5 1 []), 1, ⟨by decide +kernel, by decide +kernel, by decide +kernel⟩, by decide +kernel⟩,
  ⟨({ gets (meshMsg 5 9 []) with weft := { (gets (meshMsg 5 9 [])).weft with manager := true } }), (taken ({ gets (meshMsg 5 9 []) with weft := { (gets (meshMsg 5 9 [])).weft with manager := true } }) 5), 15, (meshMsg 5 9 []), 9, ⟨by decide +kernel, by decide +kernel, by decide +kernel⟩, by decide +kernel⟩,
  ⟨({ gets (meshMsg 6 5 []) with weft := { (gets (meshMsg 6 5 [])).weft with kept := [(4, {}, 0), (5, {}, 0), (6, {}, 0)] } }), (taken ({ gets (meshMsg 6 5 []) with weft := { (gets (meshMsg 6 5 [])).weft with kept := [(4, {}, 0), (5, {}, 0), (6, {}, 0)] } }) 6), 15, (meshMsg 6 5 []), 5, ⟨by decide +kernel, by decide +kernel, by decide +kernel⟩, by decide +kernel⟩,
  ⟨({ gets (meshMsg 6 5 []) with weft := { (gets (meshMsg 6 5 [])).weft with ownManager := some 8 } }), (taken ({ gets (meshMsg 6 5 []) with weft := { (gets (meshMsg 6 5 [])).weft with ownManager := some 8 } }) 6), 15, (meshMsg 6 5 []), 5, ⟨by decide +kernel, by decide +kernel, by decide +kernel⟩, by decide +kernel⟩,
  ⟨{ live with weft := { table := some meshTable, ownManager := some 9, links := [(3, { meshLink with rxMsgs := [{ meshMsg 5 1 with dest := 9, src := 3, hops := 30 }] }), (15, meshLink)] } }, (((takeMsg { live with weft := { table := some meshTable, ownManager := some 9, links := [(3, { meshLink with rxMsgs := [{ meshMsg 5 1 with dest := 9, src := 3, hops := 30 }] }), (15, meshLink)] } } 3 (fun z => !forHere { live with weft := { table := some meshTable, ownManager := some 9, links := [(3, { meshLink with rxMsgs := [{ meshMsg 5 1 with dest := 9, src := 3, hops := 30 }] }), (15, meshLink)] } } 3 z)).getD ({}, { live with weft := { table := some meshTable, ownManager := some 9, links := [(3, { meshLink with rxMsgs := [{ meshMsg 5 1 with dest := 9, src := 3, hops := 30 }] }), (15, meshLink)] } })).2), 3, { meshMsg 5 1 with dest := 9, src := 3, hops := 30 }, ((linkOf (routeOf ((takeMsg { live with weft := { table := some meshTable, ownManager := some 9, links := [(3, { meshLink with rxMsgs := [{ meshMsg 5 1 with dest := 9, src := 3, hops := 30 }] }), (15, meshLink)] } } 3 (fun z => !forHere { live with weft := { table := some meshTable, ownManager := some 9, links := [(3, { meshLink with rxMsgs := [{ meshMsg 5 1 with dest := 9, src := 3, hops := 30 }] }), (15, meshLink)] } } 3 z)).getD ({}, { live with weft := { table := some meshTable, ownManager := some 9, links := [(3, { meshLink with rxMsgs := [{ meshMsg 5 1 with dest := 9, src := 3, hops := 30 }] }), (15, meshLink)] } })).2 { meshMsg 5 1 with dest := 9, src := 3, hops := 31 })).1), ((linkOf (routeOf ((takeMsg { live with weft := { table := some meshTable, ownManager := some 9, links := [(3, { meshLink with rxMsgs := [{ meshMsg 5 1 with dest := 9, src := 3, hops := 30 }] }), (15, meshLink)] } } 3 (fun z => !forHere { live with weft := { table := some meshTable, ownManager := some 9, links := [(3, { meshLink with rxMsgs := [{ meshMsg 5 1 with dest := 9, src := 3, hops := 30 }] }), (15, meshLink)] } } 3 z)).getD ({}, { live with weft := { table := some meshTable, ownManager := some 9, links := [(3, { meshLink with rxMsgs := [{ meshMsg 5 1 with dest := 9, src := 3, hops := 30 }] }), (15, meshLink)] } })).2 { meshMsg 5 1 with dest := 9, src := 3, hops := 31 })).2), ((linkOf (routeOf ((takeMsg { live with weft := { table := some meshTable, ownManager := some 9, links := [(3, { meshLink with rxMsgs := [{ meshMsg 5 1 with dest := 9, src := 3, hops := 30 }] }), (15, meshLink)] } } 3 (fun z => !forHere { live with weft := { table := some meshTable, ownManager := some 9, links := [(3, { meshLink with rxMsgs := [{ meshMsg 5 1 with dest := 9, src := 3, hops := 30 }] }), (15, meshLink)] } } 3 z)).getD ({}, { live with weft := { table := some meshTable, ownManager := some 9, links := [(3, { meshLink with rxMsgs := [{ meshMsg 5 1 with dest := 9, src := 3, hops := 30 }] }), (15, meshLink)] } })).2 { meshMsg 5 1 with dest := 9, src := 3, hops := 30 })).2), by decide +kernel⟩,
  ⟨{ live with weft := { table := some meshTable, ownManager := some 9, links := [(3, { meshLink with rxMsgs := [{ meshMsg 5 1 with dest := 9, src := 3, hops := 30 }] }), (15, meshLink)] }, ports := [(0, { state := 2, modules := 16 })] }, (((takeMsg { live with weft := { table := some meshTable, ownManager := some 9, links := [(3, { meshLink with rxMsgs := [{ meshMsg 5 1 with dest := 9, src := 3, hops := 30 }] }), (15, meshLink)] }, ports := [(0, { state := 2, modules := 16 })] } 3 (fun z => !forHere { live with weft := { table := some meshTable, ownManager := some 9, links := [(3, { meshLink with rxMsgs := [{ meshMsg 5 1 with dest := 9, src := 3, hops := 30 }] }), (15, meshLink)] }, ports := [(0, { state := 2, modules := 16 })] } 3 z)).getD ({}, { live with weft := { table := some meshTable, ownManager := some 9, links := [(3, { meshLink with rxMsgs := [{ meshMsg 5 1 with dest := 9, src := 3, hops := 30 }] }), (15, meshLink)] }, ports := [(0, { state := 2, modules := 16 })] })).2), 3, { meshMsg 5 1 with dest := 9, src := 3, hops := 30 }, ((linkOf (routeOf ((takeMsg { live with weft := { table := some meshTable, ownManager := some 9, links := [(3, { meshLink with rxMsgs := [{ meshMsg 5 1 with dest := 9, src := 3, hops := 30 }] }), (15, meshLink)] }, ports := [(0, { state := 2, modules := 16 })] } 3 (fun z => !forHere { live with weft := { table := some meshTable, ownManager := some 9, links := [(3, { meshLink with rxMsgs := [{ meshMsg 5 1 with dest := 9, src := 3, hops := 30 }] }), (15, meshLink)] }, ports := [(0, { state := 2, modules := 16 })] } 3 z)).getD ({}, { live with weft := { table := some meshTable, ownManager := some 9, links := [(3, { meshLink with rxMsgs := [{ meshMsg 5 1 with dest := 9, src := 3, hops := 30 }] }), (15, meshLink)] }, ports := [(0, { state := 2, modules := 16 })] })).2 { meshMsg 5 1 with dest := 9, src := 3, hops := 31 })).1), ((linkOf (routeOf ((takeMsg { live with weft := { table := some meshTable, ownManager := some 9, links := [(3, { meshLink with rxMsgs := [{ meshMsg 5 1 with dest := 9, src := 3, hops := 30 }] }), (15, meshLink)] }, ports := [(0, { state := 2, modules := 16 })] } 3 (fun z => !forHere { live with weft := { table := some meshTable, ownManager := some 9, links := [(3, { meshLink with rxMsgs := [{ meshMsg 5 1 with dest := 9, src := 3, hops := 30 }] }), (15, meshLink)] }, ports := [(0, { state := 2, modules := 16 })] } 3 z)).getD ({}, { live with weft := { table := some meshTable, ownManager := some 9, links := [(3, { meshLink with rxMsgs := [{ meshMsg 5 1 with dest := 9, src := 3, hops := 30 }] }), (15, meshLink)] }, ports := [(0, { state := 2, modules := 16 })] })).2 { meshMsg 5 1 with dest := 9, src := 3, hops := 31 })).2), ((linkOf (routeOf ((takeMsg { live with weft := { table := some meshTable, ownManager := some 9, links := [(3, { meshLink with rxMsgs := [{ meshMsg 5 1 with dest := 9, src := 3, hops := 30 }] }), (15, meshLink)] }, ports := [(0, { state := 2, modules := 16 })] } 3 (fun z => !forHere { live with weft := { table := some meshTable, ownManager := some 9, links := [(3, { meshLink with rxMsgs := [{ meshMsg 5 1 with dest := 9, src := 3, hops := 30 }] }), (15, meshLink)] }, ports := [(0, { state := 2, modules := 16 })] } 3 z)).getD ({}, { live with weft := { table := some meshTable, ownManager := some 9, links := [(3, { meshLink with rxMsgs := [{ meshMsg 5 1 with dest := 9, src := 3, hops := 30 }] }), (15, meshLink)] }, ports := [(0, { state := 2, modules := 16 })] })).2 { meshMsg 5 1 with dest := 9, src := 3, hops := 30 })).2), by decide +kernel⟩,
  ⟨(gets { meshMsg 5 1 with dest := 9, src := 3, hops := 31 }), (((takeMsg (gets { meshMsg 5 1 with dest := 9, src := 3, hops := 31 }) 15 (fun z => !forHere (gets { meshMsg 5 1 with dest := 9, src := 3, hops := 31 }) 15 z)).getD ({}, (gets { meshMsg 5 1 with dest := 9, src := 3, hops := 31 }))).2), 15, { meshMsg 5 1 with dest := 9, src := 3, hops := 31 }, by decide +kernel⟩⟩

set_option maxRecDepth 100000 in
theorem test_witness_WeftTimers :
  (∃ (s : State) (w : WriteOut) (p : Nat),
    (hubRuns s = true) ∧ (s.weft.writes = [w]) ∧ (w.issuer = .command p) ∧ (s.weft.remoteOps = [])) ∧
  (∃ (s : State) (o : RemoteOp) (p : Nat) (k : Packet),
    (∀ n, o.op ≠ .wait n) ∧ (hubRuns s = true) ∧ (s.weft.remoteOps = [o]) ∧ (o.sent = true) ∧ (o.issuer = .command p) ∧ (getPacket s p = some k) ∧ (k.answer = none)) ∧
  (∃ (s : State) (o : RemoteOp) (n : Nat),
    (hubRuns s = true) ∧ (s.weft.remoteOps = [o]) ∧ (o.op = .wait n)) ∧
  (∃ (s : State) (w : BcastWait) (c : Nat) (d : Nat),
    (hubRuns s = true) ∧ (s.weft.bcasts = [w]) ∧ (w.children = [c, d]) ∧ (c ≠ d)) ∧
  (∃ (s : State) (g : Nat),
    (hubRuns s = true) ∧ (s.weft.ownManager = some g) ∧ (s.weft.early = [])) ∧
  (∃ (s : State) (g : Nat),
    (hubRuns s = true) ∧ (s.weft.ownManager = some g) ∧ (s.weft.early ≠ []) ∧ (∀ e ∈ s.weft.early, e.1 ≠ (s.weft.expectNum + 1) % 65536)) ∧
  (∃ (s : State) (g : Nat),
    (hubRuns s = true) ∧ (s.weft.ownManager = some g) ∧ (s.pcie.ready = true)) ∧
  (∃ (s : State),
    (hubRuns s = true) ∧ (s.pcie.ready = false ∨ s.weft.ownManager = none)) ∧
  (∃ (s : State) (n : Nat) (m : Msg) (c : Nat),
    (hubRuns s = true) ∧ (s.weft.kept = [(n, m, c)]) ∧ (c < 8)) ∧
  (∃ (s : State) (n : Nat) (m : Msg) (c : Nat),
    (hubRuns s = true) ∧ (s.weft.kept = [(n, m, c)]) ∧ (8 ≤ c)) ∧
  (∃ (s : State) (d : Nat),
    (hubRuns s = true) ∧ (s.weft.manager = true) ∧ ((workerOf s d).tracked = true) ∧ ((workerOf s d).live = true)) :=
 ⟨
  ⟨{ live with weft := { writes := [{ token := 77, issuer := .command 1, device := 9 }] } }, { token := 77, issuer := .command 1, device := 9 }, 1, by decide +kernel⟩,
  ⟨{ live with weft := { remoteOps := [{ num := 5, issuer := .command 1, device := 9, knot := 8192, op := .set 3, sent := true }] }, packets := [{ pkt 0x0501 8192 [] with started := true }] }, { num := 5, issuer := .command 1, device := 9, knot := 8192, op := .set 3, sent := true }, 1, { pkt 0x0501 8192 [] with started := true }, fun n h => KnotOp.noConfusion h, by decide +kernel⟩,
  ⟨{ live with weft := { remoteOps := [{ num := 5, issuer := .command 1, device := 9, knot := 8192, op := .wait 3, sent := true }] } }, { num := 5, issuer := .command 1, device := 9, knot := 8192, op := .wait 3, sent := true }, 3, by decide +kernel⟩,
  ⟨{ live with weft := { bcasts := [{ index := 6, origin := none, children := [3, 4], selfDone := true }] } }, { index := 6, origin := none, children := [3, 4], selfDone := true }, 3, 4, by decide +kernel⟩,
  ⟨{ live with weft := { ownManager := some 9 } }, 9, by decide +kernel⟩,
  ⟨{ live with weft := { ownManager := some 9, expectNum := 65535, early := [(7, {})] } }, 9, by decide +kernel⟩,
  ⟨{ live with weft := { ownManager := some 9 } }, 9, by decide +kernel⟩,
  ⟨{ live with weft := { manager := true } }, by decide +kernel⟩,
  ⟨{ live with weft := { kept := [(5, {}, 7)] } }, 5, {}, 7, by decide +kernel⟩,
  ⟨{ live with weft := { kept := [(5, {}, 8)] } }, 5, {}, 8, by decide +kernel⟩,
  ⟨{ live with weft := { manager := true, workers := [{ device := 4, tracked := true, live := true }] } }, 4, by decide +kernel⟩⟩

set_option maxRecDepth 100000 in
theorem test_witness_EweumLinkLayer :
  (∃ (s : State) (port : Nat) (m : Nat) (atHub : Bool) (e : Nat) (k : EwModule) (b : Bytes) (h : Nat),
    GoodEwFlit s port m e 1 b ∧ (e = b2n atHub) ∧ (k = ewEnd s port m e) ∧ (h = fieldAt b 0 4) ∧ (ewRuns s port m e = true) ∧ (bitsOf h 14 6 = k.expected)) ∧
  (∃ (s : State) (port : Nat) (m : Nat) (atHub : Bool) (e : Nat) (k : EwModule) (b : Bytes) (h : Nat),
    GoodEwFlit s port m e 1 b ∧ (e = b2n atHub) ∧ (k = ewEnd s port m e) ∧ (h = fieldAt b 0 4) ∧ (ewRuns s port m e = true) ∧ (bitsOf h 14 6 ≠ k.expected)) ∧
  (∃ (s : State) (port : Nat) (m : Nat) (atHub : Bool) (e : Nat) (k : EwModule) (b : Bytes) (h : Nat),
    (e = b2n atHub) ∧ (k = ewEnd s port m e) ∧ (h = fieldAt b 0 4) ∧ (ewRuns s port m e = true) ∧ (b.length = 256) ∧ (crc32c (b.take 252) ≠ fieldAt b 252 4)) ∧
  (∃ (s : State) (port : Nat) (m : Nat) (atHub : Bool) (e : Nat) (k : EwModule) (b : Bytes) (h : Nat),
    GoodEwFlit s port m e 2 b ∧ (e = b2n atHub) ∧ (k = ewEnd s port m e) ∧ (h = fieldAt b 0 4) ∧ (ewRuns s port m e = true) ∧ (k.queued = []) ∧ (bitOf h 25 = false)) ∧
  (∃ (s : State) (port : Nat) (m : Nat) (atHub : Bool) (e : Nat) (k : EwModule) (b : Bytes) (h : Nat),
    (e = b2n atHub) ∧ (k = ewEnd s port m e) ∧ (h = fieldAt b 0 4) ∧ (ewRuns s port m e = true) ∧ (k.got = true)) ∧
  (∃ (s : State) (port : Nat) (m : Nat) (atHub : Bool) (e : Nat) (k : EwModule) (b : Bytes) (h : Nat),
    (e = b2n atHub) ∧ (k = ewEnd s port m e) ∧ (h = fieldAt b 0 4) ∧ (ewRuns s port m e = true) ∧ (k.got = false)) ∧
  (∃ (s : State) (port : Nat) (m : Nat) (atHub : Bool) (e : Nat) (k : EwModule) (b : Bytes) (h : Nat),
    (e = b2n atHub) ∧ (k = ewEnd s port m e) ∧ (h = fieldAt b 0 4) ∧ (ewRuns s port m e = true) ∧ (k.replay = [])) ∧
  (∃ (s : State) (port : Nat) (m : Nat) (atHub : Bool) (e : Nat) (k : EwModule) (b : Bytes) (h : Nat),
    (e = b2n atHub) ∧ (k = ewEnd s port m e) ∧ (h = fieldAt b 0 4) ∧ (ewRuns s port m e = true) ∧ (k.replay ≠ [])) :=
 ⟨
  ⟨(ewState { ewLink with expected := 511 }), 3, 15, true, 1, { ewLink with expected := 511 }, (wireEw 32737 []), 32737, ⟨by decide +kernel, by decide +kernel, by decide +kernel, by decide +kernel⟩, by decide +kernel⟩,
  ⟨(ewState { ewLink with expected := 510 }), 3, 15, true, 1, { ewLink with expected := 510 }, (wireEw 32737 []), 32737, ⟨by decide +kernel, by decide +kernel, by decide +kernel, by decide +kernel⟩, by decide +kernel⟩,
  ⟨(ewState ewLink), 3, 15, true, 1, ewLink, (toBytes 4 32737 ++ List.replicate 252 7), 32737, by decide +kernel⟩,
  ⟨(ewState { ewLink with replay := [(4, 9, 0, [1]), (5, 9, 0, [2]), (6, 9, 0, [3])] }), 3, 15, true, 1, { ewLink with replay := [(4, 9, 0, [1]), (5, 9, 0, [2]), (6, 9, 0, [3])] }, (wireEw 16941058 []), 16941058, ⟨by decide +kernel, by decide +kernel, by decide +kernel, by decide +kernel⟩, by decide +kernel⟩,
  ⟨(ewState { ewLink with got := true }), 3, 15, true, 1, { ewLink with got := true }, [], 0, by decide +kernel⟩,
  ⟨(ewState ewLink), 3, 15, true, 1, ewLink, [], 0, by decide +kernel⟩,
  ⟨(ewState ewLink), 3, 15, true, 1, ewLink, [], 0, by decide +kernel⟩,
  ⟨(ewState { ewLink with replay := [(4, 9, 0, [1]), (5, 9, 1, [2])] }), 3, 15, true, 1, { ewLink with replay := [(4, 9, 0, [1]), (5, 9, 1, [2])] }, [], 0, by decide +kernel⟩⟩

set_option maxRecDepth 100000 in
theorem test_witness_EweumMessages :
  (∃ (s : State) (port : Nat) (m : EwMessage) (e : Nat),
    (e = b2n m.fromHub) ∧ (port < 4) ∧ ((getPort s port).state = 2) ∧ ((tget s.dies (ewDie port e)).clocksStopped = false) ∧ (s.pins.refclkLost = false)) ∧
  (∃ (s : State) (port : Nat) (m : EwMessage) (e : Nat),
    (e = b2n m.fromHub) ∧ (port < 4) ∧ ((getPort s port).state = 2) ∧ ((tget s.dies (ewDie port e)).clocksStopped = false) ∧ (s.pins.refclkLost = false)) ∧
  (∃ (s : State) (port : Nat) (m : EwMessage) (e : Nat) (b : Bool),
    (e = b2n m.fromHub) ∧ (port < 6) ∧ ((getPort s port).state = 2) ∧ ((tget s.dies (ewDie port (b2n b))).clocksStopped = false) ∧ (s.pins.refclkLost = false)) ∧
  (∃ (s : State) (m : EwMessage) (e : Nat),
    (e = b2n m.fromHub) ∧ (partnerIn s = true) ∧ (m.fromHub = false) ∧ (partnerMay s 128 = true) ∧ (partnerStatus s false m ≠ 0)) ∧
  (∃ (s : State) (m : EwMessage) (e : Nat) (rs : List Bool),
    RangeVerifies s m.addr (256 * m.blocks) ∧ (e = b2n m.fromHub) ∧ (partnerIn s = true) ∧ (m.fromHub = false) ∧ (rs = (List.range m.blocks).map (fun i => (checkStored (readBytes s.mem (m.addr + 256 * i) 256) (tagOf s.mem (m.addr / 256 + i)).stored).getD false)) ∧ (partnerMay s 128 = true) ∧ (partnerStatus s false m = 0) ∧ (accessWaits s m.addr (256 * m.blocks) = false)) ∧
  (∃ (s : State) (m : EwMessage) (e : Nat),
    (e = b2n m.fromHub) ∧ (partnerIn s = true) ∧ (m.fromHub = false) ∧ (partnerMay s 128 = true) ∧ (partnerStatus s true m = 0) ∧ (accessWaits s m.addr (256 * m.blocks) = false) ∧ (m.data.length = 256 * m.blocks)) ∧
  (∃ (s : State) (m : EwMessage) (e : Nat),
    (e = b2n m.fromHub) ∧ (partnerIn s = true) ∧ (m.fromHub = false) ∧ (partnerMay s 130 = true)) ∧
  (∃ (s : State) (m : EwMessage) (e : Nat) (n : Nat),
    (e = b2n m.fromHub) ∧ (partnerIn s = true) ∧ (m.fromHub = false) ∧ (8192 ≤ n) ∧ (n < 65536) ∧ (m.addr = 0xE200000000 + 16 * n) ∧ (partnerMay s 129 = true)) ∧
  (∃ (s : State) (m : EwMessage) (e : Nat) (n : Nat) (v : Nat),
    (e = b2n m.fromHub) ∧ (partnerIn s = true) ∧ (m.fromHub = false) ∧ (8192 ≤ n) ∧ (n < 65536) ∧ (m.addr = 0xE200000000 + 16 * n) ∧ (partnerMay s 129 = true) ∧ ((tget s.knots n).value.toNat < v) ∧ (s.waiters.length < 131072)) ∧
  (∃ (s : State) (m : EwMessage) (e : Nat),
    (e = b2n m.fromHub) ∧ (partnerIn s = true) ∧ (m.fromHub = false) ∧ (m.addr < 0xE200020000) ∧ (partnerMay s 129 = true)) ∧
  (∃ (s : State) (m : EwMessage) (e : Nat),
    (e = b2n m.fromHub) ∧ (partnerIn s = true) ∧ (m.fromHub = false) ∧ (partnerMay s 128 = false) ∧ (s.errors.ringUp = false)) ∧
  (∃ (s : State) (m : EwMessage) (e : Nat) (w : Wake),
    (e = b2n m.fromHub) ∧ (partnerIn s = true) ∧ (m.fromHub = true) ∧ (s.wakes = [w]) ∧ (w.issuer = .chiplet) ∧ (w.tag = m.tag)) :=
 ⟨
  ⟨live, 3, ewMsg, 0, by decide +kernel⟩,
  ⟨live, 3, ewMsg, 0, by decide +kernel⟩,
  ⟨live, 3, ewMsg, 0, true, by decide +kernel⟩,
  ⟨partner, { ewMsg with addr := 0xE1000000FF }, 0, by decide +kernel⟩,
  ⟨partner, { ewMsg with addr := 0x10000000 }, 0, ((List.range 1).map (fun i => (checkStored (readBytes partner.mem (0x10000000 + 256 * i) 256) (tagOf partner.mem (0x10000000 / 256 + i)).stored).getD false)), rangeVerifies_of (by decide +kernel), by decide +kernel⟩,
  ⟨partner, { ewMsg with addr := 0x10000000, data := List.replicate 256 3, poison := [true] }, 0, by decide +kernel⟩,
  ⟨partner, ewMsg, 0, by decide +kernel⟩,
  ⟨{ partner with knots := [(65535, { value := 1 })] }, { ewMsg with addr := 0xE200000000 + 16 * 65535 }, 0, 65535, by decide +kernel⟩,
  ⟨{ partner with knots := [(8192, { value := 2 })] }, { ewMsg with addr := 0xE200000000 + 16 * 8192 }, 0, 8192, 3, by decide +kernel⟩,
  ⟨partner, { ewMsg with addr := 0xE200000000 + 16 * 8191 }, 0, by decide +kernel⟩,
  ⟨{ partner with dies := [(5, { agreed := 6 })] }, ewMsg, 0, by decide +kernel⟩,
  ⟨{ partner with wakes := [{ issuer := .chiplet, knot := 8192, value := 3, tag := 7 }] }, { ewMsg with fromHub := true }, 1, { issuer := .chiplet, knot := 8192, value := 3, tag := 7 }, by decide +kernel⟩⟩

def parityState : State := ewState { parity := List.replicate 32 (4, 0) }

set_option maxRecDepth 100000 in
theorem test_witness_EweumService :
  (∃ (s : State) (d : Nat),
    (hubRuns s = true) ∧ (d < 4) ∧ ((getPort s d).state = 2) ∧ ((getPort s d).quiesced = true)) ∧
  (∃ (s : State) (d : Nat) (n : Nat),
    (hubRuns s = true) ∧ (d < 4) ∧ ((getPort s d).state = 2) ∧ ((getPort s d).quiesced = false) ∧ ((tget s.dies d).clocksStopped = false) ∧ (n < 4)) ∧
  (∃ (s : State) (d : Nat) (n : Nat) (st : Nat),
    (hubRuns s = true) ∧ (d < 4) ∧ ((getPort s d).state = 2) ∧ ((getPort s d).quiesced = false) ∧ ((tget s.dies d).clocksStopped = false) ∧ (n < 4) ∧ (st / 2 = d)) ∧
  (∃ (s : State) (d : Nat) (r : Nat) (n : Nat),
    (hubRuns s = true) ∧ (d < 4) ∧ ((getPort s d).state = 2) ∧ ((getPort s d).quiesced = false) ∧ ((tget s.dies d).clocksStopped = false) ∧ (n < 12) ∧ (r / 4 = d)) ∧
  (∃ (s : State) (d : Nat) (y : Nat) (v : Nat),
    (hubRuns s = true) ∧ (d < 4) ∧ ((getPort s d).state = 2) ∧ ((getPort s d).quiesced = false) ∧ ((tget s.dies d).clocksStopped = false) ∧ (y < 8) ∧ (v < 4)) ∧
  (∃ (s : State) (d : Nat),
    (hubRuns s = true) ∧ (d < 4) ∧ ((getPort s d).state = 2) ∧ ((getPort s d).quiesced = false) ∧ ((tget s.dies d).clocksStopped = false) ∧ (s.thermal.clockOrdered = false)) ∧
  (∃ (s : State) (d : Nat),
    (hubRuns s = true) ∧ (sidebandOpen s d = false)) ∧
  (∃ (s : State) (d : Nat),
    (hubRuns s = true) ∧ (sidebandOpen s d = false)) ∧
  (∃ (s : State) (d : Nat) (n : Nat) (o : ResetOrder),
    (hubRuns s = true) ∧ (d < 4) ∧ (n < 8) ∧ (layerOrder s (8 * d + n) = some o)) ∧
  (∃ (s : State) (d : Nat) (a : DieAnswer),
    (hubRuns s = true) ∧ (sidebandOpen s d = true) ∧ (a.responds = true) ∧ (2 ≤ s.pcie.phase.toNat)) ∧
  (∃ (s : State),
    (hubRuns s = true) ∧ (sidebandOpen s 5 = true)) ∧
  (∃ (s : State) (d : Nat),
    (hubRuns s = true) ∧ (sidebandOpen s d = true)) ∧
  (∃ (s : State) (d : Nat),
    (hubRuns s = true) ∧ (d < 4) ∧ (sidebandOpen s d = true)) ∧
  (∃ (s : State) (d : Nat) (n : Nat),
    (hubRuns s = true) ∧ (d < 4) ∧ (sidebandOpen s d = true) ∧ (n < 8)) ∧
  (∃ (s : State) (step : Nat),
    (hubRuns s = true) ∧ (0 < step)) ∧
  (∃ (s : State),
    (hubRuns s = true) ∧ ((tget s.dies 5).heldOut = true)) ∧
  (∃ (s : State) (d : Nat),
    (hubRuns s = true) ∧ (d < 4) ∧ ((tget s.dies d).heldOut = true)) ∧
  (∃ (s : State),
    (hubRuns s = true) ∧ (partnerIn s = true)) ∧
  (∃ (s : State),
    (hubRuns s = true) ∧ (partnerIn s = false)) ∧
  (∃ (s : State) (port : Nat) (m : Nat) (to_ : Bool) (lane : Nat),
    (hubRuns s = true) ∧ (ewRuns s port m (rxEnd port to_) = true) ∧ (repairDue s port m (rxEnd port to_) lane = true) ∧ ((getPort s port).repairing = [])) ∧
  (∃ (s : State) (port : Nat) (r : EwRepair),
    (hubRuns s = true) ∧ ((getPort s port).repairing = [r]) ∧ (∀ x ∈ (getPort s port).links, x.2.replay = []) ∧ (r.moved = true)) ∧
  (∃ (s : State) (port : Nat) (r : EwRepair),
    (hubRuns s = true) ∧ ((getPort s port).repairing = [r]) ∧ (∀ x ∈ (getPort s port).links, x.2.replay = []) ∧ (r.module < 16) ∧ (port < 4) ∧ (8 < (getPort s port).modules)) :=
 ⟨
  ⟨{ live with ports := [(3, { state := 2, modules := 16, quiesced := true })] }, 3, by decide +kernel⟩,
  ⟨live, 3, 3, by decide +kernel⟩,
  ⟨live, 3, 3, 7, by decide +kernel⟩,
  ⟨live, 3, 15, 11, by decide +kernel⟩,
  ⟨live, 3, 7, 3, by decide +kernel⟩,
  ⟨live, 3, by decide +kernel⟩,
  ⟨{ live with ports := [(3, { modulesOut := 0xFFFF })] }, 3, by decide +kernel⟩,
  ⟨{ live with ports := [(3, { modulesOut := 0xFFFF })] }, 3, by decide +kernel⟩,
  ⟨{ live with resets := [{ scope := .mLayer, unit := 31, cause := .containment }] }, 3, 7, { scope := .mLayer, unit := 31, cause := .containment }, by decide +kernel⟩,
  ⟨live, 3, { responds := true, dieType := 1, pos := 2, stepMajor := 3, stepMinor := 4, capSent := true, caps := 0, revision := 1, tableVersion := 1, modulesTrained := 0xFFFF }, by decide +kernel⟩,
  ⟨{ partner with waiters := [{ issuer := .chiplet, knot := 8192, target := 3, tag := 7 }] }, by decide +kernel⟩,
  ⟨live, 3, by decide +kernel⟩,
  ⟨live, 3, by decide +kernel⟩,
  ⟨live, 3, 7, by decide +kernel⟩,
  ⟨{ partner with dies := [(5, { inReset := true })] }, 1, by decide +kernel⟩,
  ⟨{ partner with dies := [(5, { heldOut := true })] }, by decide +kernel⟩,
  ⟨{ live with dies := [(3, { heldOut := true })] }, 3, by decide +kernel⟩,
  ⟨partner, by decide +kernel⟩,
  ⟨live, by decide +kernel⟩,
  ⟨parityState, 3, 15, true, 4, by decide +kernel⟩,
  ⟨{ live with ports := [(3, { state := 2, modules := 16, quiesced := true, repairing := [{ module := 15, towardHub := true, lane := 4, moved := true }] })] }, 3, { module := 15, towardHub := true, lane := 4, moved := true }, by decide +kernel⟩,
  ⟨{ live with ports := [(3, { state := 2, modules := 9, quiesced := true, repairing := [{ module := 15, towardHub := true, lane := 4, moved := true }] })] }, 3, { module := 15, towardHub := true, lane := 4, moved := true }, by decide +kernel⟩⟩

set_option maxRecDepth 100000 in
theorem test_witness_WeaveCoreOrder :
  (∃ (sl : ModelSlot) (w : Nat) (b : Nat),
    (sl.weave[w / 64]? = some b)) :=
  ⟨{ weave := [5, 127] }, 64, 127, by decide +kernel⟩

set_option maxRecDepth 100000 in
theorem test_witness_AbortComesTooLate :
  (∃ (s : State) (p : Nat) (k : Packet) (j : Packet),
    MayBegin s p 0x0A02 k ∧ (firstThat (fun i => abortSource k i && i.tag == argAt k 0x10 4 && i.id != p) s.packets = some j) ∧ (j.opcode = 0x0A01 ∨ j.opcode = 0x0A02 ∨ j.opcode = 0x0903)) :=
  ⟨(inFlight live [(pkt 0x0A02 0 [(0x10, 4, 0x77), (0x14, 4, 0)]), { pkt 0x0903 5 [] with id := 2, tag := 0x77, started := true }]), 1, (pkt 0x0A02 0 [(0x10, 4, 0x77), (0x14, 4, 0)]), { pkt 0x0903 5 [] with id := 2, tag := 0x77, started := true }, mayBegin_of (by decide +kernel), by decide +kernel⟩

end Sys2Proof.Tests
end

section
/-!
Proofs about drafts and weaves (spec/06). A weave's cores are listed block by block (R166), so the list is indexed by
dividing by the size of a block.
-/
namespace Sys2Proof.Machine

@[simp] theorem length_rangeFrom (a n : Nat) : (rangeFrom a n).length = n := by
  rw [rangeFrom, List.length_map, List.length_range]

theorem getElem?_rangeFrom {n i : Nat} (a : Nat) (hi : i < n) : (rangeFrom a n)[i]? = some (a + i) := by
  rw [rangeFrom, List.getElem?_map, List.getElem?_range hi, Option.map_some]

theorem length_flatMap_of_blockLength {α β : Type} {f : α → List β} {n : Nat}
    (hf : ∀ a, (f a).length = n) (l : List α) : (l.flatMap f).length = l.length * n := by
  induction l with
  | nil => rw [List.flatMap_nil, List.length_nil, List.length_nil, Nat.zero_mul]
  | cons x xs ih =>
    rw [List.flatMap_cons, List.length_append, hf, ih, List.length_cons, Nat.succ_mul, Nat.add_comm]

/-- Blocks of one length `n`, one after another: entry `w` of the whole is entry `w % n` of block `w / n`. -/
theorem getElem?_flatMap_of_blockLength {α β : Type} {f : α → List β} {n : Nat} (hn : 0 < n)
    (hf : ∀ a, (f a).length = n) (l : List α) (w : Nat) {a : α} (ha : l[w / n]? = some a) :
    (l.flatMap f)[w]? = (f a)[w % n]? := by
  induction l generalizing w with
  | nil => exact nomatch ha
  | cons x xs ih =>
    rw [List.flatMap_cons]
    by_cases hw : w < n
    · have hx : x = a := by
        rw [Nat.div_eq_of_lt hw, List.getElem?_cons_zero] at ha
        exact Option.some.inj ha
      rw [List.getElem?_append_left (by rw [hf]; exact hw), Nat.mod_eq_of_lt hw, hx]
    · have hnw : n ≤ w := Nat.le_of_not_lt hw
      have hxs : xs[(w - n) / n]? = some a := by
        rwa [Nat.div_eq_sub_div hn hnw, List.getElem?_cons_succ] at ha
      rw [List.getElem?_append_right (by rw [hf]; exact hnw), hf, ih (w - n) hxs, ← Nat.mod_eq_sub_mod hnw]

theorem length_weaveCores (sl : ModelSlot) : (weaveCores sl).length = 64 * sl.weave.length := by
  rw [Nat.mul_comm]
  exact length_flatMap_of_blockLength (fun _ => length_rangeFrom _ _) sl.weave

/-- Weave core `w` is core `w % 64` of the block that stands at block ordinal `w / 64` (R166). -/
theorem getElem?_weaveCores {sl : ModelSlot} {w b : Nat} (hb : sl.weave[w / 64]? = some b) :
    (weaveCores sl)[w]? = some (64 * b + w % 64) := by
  calc (weaveCores sl)[w]?
      = (rangeFrom (b * 64) 64)[w % 64]? :=
        getElem?_flatMap_of_blockLength (by decide) (fun _ => length_rangeFrom _ _) sl.weave w hb
    _ = some (b * 64 + w % 64) := getElem?_rangeFrom _ (Nat.mod_lt w (by decide))
    _ = some (64 * b + w % 64) := by rw [Nat.mul_comm]

/-- Settles O59: every block gives 64 cores in order, so a core's index splits into block ordinal and core. -/
theorem weaveCoreOrder : Obligations.WeaveCoreOrder := by
  unfold Obligations.WeaveCoreOrder
  exact fun sl => ⟨length_weaveCores sl, fun _ _ hb => getElem?_weaveCores hb⟩

end Sys2Proof.Machine
end

section
/-!
Proofs about the doorbells of BAR4 (spec/11 R310): what a write of SQ_TAIL or CQ_HEAD does to its ring, and that an
access of BAR4 is such a write or a read of 0.
-/
namespace Sys2Proof.Machine

/-! ### Changes of one ring -/

@[simp] theorem getSq_modSq_self (s : State) (q : Nat) (f : Sq → Sq) : getSq (modSq s q f) q = f (getSq s q) :=
  tget_tmod_self s.sqs q f

theorem getSq_modSq_of_ne (s : State) {q m : Nat} (h : m ≠ q) (f : Sq → Sq) : getSq (modSq s q f) m = getSq s m :=
  tget_tmod_other s.sqs h f

@[simp] theorem getCq_modCq_self (s : State) (q : Nat) (f : Cq → Cq) : getCq (modCq s q f) q = f (getCq s q) :=
  tget_tmod_self s.cqs q f

theorem getCq_modCq_of_ne (s : State) {q m : Nat} (h : m ≠ q) (f : Cq → Cq) : getCq (modCq s q f) m = getCq s m :=
  tget_tmod_other s.cqs h f

/-- A command that changes one submission ring completes with that ring changed, and nothing else. -/
theorem completes_of_modSq {c : Instr} {s : State} {q : Nat} {f : Sq → Sq} (h : exec c s = .next (modSq s q f)) :
    Completes c s (fun t => getSq t q = f (getSq s q) ∧ (∀ m, m ≠ q → getSq t m = getSq s m) ∧ t = { s with sqs := t.sqs }) :=
  ⟨modSq s q f, h, getSq_modSq_self s q f, fun _ hm => getSq_modSq_of_ne s hm f, rfl⟩

/-- A command that changes one completion ring completes with that ring changed, and nothing else. -/
theorem completes_of_modCq {c : Instr} {s : State} {q : Nat} {f : Cq → Cq} (h : exec c s = .next (modCq s q f)) :
    Completes c s (fun t => getCq t q = f (getCq s q) ∧ (∀ m, m ≠ q → getCq t m = getCq s m) ∧ t = { s with cqs := t.cqs }) :=
  ⟨modCq s q f, h, getCq_modCq_self s q f, fun _ hm => getCq_modCq_of_ne s hm f, rfl⟩

/-! ### The state of the BARs -/

theorem Served.barsServed {s : State} (h : Served s) : barsServed s = true := by
  simp [Machine.barsServed, h.clocks, h.d0, h.ready]

theorem Served.barAlive {s : State} (h : Served s) : barAlive s = true := by
  simp [Machine.barAlive, h.clocks, h.d0]

/-! ### The two doorbells -/

theorem exec_sqTail (q : Nat) (value : Word) (s : State) : exec (.sqTail q value) s = .next (sqTail q value.toNat s) := rfl

theorem exec_cqHead (q : Nat) (value : Word) (s : State) : exec (.cqHead q value) s = .next (cqHead q value.toNat s) := rfl

/-- A ring index is the low 16 bits of the written word. -/
theorem ofNat_mod_65536 (v : Nat) : BitVec.ofNat 16 (v % 65536) = BitVec.ofNat 16 v :=
  BitVec.eq_of_toNat_eq (Nat.mod_mod v 65536)

theorem sqTail_of_disabled {s : State} {q : Nat} (v : Nat) (h : (getSq s q).enable = false) : sqTail q v s = s := by
  simp [sqTail, h]

theorem sqTail_of_size_le {s : State} {q v : Nat} (hs : Served s) (he : (getSq s q).enable = true)
    (hv : sqSize (getSq s q) ≤ v % 65536) : sqTail q v s = modSq s q (fun x => { x with cfgErr := true }) := by
  simp [sqTail, hs.barsServed, he, hv]

theorem sqTail_of_lt_size {s : State} {q v : Nat} (hs : Served s) (he : (getSq s q).enable = true)
    (hv : v % 65536 < sqSize (getSq s q)) :
    sqTail q v s = modSq s q (fun x => { x with tail := BitVec.ofNat 16 v, short := false }) := by
  simp [sqTail, hs.barsServed, he, Nat.not_le.mpr hv, ofNat_mod_65536]

theorem cqHead_of_disabled {s : State} {q : Nat} (v : Nat) (h : (getCq s q).enable = false) : cqHead q v s = s := by
  simp [cqHead, h]

theorem cqHead_of_size_le {s : State} {q v : Nat} (hs : Served s) (he : (getCq s q).enable = true)
    (hv : cqSize (getCq s q) ≤ v % 65536) : cqHead q v s = modCq s q (fun x => { x with cfgErr := true }) := by
  simp [cqHead, hs.barsServed, he, hv]

/-- The entries from the old head up to the written index are released. -/
theorem cqHead_of_lt_size {s : State} {q v : Nat} (hs : Served s) (he : (getCq s q).enable = true)
    (hv : v % 65536 < cqSize (getCq s q)) :
    cqHead q v s = modCq s q (fun x => { x with
      head := BitVec.ofNat 16 v,
      unread := x.unread - (v % 65536 + cqSize (getCq s q) - (getCq s q).head.toNat) % cqSize (getCq s q) }) := by
  simp [cqHead, hs.barsServed, he, Nat.not_le.mpr hv, ofNat_mod_65536]

/-! ### Accesses of BAR4 -/

/-- An aligned word inside BAR4 is an access that R306 allows. -/
theorem accessFits_word {off limit : Nat} (ha : off % 4 = 0) (hl : off + 4 ≤ limit) : accessFits off 4 limit = true := by
  simp [accessFits, ha, hl]

theorem exec_registerWrite_bar4 {s : State} {off : Nat} (value : Word) (hs : Served s) (ha : off % 4 = 0)
    (hl : off + 4 ≤ 0x10000) :
    exec (.registerWrite (.bar4 off) 4 (value.setWidth 64)) s = .next (doorbell s off value.toNat) := by
  have hv : (value.setWidth 64).toNat = value.toNat := BitVec.toNat_setWidth_of_le (by decide)
  have hw : bar4Write s off 4 (value.setWidth 64).toNat = doorbell s off value.toNat := by
    simp [bar4Write, accessFits_word ha hl, hv]
  calc exec (.registerWrite (.bar4 off) 4 (value.setWidth 64)) s
      = .next (if barAlive s then bar4Write s off 4 (value.setWidth 64).toNat else s) := rfl
    _ = .next (doorbell s off value.toNat) := by rw [if_pos hs.barAlive, hw]

theorem exec_rcRegisterRead_bar4 {s : State} {off : Nat} (hs : Served s) (ha : off % 4 = 0) (hl : off + 4 ≤ 0x10000) :
    exec (.rcRegisterRead (.bar4 off) 4) s = .next (hostRead s [0, 0, 0, 0]) := by
  calc exec (.rcRegisterRead (.bar4 off) 4) s
      = .next (if barAlive s then bar4Read s off 4 else s) := rfl
    _ = .next (hostRead s (toBytes 4 0)) := by rw [if_pos hs.barAlive, bar4Read, if_pos (accessFits_word ha hl)]

theorem doorbell_sqTail (s : State) (q v : Nat) : doorbell s (q * 0x400) v = sqTail q v s := by
  simp [doorbell]

theorem doorbell_cqHead (s : State) (q v : Nat) : doorbell s (q * 0x400 + 4) v = cqHead q v s := by
  have hq : (q * 0x400 + 4) / 0x400 = q := by omega
  have hr : (q * 0x400 + 4) % 0x400 = 4 := by omega
  simp [doorbell, hq, hr]

/-- Settles O11: an aligned word write of BAR4 is a doorbell of its ring pair, and the ring's ENABLE and size decide
what the doorbell does. -/
theorem doorbells : Obligations.Doorbells := by
  unfold Obligations.Doorbells
  intro s q value hs hq
  refine ⟨?sqTailAddress, ?cqHeadAddress, ?reads, ?sqDisabled, ?sqBeyond, ?sqBelow, ?cqDisabled, ?cqBeyond, ?cqBelow⟩
  case sqTailAddress =>
    rw [exec_registerWrite_bar4 value hs (by omega) (by omega), doorbell_sqTail, exec_sqTail]
  case cqHeadAddress =>
    rw [exec_registerWrite_bar4 value hs (by omega) (by omega), doorbell_cqHead, exec_cqHead]
  case reads =>
    exact fun off hl ha => exec_rcRegisterRead_bar4 hs ha (by omega)
  case sqDisabled =>
    exact fun he => by rw [exec_sqTail, sqTail_of_disabled _ he]
  case sqBeyond =>
    exact fun he hv => completes_of_modSq (by rw [exec_sqTail, sqTail_of_size_le hs he hv])
  case sqBelow =>
    exact fun he hv => completes_of_modSq (by rw [exec_sqTail, sqTail_of_lt_size hs he hv])
  case cqDisabled =>
    exact fun he => by rw [exec_cqHead, cqHead_of_disabled _ he]
  case cqBeyond =>
    exact fun he hv => completes_of_modCq (by rw [exec_cqHead, cqHead_of_size_le hs he hv])
  case cqBelow =>
    exact fun he hv => completes_of_modCq (by rw [exec_cqHead, cqHead_of_lt_size hs he hv])

end Sys2Proof.Machine
end

section
/-!
Proofs about ABORT (spec/12 R336 to R338). A command that is past its completion point is not stoppable, so an ABORT of it
marks whose reply its own follows and answers ST_ALREADY_DONE; both write the ABORT's own packet alone.
-/
namespace Sys2Proof.Machine

/-! ### The packets beside the one that changes -/

theorem firstThat_modFirst_of_ne {p i : Nat} {f : Packet → Packet} (hf : ∀ j, (f j).id = j.id) (hi : i ≠ p) (l : List Packet) :
    firstThat (fun j => j.id == i) (modFirst (fun j => j.id == p) f l) = firstThat (fun j => j.id == i) l := by
  induction l with
  | nil => rfl
  | cons a l ih =>
    by_cases ha : a.id = p
    · simp [modFirst, firstThat, hf, ha, hi.symm]
    · simp [modFirst, firstThat, ha, ih]

theorem getPacket_modPacket_of_ne {s : State} {p i : Nat} {f : Packet → Packet} (hf : ∀ j, (f j).id = j.id) (hi : i ≠ p) :
    getPacket (modPacket s p f) i = getPacket s i := firstThat_modFirst_of_ne hf hi s.packets

theorem getPacket_finish_of_ne {s : State} {p i : Nat} (st : Nat) (r : Bytes) (hi : i ≠ p) :
    getPacket (finish s p st r) i = getPacket s i :=
  getPacket_modPacket_of_ne (fun j => by cases j.answer <;> rfl) hi

/-! ### A target past its completion point -/

/-- RESET, ABORT and FW_ACTIVATE reach their completion points at fetch (R338). -/
theorem stoppable_of_completesAtFetch {j : Packet} (h : j.opcode = 0x0A01 ∨ j.opcode = 0x0A02 ∨ j.opcode = 0x0903) :
    stoppable j = false := by
  rcases h with h | h | h <;> simp [stoppable, h]

theorem exec_abort (p : Nat) (s : State) : exec (.abort p) s = .next (abort p s) := rfl

/-- An ABORT whose target cannot be stopped answers ST_ALREADY_DONE with FOUND, and its reply follows its target's. -/
theorem abort_of_not_stoppable {s : State} {p : Nat} {k j : Packet} (m : MayBegin s p 0x0A02 k)
    (hj : firstThat (fun i => abortSource k i && i.tag == argAt k 0x10 4 && i.id != p) s.packets = some j)
    (hs : stoppable j = false) :
    abort p s = finish (modPacket s p (fun x => { x with follows := some j.id })) p stAlreadyDone (toBytes 4 1) := by
  rw [abort, runCmd_of m]
  simp [hj, hs]

/-- Settles O60: the target is not stoppable however far it has come, so only the ABORT's own packet changes. -/
theorem abortComesTooLate : Obligations.AbortComesTooLate := by
  unfold Obligations.AbortComesTooLate
  intro s p k j m hj hop
  have ht := abort_of_not_stoppable m hj (stoppable_of_completesAtFetch hop)
  refine ⟨_, (exec_abort p s).trans (congrArg _ ht), ?status, ?otherPackets, rfl⟩
  case status =>
    have hk := getPacket_modPacket (f := fun x => { x with follows := some j.id }) (fun _ => rfl) m.found
    have ha : Answers _ p stAlreadyDone (toBytes 4 1) := answers_finish hk m.unanswered
    exact congrArg (Option.map (·.status)) ha
  case otherPackets =>
    intro i hi
    exact (getPacket_finish_of_ne _ _ hi).trans (getPacket_modPacket_of_ne (fun _ => rfl) hi)

end Sys2Proof.Machine
end
